-- ==== Sys2Proof/Word.lean ====
section
/-! DEFINITION. The word types of the device and the shape of its sparse tables. -/

namespace Sys2Proof

/-- A byte; multi-byte values are little-endian (R8). -/
abbrev Byte := BitVec 8
/-- A 16-bit value. -/
abbrev Half := BitVec 16
/-- A register: 32 bits (R9). -/
abbrev Word := BitVec 32
/-- A 64-bit value (GT64, wide counters). -/
abbrev Dword := BitVec 64
/-- A run of bytes, lowest address first. -/
abbrev Bytes := List Byte

/-- A sparse table: pairs of a key and a value, keys strictly rising, no value equal to the
table's default (what an unlisted key reads as). -/
abbrev Tab (α : Type) := List (Nat × α)

end Sys2Proof
end

