-- ==== Sys2Proof/Syntax.lean ====
section
/-! DEFINITION. The commands: one constructor per row of spec/opcode_table.json. The table gives the rows no
operands; those below name the unit the event befalls and what comes from outside with it (log entry 2). -/

namespace Sys2Proof

/-- What a read of a report-queue record meets in the tier (R252): nothing, an uncorrectable error in the
`k`-th cell of the record, or one in the link entry of its `k`-th cell. -/
inductive RqHit where
  | none
  | cell (k : Nat)
  | link (k : Nat)
deriving DecidableEq, Repr

/-- What the read of a frame for transmission meets (R326): nothing, an uncorrectable error in a cell of the
frame, or one in the link-table entry that names the entries behind it. -/
inductive TxHit where
  | none
  | cell
  | link
deriving DecidableEq, Repr

/-- A parity error that strikes a Granary operation (R79): in the endpoint or flow table, at an entry index,
in the words of the bitmap. -/
structure ParHit where
  ep : Bool
  index : Nat
  words : Nat
deriving DecidableEq, Repr

/-- What an engine meets while it runs a command (Table FLT-1, classes 1, 6 and 18): a mismatch of its check in unit `unit` (a
quarter of the Sheaf, a lane of the Thresher, a logical bank for the score port), at cube `cube`, at the piece of work number
`place` (an output tile of a MATMUL, a sample of an EVAL or of a chunk), which recurs in the repetition or does not; an array fault
that makes the codeword of device address `addr` uncorrectable; a correctable error in 64-byte unit `unit` of a bank, or at an address
of tile SRAM. -/
inductive EngHit where
  | mismatch (unit cube place : Nat) (recurs : Bool)
  | ue (addr : Nat)
  | ce (bank unit : Nat)
  | fix (addr : Nat)
deriving DecidableEq, Repr

/-- Header of a bank operation as its issuer fills it in (Table BT-2): SRCKIND, SRCID, PLY, TAG. OPC, OFFSET, LEN and the arguments
are the row's and its other operands. -/
structure BankHdr where
  kind : Nat
  id : Nat
  ply : Nat
  tag : Nat
deriving DecidableEq, Repr, Inhabited

/-- A bank operation as it comes to the tier: the logical bank it is for, and its header. -/
structure BankTo where
  bank : Nat
  hdr : BankHdr
deriving DecidableEq, Repr

/-- A dispatcher command as it runs: the logical tile, and what the dispatcher's duplicate compare meets (Table FLT-1, class 1). -/
structure DispRun where
  tile : Nat
  hits : List EngHit
deriving DecidableEq, Repr

/-- What a bank operation meets (R194, R196): nothing; a correctable error in the 64-byte unit at a bank offset; an array
fault that makes the 32-byte codeword at a bank offset in 32-byte units uncorrectable; a mismatch of the duplicate
compare, which recurs in the repetition or does not. -/
inductive BankHit where
  | none
  | ce (unit : Nat)
  | ue (codeword : Nat)
  | mismatch (recurs : Bool)
deriving DecidableEq, Repr

/-- What a flash target's parameter page reports (R333): bytes of a page's data and spare areas, planes, pages of a block, read-retry
levels, capacity in GiB. -/
structure FlashTarget where
  page : Nat
  spare : Nat
  planes : Nat
  blockPages : Nat
  levels : Nat
  gib : Nat
deriving DecidableEq, Repr, Inhabited

/-- What a start stage finds (Table STA-1): it completes (self test, fuse vote, PLL lock; the firmware copy can be read), takes its
longer bound (a rebuild by scan, SerDes retraining); stage 0x02 the fused GRADE; stage 0x03 what each flash channel's targets report,
the copies of structures that are not intact as (structure, copy), the blocks whose factory mark reads as bad, the log pages that cannot be read; stage 0x09 the SerDes references that are missing (bit p: FP4p to FP4p+3; bit 4 + p: PLp); stage 0x06
the sites that fail, cubes as (site, cube), Thresher lanes as (site, bitmap), logical banks; stage 0x08 the LPDDR5X channels that
fail, rate and channel capacity codes, two ranks. -/
structure StageIn where
  ok : Bool
  long : Bool
  grade : Nat
  fc0 : List FlashTarget
  fc1 : List FlashTarget
  lost : List (Nat × Nat)
  factory : List Nat
  gaps : List Nat
  noRef : Nat
  sites : List Nat
  cubes : List (Nat × Nat)
  lanes : List (Nat × Nat)
  banks : List Nat
  channels : List Nat
  rate : Nat
  chcap : Nat
  ranks2 : Bool
deriving DecidableEq, Repr, Inhabited

/-- A command of the block: an operation or event of the table. -/
inductive Instr where
  /-- FRAME_RECEIVE (R36): A front-port MAC receives a frame: it asks for admission, stamps it, writes its cells and hands the descriptor to its pipe, or discards it and counts the failed frame check. Operands: port, sub-port, the frame's bytes with FCS, did the RS-FEC fail, is it a 1588 event message. -/
  | frameReceive (port : Nat) (sub : Nat) (bytes : Bytes) (fecBad : Bool) (ptp : Bool)
  /-- PFC_FRAME_RECEIVE (R234): A received PFC frame is counted, sets or ends the pause timers of honoured priorities and, when PFC_RELAY is set, is relayed to the partner port. Operands: port, sub-port, bytes, did the RS-FEC fail. -/
  | pfcFrameReceive (port : Nat) (sub : Nat) (bytes : Bytes) (fecBad : Bool)
  /-- END_STATUS (R40): The delayed end status of an END_PENDING frame arrives: if good, the pending Granary and feature updates commit; if bad, the frame is discarded and counted. Operands: partition and first cell of the frame. -/
  | endStatus (p : Nat) (cell : Nat)
  /-- PIPE_DESCRIPTOR (R41): A pipe lane takes a descriptor, walks the parse graph, forms the flow key and class, probes the Granary, updates feature state and evaluates triggers. Operands: pipe, parity errors among the Granary entries read. -/
  | pipeDescriptor (p : Nat) (par : List ParHit)
  /-- LATENCY_BOUND_EXPIRY (R27): A held frame's latency bound expires and it proceeds under its context's default provisional verdict with LATE_DEFAULT. Operands: partition and first cell of the frame. -/
  | latencyBoundExpiry (p : Nat) (cell : Nat)
  /-- BANK_READ (R181): A bank-side engine returns LEN 64-byte units, checking the sideband and correcting or failing under R194. Operands: logical bank, header, opcode, offset and length in 64-byte units, what the bank meets. -/
  | bankRead (b : BankTo) (opc : Nat) (off : Nat) (len : Nat) (hit : BankHit)
  /-- BANK_WRITE (R181): A bank-side engine stores LEN 64-byte units with fresh check bits. Operands: logical bank, header, offset in 64-byte units, data, what the bank meets. -/
  | bankWrite (b : BankTo) (off : Nat) (data : Bytes) (hit : BankHit)
  /-- PROBE (R67): A bank-side engine compares a flow or endpoint key against the slots of its candidate buckets and reports a hit or a miss. Operands: partition of the share, endpoint or flow table, key, parity errors among the entries read. -/
  | probe (p : Nat) (ep : Bool) (key : Bytes) (par : List ParHit)
  /-- COMMIT (R69): A bank-side commit applies a descriptor's entry update, insert, port learning and feature-state update wholly, and advances the commit mark. Operands: partition, flow key, endpoint key where there is one, class, ingress port, stamp, sequence, new feature state, parity errors. -/
  | commit (p : Nat) (key : Bytes) (ep : Option Bytes) (cls : Nat) (port : Nat) (gt : Nat) (seq : Nat) (fstate : Bytes) (par : List ParHit)
  /-- AGE (R75): An aging-scan visit deletes expired or shadowed entries of a bucket, fires their EOF and lowers MOVES. Operands: partition, table, way, bucket, parity errors. -/
  | age (p : Nat) (ep : Bool) (way : Nat) (bucket : Nat) (par : List ParHit)
  /-- SCAN_PASS_START (R75): The aging scan starts a new pass over a table when its period has elapsed. Operands: partition, table. -/
  | scanPassStart (p : Nat) (ep : Bool)
  /-- INSERT_TOKEN_ACCRUE (R71): A token is added to the partition's insert budget every INTERVAL PCLK cycles, up to BURST. Operands: partition. -/
  | insertTokenAccrue (p : Nat)
  /-- MOVE_TOKEN_ACCRUE (R78): A token is added to the partition's move budget each 1 ms divided by RATE, up to BURST. Operands: partition. -/
  | moveTokenAccrue (p : Nat)
  /-- SCORE (R186): Attention phase 1 in a bank computes exact integer scores of a query against its segments' keys. Operands: logical bank, header, tier address of the history record, queries and their codes, what the bank meets. -/
  | score (b : BankTo) (rec_ : Nat) (nq : Nat) (codes : Bytes) (hit : BankHit)
  /-- VALUE (R186): Attention phase 2 in a bank forms exponentiated weights and weighted value sums for its segments. Operands: logical bank, header, tier address of the history record, m and c of each query, what the bank meets. -/
  | value (b : BankTo) (rec_ : Nat) (ms : List Int) (cs : List Nat) (hit : BankHit)
  /-- BANK_TOPK (R191): A bank-side engine keeps a local top-k list of scored positions. Operands: logical bank, header, tier address of the history record, queries, K, codes, what the bank meets. -/
  | bankTopk (b : BankTo) (rec_ : Nat) (nq : Nat) (k : Nat) (codes : Bytes) (hit : BankHit)
  /-- DOT (R192): A bank-side engine computes GEMV rows over its weight blocks. Operands: logical bank, header, tier address of the matrix record, vectors and their codes, what the bank meets. -/
  | dot (b : BankTo) (rec_ : Nat) (nv : Nat) (codes : Bytes) (hit : BankHit)
  /-- BANK_XPOSE (R193): A bank-side engine transposes 8 x 8 blocks and sends them to their destination banks. Operands: logical bank, header, byte offset of the block, source pitch, destination tier address and pitch, 2-byte elements, what the bank meets. -/
  | bankXpose (b : BankTo) (off : Nat) (spitch : Nat) (dst : Nat) (dpitch : Nat) (two : Bool) (hit : BankHit)
  /-- APPEND (R184): A bank-side engine writes quantised history positions. Operands: logical bank, header, tier address of the history record, position, key and value codes, what the bank meets. -/
  | append (b : BankTo) (rec_ : Nat) (pos : Nat) (key : Bytes) (val : Bytes) (hit : BankHit)
  /-- MIGRATION_COPY (R197): The island copies a bank's contents to a spare bank of its group. Operands: logical bank, header, 64-byte units copied. -/
  | migrationCopy (b : BankTo) (units : Nat)
  /-- PATROL_SCRUB (R195): A patrol read checks and corrects a tier unit at the lowest priority. Operands: logical bank, header, unit, what the bank meets. -/
  | patrolScrub (b : BankTo) (unit : Nat) (hit : BankHit)
  /-- BANK_REMAP (R197): When the retirement copy ends, the remap table entry changes at the next operation boundary and BANK_RETIRE is raised. Operands: logical bank. -/
  | bankRemap (bank : Nat)
  /-- BANK_REFRESH (R178): A bank's refresh interval expires and the bank is refreshed for tRFCB. Operands: logical bank. -/
  | bankRefresh (bank : Nat)
  /-- ACTIVATION_WINDOW (R179): A 100 ns window ends and each group's activation budget starts again. Operands: for each group that had operations: group, and the activations that each of the four priorities of R179 asked for. -/
  | activationWindow (acts : List (Nat × List Nat))
  /-- LG_MIGRATE (R185): The island moves a logical group of a history to another physical group between two commands that name it. Operands: tier address of the history record, logical group, what the reads of its segments meet. -/
  | lgMigrate (rec_ : Nat) (lg : Nat) (hits : List EngHit)
  /-- REQUEST_ADMIT (R88): A dispatcher takes an inference request from its queue and admits it into a request buffer, or refuses it. Operands: logical tile; is the request's journal slot uncorrectable. -/
  | requestAdmit (l : Nat) (ue : Bool)
  /-- NOP (R95): The dispatcher command NOP completes at issue. Operands: logical tile (the command is the ring's), what the dispatcher's duplicate compare meets. -/
  | nop (d : DispRun)
  /-- TAKE (R91): TAKE takes the oldest admitted requests of a context as the current batch. Operands: logical tile, what the dispatcher's duplicate compare meets. -/
  | take (d : DispRun)
  /-- POST (R92): POST sends one result record per request of the batch to the verdict unit and retires the requests. Operands: logical tile, what the dispatcher's duplicate compare meets. -/
  | post (d : DispRun)
  /-- KSET (R96): KSET sets a knot of the context to an immediate value. Operands: logical tile, what the dispatcher's duplicate compare meets. -/
  | kset (d : DispRun)
  /-- COMMAND_COMPLETE (R97): An engine reports completion of a command: its scoreboard entry frees and its signal is applied, or the completion is dropped under an older PLY. Operands: logical tile and scoreboard entry. -/
  | commandComplete (l : Nat) (slot : Nat)
  /-- TEARDOWN (R101): The host TEARDOWN command quiesces a context, advances its PLY and refuses its outstanding requests. Operands: device context number. -/
  | teardown (ctx : Nat)
  /-- FAULT (R100): The host FAULT command faults a context with code HOST. Operands: device context number. -/
  | ctxFault (ctx : Nat)
  /-- KNOT_READ (R108): The host KNOT_READ command reads the selected knot of a context that is not FREE. Operands: device context number (the knot is that of TIL_KNOT_SEL). -/
  | knotRead (ctx : Nat)
  /-- KNOT_WRITE (R108): The host KNOT_WRITE command writes the selected knot of a FAULTED context. Operands: device context number. -/
  | knotWrite (ctx : Nat)
  /-- QUIESCE_END (R103): Every transfer of a tearing-down context has returned, so its resources are released and it becomes FREE or FAULTED. Operands: device context number. -/
  | quiesceEnd (ctx : Nat)
  /-- QUIESCE_TIMEOUT (R103): tQUIESCE expires, so the context's entries are purged from every queue and it is released. Operands: device context number. -/
  | quiesceTimeout (ctx : Nat)
  /-- MATMUL (R136): The Sheaf multiplies two operands over its span, checking tags and residues, and writes output tiles. Operands: logical tile and what the engine meets. -/
  | matmul (l : Nat) (hits : List EngHit)
  /-- EVAL (R166): The Thresher evaluates a resident ensemble against a set of samples and writes their output rows. Operands: logical tile and what the engine meets. -/
  | eval (l : Nat) (hits : List EngHit)
  /-- STREAM (R168): A STREAM command joins or opens the forming pass of its Thresher. Operands: logical tile and what the engine meets. -/
  | stream (l : Nat) (hits : List EngHit)
  /-- PASS_START (R168): A forming pass starts running when it is full or closed, or when its oldest member's window elapses. Operands: logical tile. -/
  | passStart (l : Nat)
  /-- PASS_CHUNK (R169): A streamed chunk of trees arrives and is evaluated against every member's samples, and members' rows are written after the last chunk. Operands: logical tile and what the engine meets. -/
  | passChunk (l : Nat) (hits : List EngHit)
  /-- EW (R106): VX performs an elementwise add, subtract, multiply, max, min or copy. Operands: logical tile and what the engine meets. -/
  | ew (l : Nat) (hits : List EngHit)
  /-- FMA (R106): VX performs a fused multiply-add into its destination. Operands: logical tile and what the engine meets. -/
  | fma (l : Nat) (hits : List EngHit)
  /-- REDUCE (R106): VX reduces rows by sum or max in a fixed order. Operands: logical tile and what the engine meets. -/
  | reduce (l : Nat) (hits : List EngHit)
  /-- SOFTMAX (R106): VX computes a softmax per row in two passes. Operands: logical tile and what the engine meets. -/
  | softmax (l : Nat) (hits : List EngHit)
  /-- NORM (R106): VX computes a layer norm or RMS norm per row. Operands: logical tile and what the engine meets. -/
  | norm (l : Nat) (hits : List EngHit)
  /-- LUT (R106): VX applies a 256-entry BF16 lookup table with linear interpolation. Operands: logical tile and what the engine meets. -/
  | lut (l : Nat) (hits : List EngHit)
  /-- QUANT (R121): VX quantises each row with its own scale and writes data and scale blocks with tags. Operands: logical tile and what the engine meets. -/
  | quant (l : Nat) (hits : List EngHit)
  /-- DEQUANT (R125): VX reconstructs quantised values in FP32 or BF16. Operands: logical tile and what the engine meets. -/
  | dequant (l : Nat) (hits : List EngHit)
  /-- COMBINE (R189): VX turns attention group partials into softmax-weighted value rows. Operands: logical tile and what the engine meets. -/
  | combine (l : Nat) (hits : List EngHit)
  /-- CONVERT (R115): VX converts a dense array between formats. Operands: logical tile and what the engine meets. -/
  | convert (l : Nat) (hits : List EngHit)
  /-- COPY (R107): The Mover copies data between SRAM, tier and LPDDR5X. Operands: logical tile and what the engine meets. -/
  | copy (l : Nat) (hits : List EngHit)
  /-- GATHER (R107): The Mover gathers 64-byte rows listed by indices. Operands: logical tile and what the engine meets. -/
  | gather (l : Nat) (hits : List EngHit)
  /-- SCATTER (R107): The Mover scatters 64-byte rows to listed indices. Operands: logical tile and what the engine meets. -/
  | scatter (l : Nat) (hits : List EngHit)
  /-- TRANSPOSE (R107): The Mover reads 32 x 32 blocks transposed. Operands: logical tile and what the engine meets. -/
  | transpose (l : Nat) (hits : List EngHit)
  /-- FILL (R107): The Mover fills a range with a byte pattern. Operands: logical tile and what the engine meets. -/
  | fill (l : Nat) (hits : List EngHit)
  /-- ATTEND (R186): The score port runs a two-phase attention over a history and writes group partials. Operands: logical tile and what the engine meets (a mismatch names the logical bank). -/
  | attend (l : Nat) (hits : List EngHit)
  /-- TOPK (R191): The score port returns the K highest-scoring positions of a history for each query. Operands: logical tile and what the engine meets (a mismatch names the logical bank). -/
  | topk (l : Nat) (hits : List EngHit)
  /-- HAPPEND (R184): The score port appends quantised key and value rows to a history and then advances TOKENS. Operands: logical tile and what the engine meets (a mismatch names the logical bank). -/
  | happend (l : Nat) (hits : List EngHit)
  /-- GEMV (R192): The score port computes y = W x in the banks that hold W. Operands: logical tile and what the engine meets (a mismatch names the logical bank). -/
  | gemv (l : Nat) (hits : List EngHit)
  /-- XPOSE (R193): The score port transposes a tier array in 8 x 8 blocks. Operands: logical tile and what the engine meets (a mismatch names the logical bank). -/
  | xpose (l : Nat) (hits : List EngHit)
  /-- RESULT_RECORD (R202): The verdict unit receives a result record, forms the verdict, updates VSTATE and the ledger and applies the action entry to the flow's frames. Operands: partition (the record is the oldest at its verdict unit). -/
  | resultRecord (p : Nat)
  /-- REFUSAL_VERDICT (R202): The verdict unit receives a refusal and issues a LATE_DEFAULT provisional verdict of the default class. Operands: partition (the refusal is the oldest at its verdict unit). -/
  | refusalVerdict (p : Nat)
  /-- LEDGER_HOLD_EXPIRY (R210): A ledger slot open for HOLD without a final verdict is resolved as stood. Operands: partition and ledger slot. -/
  | ledgerHoldExpiry (p : Nat) (slot : Nat)
  /-- SAMPLE_WINDOW_END (R215): At the end of each 10 µs window each context's sampling exponent rises on demand or falls after RECOVER demand-free windows. Operands: partition. -/
  | sampleWindowEnd (p : Nat)
  /-- SCHEDULER_DECISION (R231): A sub-port's scheduler chooses and dequeues the next frame by strict priority and deficit round robin. Operands: egress port and sub-port; what the read of the frame meets. -/
  | schedulerDecision (port : Nat) (sub : Nat) (hit : TxHit)
  /-- DEQUEUE_END (R221): A frame's transmission ends and the reference counts of its cells drop, returning cells to the free list at zero. Operands: port and sub-port. -/
  | dequeueEnd (port : Nat) (sub : Nat)
  /-- PAUSE_EXPIRY (R234): A priority's PFC pause timer expires and its queues become eligible again. Operands: port, sub-port, priority. -/
  | pauseExpiry (port : Nat) (sub : Nat) (pri : Nat)
  /-- SAMPLE_SWEEP (R236): A traffic-manager sweep starts and writes depth and sojourn samples of the selected queues to the sample ring. Operands: partition; was the sweep due before the previous one ended. -/
  | sampleSweep (p : Nat) (late : Bool)
  /-- LANE_FAIL (R35): A front-port lane fails, so its sub-port restarts on fewer lanes or goes down and its queued frames are discarded. Operands: port and sub-port. -/
  | laneFail (port : Nat) (sub : Nat)
  /-- RECORD_ACCEPT (R243): The queue manager accepts a record into a report queue, or refuses it when the queue is full or disabled. Operands: none (the oldest staged record of any writer). -/
  | recordAccept
  /-- APERTURE_READ (R248): A host read that covers byte 0 of RQ_DATA returns the next record in priority order, or IDLE, and advances the cursor. Operands: queue, offset and length of the host read, error met. -/
  | apertureRead (q : Nat) (off : Nat) (len : Nat) (hit : RqHit)
  /-- MARK (R249): Queue command MARK saves the cursor position. Operands: queue. -/
  | rqMark (q : Nat)
  /-- REWIND (R249): Queue command REWIND returns the cursor to the mark. Operands: queue. -/
  | rqRewind (q : Nat)
  /-- RELEASE (R250): Queue command RELEASE frees the cells of records before the mark. Operands: queue. -/
  | rqRelease (q : Nat)
  /-- MARK_RELEASE (R249): Queue command MARK_RELEASE marks and then releases. Operands: queue. -/
  | rqMarkRelease (q : Nat)
  /-- QUEUE_FLUSH (R249): Queue command FLUSH releases every record of the queue. Operands: queue. -/
  | rqFlush (q : Nat)
  /-- CELL_RECLAIM (R252): The island returns report-queue cells that a link error left unreachable to the free list. Operands: none. -/
  | cellReclaim
  /-- INSERT (R82): Granary host command INSERT inserts or updates an entry without drawing a token. Operands: partition, table, KEY_SIZE. -/
  | grnInsert (p : Nat) (ep : Bool) (ksize : Nat)
  /-- DELETE (R82): Granary host command DELETE removes an entry without EOF. Operands: partition, table, KEY_SIZE. -/
  | grnDelete (p : Nat) (ep : Bool) (ksize : Nat)
  /-- READ (R82): Granary host command READ copies an entry image to GRN_ENTRY. Operands: partition, table, KEY_SIZE, parity errors. -/
  | grnRead (p : Nat) (ep : Bool) (ksize : Nat) (par : List ParHit)
  /-- PIN (R82): Granary host command PIN sets PINNED on an entry. Operands: partition, table, KEY_SIZE. -/
  | grnPin (p : Nat) (ep : Bool) (ksize : Nat)
  /-- UNPIN (R82): Granary host command UNPIN clears PINNED on an entry. Operands: partition, table, KEY_SIZE. -/
  | grnUnpin (p : Nat) (ep : Bool) (ksize : Nat)
  /-- FLUSH (R82): Granary host command FLUSH removes every entry of the table, STATIC entries only when asked. Operands: partition, table, STATIC entries too. -/
  | grnFlush (p : Nat) (ep : Bool) (statics : Bool)
  /-- GRN_CFG_WRITE (R84): A write of a Granary table's EN from 0 to 1 starts it empty with full insert and move budgets. Operands: partition, table, value. -/
  | grnCfgWrite (p : Nat) (ep : Bool) (v : Nat)
  /-- GRN_EVICT_SEED_WRITE (R72): A write of GRN_EVICT_SEED reloads the eviction LFSR. Operands: partition, value. -/
  | grnEvictSeedWrite (p : Nat) (v : Nat)
  /-- TM_AQM_SEED_WRITE (R229): A write of TM_AQM_SEED reloads the AQM LFSR. Operands: partition and value. -/
  | tmAqmSeedWrite (p : Nat) (v : Nat)
  /-- POLICER_CFG_WRITE (R226): A write to a policer's configuration sets each of its buckets to full. Operands: partition, policer, word (0 CFG, 1 RATE2, 2 CBS, 3 EBS), value. -/
  | policerCfgWrite (p : Nat) (n : Nat) (word : Nat) (v : Nat)
  /-- SHAPER_CFG_WRITE (R233): A write to a shaper's configuration fills or empties its tokens. Operands: partition, queue or group, its number, word (0 SHAPER, 1 SBURST), value. -/
  | shaperCfgWrite (p : Nat) (group : Bool) (n : Nat) (word : Nat) (v : Nat)
  /-- LOAD (R260): Model command LOAD checks, reserves, fetches, verifies and places a model image into a slot. Operands: does the fetch of the image meet an error (the command is the mailbox's). -/
  | load (fetchBad : Bool)
  /-- ARM (R261): Model command ARM arms a LOADED slot so that new requests are admitted to it. Operands: none (the command is the mailbox's). -/
  | arm
  /-- UNLOAD (R265): Model command UNLOAD returns a LOADED slot to EMPTY. Operands: none (the command is the mailbox's). -/
  | unload
  /-- LIBSTORE (R266): Model command LIBSTORE verifies an image and commits it to a library index. Operands: does the fetch of the image meet an error (the command is the mailbox's). -/
  | libstore (fetchBad : Bool)
  /-- LIBDELETE (R266): Model command LIBDELETE empties a library index. Operands: none (the command is the mailbox's). -/
  | libdelete
  /-- CHAN_OPEN (R267): Model command CHAN_OPEN opens a load-channel session on a sub-port or peer link. Operands: none (the command is the mailbox's). -/
  | chanOpen
  /-- CHAN_CLOSE (R267): Model command CHAN_CLOSE closes a load-channel session and erases its secret. Operands: none (the command is the mailbox's). -/
  | chanClose
  /-- CHUNK_FRAME (R267): A load-channel chunk frame is checked and written to the retained copy, or rejected. Operands: port, sub-port, bytes with FCS, did the RS-FEC fail. -/
  | chunkFrame (port : Nat) (sub : Nat) (bytes : Bytes) (fecBad : Bool)
  /-- CHANNEL_TIMEOUT (R267): A session's timeout passes with chunks missing and the waiting command fails with FETCH. Operands: session. -/
  | channelTimeout (session : Nat)
  /-- SLOT_COMMIT (R262): An armed slot commits once the old slot has no outstanding request, its head is TAKE and it holds no scoreboard entry. Operands: device context number. -/
  | slotCommit (ctx : Nat)
  /-- FORCED_COMMIT (R263): tDRAIN after the arm expires with the old slot short of the request boundary, so the commit is forced. Operands: device context number. -/
  | forcedCommit (ctx : Nat)
  /-- DRAIN_END (R262): Every transfer of a DRAINING slot has returned and the slot returns to EMPTY with FREED. Operands: device context number and slot. -/
  | drainEnd (ctx : Nat) (slot : Nat)
  /-- REQ_MESSAGE (R278): A REQ message reaches its owner, which admits it to its bound context, or is relayed onward. Operands: link and the message's flits. -/
  | reqMessage (l : Nat) (flits : List Bytes)
  /-- RSP_MESSAGE (R281): An RSP message reaches the origin's forward table and goes to the verdict unit, or is dropped. Operands: link and the message's flits. -/
  | rspMessage (l : Nat) (flits : List Bytes)
  /-- HEAD_MESSAGE (R279): A HEAD message is processed by the owner's pipe as a descriptor with FROM_PEER set. Operands: link and the message's flits. -/
  | headMessage (l : Nat) (flits : List Bytes)
  /-- LOAD_MESSAGE (R287): A LOAD message is taken by the load engine as a chunk frame of a session. Operands: link and the message's flits. -/
  | loadMessage (l : Nat) (flits : List Bytes)
  /-- LIVE_MESSAGE (R284): A LIVE message refreshes its source's liveness, checks the ring digest and is relayed once on every other up link. Operands: link and the message's flits. -/
  | liveMessage (l : Nat) (flits : List Bytes)
  /-- LIVE_SEND (R284): Every 10 µs the device sends a LIVE message on every up link. Operands: none. -/
  | liveSend
  /-- PEER_LOST (R284): No LIVE has arrived from a device within tPEER_LOST, so it is declared lost and its FPLY advances. Operands: device ID. -/
  | peerLost (dev : Nat)
  /-- PEER_BACK (R284): A lost device has sent LIVE without a gap for tPEER_STABLE and returns. Operands: device ID. -/
  | peerBack (dev : Nat)
  /-- FWD_EXPIRE (R281): A forward-table entry without an RSP after tFWD_EXPIRE is freed. Operands: partition and forward-table entry. -/
  | fwdExpire (p : Nat) (entry : Nat)
  /-- RETRAIN (R271): Eight replays in 10 µs without progress retrain a peer link, dropping failed lanes or taking it down. Operands: link; at the end of a retraining the lanes that trained. -/
  | retrain (l : Nat) (lanes : Nat)
  /-- PL_LANE_FAIL (R269): A peer-link lane fails and the link restarts on fewer lanes or goes down. Operands: link. -/
  | plLaneFail (l : Nat)
  /-- LINK_UP (R273): A peer link comes up, restarts its credits and compares the neighbour ID for miswiring. Operands: link, working lanes, ID in the neighbour's LIVE. -/
  | linkUp (l : Nat) (lanes : Nat) (neighbour : Nat)
  /-- WINDOW_BOUNDARY (R295): At each 10 µs boundary the power controller measures power, grants tokens and evaluates throttle triggers. Operands: average power of the other rails in 0.1 W, energy of VDD_P0 to VDD_P3 in nJ. -/
  | windowBoundary (pOther : Nat) (eMeas : List Nat)
  /-- STEP_GLIDE_END (R303): A partition's throttle-step change of voltage and TCLK completes. Operands: partition. -/
  | stepGlideEnd (p : Nat)
  /-- PWR_LIMIT_CHANGE (R292): A new PWR_LIMIT pin value is agreed and takes effect on B at the next window boundary. Operands: value of PWR_LIMIT[2:0] on which two samples agree. -/
  | pwrLimitChange (pins : Nat)
  /-- PWR_CAP_WRITE (R293): A write of the host cap changes B at the next window boundary. Operands: value. -/
  | pwrCapWrite (v : Nat)
  /-- DROOP (R304): A droop detector's voltage crossing stretches the partition's TCLK cycles until recovery. Operands: partition. -/
  | droop (p : Nat)
  /-- SENSOR_SAMPLE (R305): Every 10 µs the on-die and tier sensors are sampled, failed sensors marked and group thermal states and trip checked. Operands: readings of the 80 on-die and 128 tier sensors in °C. -/
  | sensorSample (die : List Int) (tier : List Int)
  /-- PWR_FAIL_ASSERT (R308): PWR_FAIL_N is asserted: grants stop, every partition goes to step 7, and the flash manager and Sampler flush. Operands: none. -/
  | pwrFailAssert
  /-- PWR_FAIL_DEASSERT (R308): PWR_FAIL_N is deasserted before power is lost and grants resume. Operands: none. -/
  | pwrFailDeassert
  /-- ENGINE_HANG (R319): A scoreboard entry exceeds FLT_HANG.CMD, or a dispatcher does not issue for tHANG_DISP, and the engine is reset. Operands: logical tile and ENGINE. -/
  | engineHang (l : Nat) (e : Nat)
  /-- PIPE_STEER (R322): A pipe mismatch or hang stops the pipe and steers its ports to the adjacent pipe, which replays the descriptor ring. Operands: pipe. -/
  | pipeSteer (p : Nat)
  /-- PIPE_REPLAY_END (R322): The adopting pipe ends the replay of the failed pipe's ring and the fault is no longer outstanding. Operands: pipe that failed. -/
  | pipeReplayEnd (p : Nat)
  /-- TM_HANG (R312): An eligible queue on an up sub-port has no dequeue for tHANG_TM and the partition is reset. Operands: partition. -/
  | tmHang (p : Nat)
  /-- PAIR_MISMATCH (R323): A self-checking pair mismatches and the faulty copy is cut off, or the partition is reset. Operands: partition, pair (0 verdict unit, 1 traffic manager), the copy whose checkers report an error, if one does. -/
  | pairMismatch (p : Nat) (b : Nat) (copy : Option Nat)
  /-- PLL_LOSS_OF_LOCK (R324): A partition's TCLK PLL loses lock and TCLK switches to the standby PLL. Operands: partition. -/
  | pllLossOfLock (p : Nat)
  /-- ISLAND_VOTE_DISAGREE (R324): A two-of-three vote disagreement outvotes a processor and starts its resynchronisation, or halts the island on a double fault. Operands: processor outvoted. -/
  | islandVoteDisagree (k : Nat)
  /-- ISLAND_RESYNC_END (R324): The outvoted island processor has been reloaded and re-enters the vote. Operands: none. -/
  | islandResyncEnd
  /-- ISLAND_WATCHDOG (R324): The island's hardware watchdog restarts a halted island and starts a chip reset. Operands: none. -/
  | islandWatchdog
  /-- SITE_FAIL (R320): A failed site is fenced and its logical tile is taken over by the spare, or its contexts are remapped. Operands: site, the Sheaf cube that diagnostics identify, replies to it that are discarded. -/
  | siteFail (site : Nat) (cube : Option Nat) (drops : Nat)
  /-- REGION_RESTORE_END (R320): A moved context's SRAM region is restored from the retained copy and it may issue again. Operands: device context number. -/
  | regionRestoreEnd (ctx : Nat)
  /-- LP_CHANNEL_RETIRE (R327): An LPDDR5X channel fails persistently and is retired, with every region re-placed over the remaining channels. Operands: channel. -/
  | lpChannelRetire (ch : Nat)
  /-- ESCALATION_TIMEOUT (R315): A recovery does not complete within its level's bound and escalates to the next level. Operands: level of Table FLT-2 (2 to 4) and engine index or partition. -/
  | escalationTimeout (level : Nat) (unit : Nat)
  /-- ENGINE_RESET (R319): FLT_CMD ENGINE_RESET clears one engine of a site and restarts the contexts that held its entries. Operands: site and ENGINE. -/
  | engineReset (site : Nat) (engine : Nat)
  /-- PART_RESET (R328): FLT_CMD PART_RESET captures and resets a partition and reloads its units and contexts. Operands: partition. -/
  | partReset (p : Nat)
  /-- CHIP_RESET (R328): FLT_CMD CHIP_RESET captures and resets every domain except the island and proceeds as a warm start. Operands: none. -/
  | chipReset
  /-- CAPTURE (R329): FLT_CMD CAPTURE writes a crash capture without a reset. Operands: partition, whole chip. -/
  | capture (p : Nat) (chip : Bool)
  /-- CAPTURE_END (R329): A crash capture ends, or is cut short with TRUNC when its time bound expires. Operands: capture NUMBER and sections written (below 5: cut short). -/
  | captureEnd (num : Nat) (sections : Nat)
  /-- FLASH_READ_COMPLETE (R336): A flash read completes and its codewords are decoded by the retry ladder, marking refresh or failure as needed. Operands: block, page, codeword, bits corrected, ladder step that corrected it (3: none). -/
  | flashReadComplete (blk : Nat) (page : Nat) (cw : Nat) (bitsN : Nat) (step : Nat)
  /-- PROGRAM_COMPLETE (R337): A flash program completes, or fails so that the unit's pages are rewritten elsewhere and the block retired. Operands: block, pages, success. -/
  | programComplete (blk : Nat) (pages : Nat) (ok : Bool)
  /-- ERASE_COMPLETE (R337): A flash erase completes, or fails so that the block is retired. Operands: block, success. -/
  | eraseComplete (blk : Nat) (ok : Bool)
  /-- FLASH_PATROL (R338): The flash patrol reads every valid page once per PATROL days and refreshes blocks as needed. Operands: for each codeword read: block, page, codeword, bits corrected, ladder step. -/
  | flashPatrol (reads : List (Nat × Nat × Nat × Nat × Nat))
  /-- LIFE_COMMIT (R349): Every tLIFE the LIFE counters are committed to flash with a LIFE_SNAP Sampler record. Operands: none. -/
  | lifeCommit
  /-- CAPTURE_COPY (R350): After the warm start ends, the island copies a capture to the next flash capture slot. Operands: none (the oldest capture that waits). -/
  | captureCopy
  /-- LIFE_FETCH (R349): FLS_CMD LIFE_FETCH copies the in-SRAM LIFE image to the staging region. Operands: none. -/
  | lifeFetch
  /-- CAPTURE_FETCH (R350): FLS_CMD CAPTURE_FETCH copies a flash capture slot to the staging region. Operands: flash capture slot. -/
  | captureFetch (slot : Nat)
  /-- PATROL_NOW (R338): FLS_CMD PATROL_NOW starts a flash patrol pass at once. Operands: none. -/
  | patrolNow
  /-- SAMPLER_RECORD (R353): The Sampler accepts a record into its live ring, coalescing an identical event or opening a continuation record. Operands: none (the oldest waiting event). -/
  | samplerRecord
  /-- LOG_PAGE_COMMIT (R355): A log page is committed when full or when its oldest record has waited COMMIT ms. Operands: none. -/
  | logPageCommit
  /-- SAMPLER_READ (R358): A host read of byte 0 of SMP_DATA returns the record at the cursor, or NONE, and advances the cursor. Operands: offset and length of the host read. -/
  | samplerRead (off : Nat) (len : Nat)
  /-- LOG_PAGE_FETCH (R358): A log page fetched from flash for a reader arrives and its records become readable. Operands: did the page fail to decode. -/
  | logPageFetch (bad : Bool)
  /-- SEEK (R358): Cursor command SEEK moves the read cursor to the first record at or after a sequence. Operands: none (the target is SMP_RD_SEQ). -/
  | seek
  /-- OLDEST (R358): Cursor command OLDEST moves the read cursor to the oldest record held. Operands: none. -/
  | oldest
  /-- NEWEST (R358): Cursor command NEWEST moves the read cursor to the newest record. Operands: none. -/
  | newest
  /-- COUNTER_READ (R366): A read of OBS_CNT_LO captures the selected 64-bit counter and latches its high word. Operands: none (the counter is that of OBS_CNT_SEL). -/
  | counterRead
  /-- CLEAR (R366): OBS_CMD CLEAR clears a range of always-on counters in one ACLK cycle. Operands: none (the range is OBS_CLR_RANGE). -/
  | obsClear
  /-- SNAPSHOT (R367): OBS_CMD SNAPSHOT takes one counter snapshot outside the period. Operands: none. -/
  | snapshot
  /-- SNAPSHOT_PERIOD (R367): Every PERIOD ms the counter sampler writes a snapshot of the selected counters, or skips it. Operands: is the previous snapshot still being written. -/
  | snapshotPeriod (busy : Bool)
  /-- WSTORE (R388): Weave command WSTORE checks a full image and stores it in the unused weave slot. Operands: the fetch of the image meets an error. -/
  | wstore (fetchBad : Bool)
  /-- WPATCH (R387): Weave command WPATCH verifies a patch and stages it for its APPLY_AT time. Operands: the fetch of the image meets an error. -/
  | wpatch (fetchBad : Bool)
  /-- WQUERY (R388): Weave command WQUERY returns STATE with both digests. Operands: none. -/
  | wquery
  /-- WCANCEL (R388): Weave command WCANCEL discards a pending patch. Operands: none. -/
  | wcancel
  /-- PATCH_SWITCH (R387): At APPLY_AT the epoch advances and every unit takes the patched fields at its switch point. Operands: none. -/
  | patchSwitch
  /-- DIGEST_GRACE_END (R383): tDIGEST_GRACE after a ring-digest change expires and the previous digest no longer matches. Operands: none. -/
  | digestGraceEnd
  /-- PGOOD_AON_RISE (R437): PGOOD_AON rises and the island leaves reset. Operands: SMB_ADDR. -/
  | pgoodAonRise (straps : Nat)
  /-- PGOOD_MAIN_RISE (R437): PGOOD_MAIN rises and a cold start begins. Operands: none. -/
  | pgoodMainRise
  /-- PGOOD_MAIN_FALL (R438): PGOOD_MAIN falls: main clocks stop, outputs float and the fall counts as a loss of power. Operands: none. -/
  | pgoodMainFall
  /-- START_STAGE_END (R390): A start stage ends and the next stage, or RUNNING, safe start or host-load state, begins. Operands: what the stage finds. -/
  | startStageEnd (found : StageIn)
  /-- STAGE_TIMEOUT (R391): A start stage or the whole start exceeds its bound and the start fails. Operands: the stage has its longer bound. -/
  | stageTimeout (long : Bool)
  /-- ATTEST (R406): Command ATTEST writes a signed attestation report to the exchange buffer. Operands: none. -/
  | attest
  /-- IDENTITY (R405): Command IDENTITY copies the identity block and endorsement to the exchange buffer. Operands: none. -/
  | identity
  /-- ENROL (R403): Command ENROL enrols a customer root into a slot and advances the enrolment epoch. Operands: fuse burns that verify before one fails. -/
  | enrol (burns : Nat)
  /-- REVOKE (R403): Command REVOKE revokes a customer root slot and advances the enrolment epoch. Operands: fuse burns that verify before one fails. -/
  | revoke (burns : Nat)
  /-- FWLOAD (R399): Command FWLOAD verifies firmware from the exchange buffer and runs it. Operands: none. -/
  | fwload
  /-- FWSTORE (R400): Command FWSTORE writes the running firmware to flash. Operands: none. -/
  | fwstore
  /-- SVN_RAISE (R400): Command SVN_RAISE burns FW_SVN_MIN up to the running firmware's SVN. Operands: fuse burns that verify before one fails. -/
  | svnRaise (burns : Nat)
  /-- START (R396): Command START leaves safe start, sets F to 0 and continues the start at stage 0x05. Operands: none. -/
  | start
  /-- RD (R412): Host-port RD performs one read access and returns its data and status, or holds its result. Operands: host address, LEN as sent, command CRC as received, data complete when the latency ends, CS# raised early, what a report-queue read meets, corrected (false) and uncorrectable (true) errors by device address. -/
  | rd (addr : Nat) (len : Nat) (crc : Nat) (ready : Bool) (early : Bool) (hit : RqHit) (meets : List (Nat × Bool))
  /-- WR (R413): Host-port WR writes data through a write buffer, or is discarded with its cause in HP_WSTAT. Operands: host address, LEN as sent, data, CRC as received, CS# raised before the CRC ends, both write buffers occupied. -/
  | wr (addr : Nat) (len : Nat) (data : List Byte) (crc : Nat) (cut : Bool) (full : Bool)
  /-- RDSR (R409): Host-port RDSR returns the status byte. Operands: the access of a held result is complete, a write buffer is free. -/
  | rdsr (complete : Bool) (free : Bool)
  /-- RDID (R409): Host-port RDID returns the identification bytes. Operands: none. -/
  | rdid
  /-- RSTEN (R409): Host-port RSTEN enables a following RST. Operands: none. -/
  | rsten
  /-- RST (R412): Host-port RST resets the port and discards a held read result. Operands: none. -/
  | rst
  /-- MAILBOX_DOORBELL (R417): A write of HP_MBOX_DOORBELL submits the command block to the island mailbox queue, or sets OVERRUN. Operands: none. -/
  | mailboxDoorbell
  /-- UNKNOWN_OP (R417): A mailbox block whose OP belongs to no table completes with STATUS 0xFF. Operands: none. -/
  | unknownOp
  /-- MAILBOX_DONE_READ (R417): A read of HP_MBOX_DONE pops one completion word. Operands: none. -/
  | mailboxDoneRead
  /-- EPOCH_READ (R428): A read of GLB_EPOCH returns the epoch and latches GLB_EPOCH_CAUSE. Operands: none. -/
  | epochRead
  /-- GLOBAL_TIME_READ (R430): A read of GLB_GT_LO captures the Global Time base and latches its high word. Operands: none. -/
  | globalTimeRead
  /-- REGISTER_WRITE (R9): A host write to a register that has no row of its own stores its RW fields or clears its RW1C bits under the field types. Operands: device address, value. -/
  | registerWrite (addr : Nat) (value : Nat)
  /-- TIME_1PPS_EDGE (R442): A valid 1 PPS edge slews or steps Global Time toward the second. Operands: nanoseconds by which Global Time is ahead of the second. -/
  | time1ppsEdge (off : Int)
  /-- SMBUS_READ_WORD (R444): An SMBus Read Word returns a telemetry code with PEC. Operands: 7-bit target address, telemetry code. -/
  | smbusReadWord (addr : Nat) (code : Nat)
  /-- SMBUS_BLOCK_READ (R444): An SMBus Block Read returns the 32-byte telemetry block with PEC. Operands: 7-bit target address, telemetry code. -/
  | smbusBlockRead (addr : Nat) (code : Nat)
  /-- SMBUS_ALERT_RESPONSE (R444): An Alert Response Address read clears SMB_ALERT_N once its cause has ended. Operands: none. -/
  | smbusAlertResponse
  /-- FP_LINK_UP (R33): A front-port sub-port reaches link up and FP_STATUS.LINK sets for it. Operands: port and sub-port. -/
  | fpLinkUp (port : Nat) (sub : Nat)
  /-- FLIT_CRC_ERROR (R270): A flit with a bad CRC or unexpected SEQ is discarded, and the receiver discards later flits and sends NAK until the expected SEQ arrives. Operands: link and flit. -/
  | flitCrcError (l : Nat) (flit : Bytes)
  /-- IDLE_FLIT (R272): An IDLE flit arrives and returns its ACK and its credits to the sender. Operands: link and flit. -/
  | idleFlit (l : Nat) (flit : Bytes)
  /-- STRETCH_END (R304): The partition voltage recovers above threshold plus hysteresis after at least 16 stretched cycles, and TCLK stretching ends. Operands: partition. -/
  | stretchEnd (p : Nat)
  /-- SRAM_PATROL_SCRUB (R312): The tile SRAM patrol scrub reads, corrects and reports SRAM codewords within tSRAM_SCRUB. Operands: site, device addresses of codewords corrected. -/
  | sramPatrolScrub (site : Nat) (ces : List Nat)
  /-- LP_PATROL_SCRUB (R452): The LPDDR5X patrol scrub passes over LPDDR5X every LP_SCRUB.PERIOD hours, correcting errors and zeroing units found uncorrectable in sample and trace regions. Operands: LPDDR5X offsets of the stretch read, device addresses of units corrected. -/
  | lpPatrolScrub (first : Nat) (last : Nat) (ces : List Nat)
  /-- LP_PERIODIC_RETRAIN (R452): The LPDDR5X controller performs a periodic retraining event on a channel and counts it in LP_RETRAIN. Operands: channel. -/
  | lpPeriodicRetrain (ch : Nat)
  /-- TIME_SOURCE_CHANGE (R442): A Global Time source becomes valid or invalid, the island changes source, slews and writes a TIME Sampler record. Operands: validity of TIME_REF, TIME_1PPS_IN and PTP, nanoseconds by which Global Time is ahead of the new source. -/
  | timeSourceChange (ref : Bool) (pps : Bool) (ptp : Bool) (off : Int)
  /-- HOST_PORT_READY (R410): tHP_READY after VDD_AON, VDDIO_18 and the system reference are good, the host port begins accepting transactions. Operands: none. -/
  | hostPortReady
  /-- CELL_POOL_RECLAIM (R326): The island returns packet cells left unreachable by a lost TM link-table or descriptor-ring entry to the free list within 1 ms. Operands: partition. -/
  | cellPoolReclaim (p : Nat)
  /-- PGOOD_AON_FALL (R437): PGOOD_AON falls, the island goes into reset, flash chip enables are held high and open-drain outputs are released. Operands: none. -/
  | pgoodAonFall
  /-- TRACE_QUEUE_DRAIN (R370): The trace writer moves a record from a tile's trace queue to the trace region, releasing a stalled dispatcher or filling the region. Operands: logical tile. -/
  | traceQueueDrain (l : Nat)
  /-- RETENTION_REFRESH (R338): A flash block whose oldest page reaches FLS_AGE.RETAIN days of powered time is refreshed to a free block. Operands: block. -/
  | retentionRefresh (blk : Nat)
deriving DecidableEq, Repr

end Sys2Proof
end

