-- ==== Sys2Proof/Machine/Tab.lean ====
section
/-! DEFINITION. Sparse tables and byte strings: the one home of lookup, update and byte order. -/

namespace Sys2Proof.Machine

variable {α : Type}

/-- The value at key `k`; an unlisted key reads as `d`. -/
def tget (d : α) : Tab α → Nat → α
  | [], _ => d
  | (j, v) :: r, k => if j = k then v else tget d r k

/-- The key is listed. -/
def thas : Tab α → Nat → Bool
  | [], _ => false
  | (j, _) :: r, k => j == k || thas r k

/-- Put `v` at `k`, keeping the keys rising. -/
def tput : Tab α → Nat → α → Tab α
  | [], k, v => [(k, v)]
  | (j, w) :: r, k, v =>
    if k < j then (k, v) :: (j, w) :: r
    else if k = j then (k, v) :: r
    else (j, w) :: tput r k v

/-- Remove key `k`. -/
def tdel : Tab α → Nat → Tab α
  | [], _ => []
  | (j, w) :: r, k => if j = k then tdel r k else (j, w) :: tdel r k

/-- Write `v` at `k`; writing the default removes the entry, so equal tables are equal data. -/
def tset [DecidableEq α] (d : α) (m : Tab α) (k : Nat) (v : α) : Tab α :=
  if v = d then tdel m k else tput m k v

/-- Change the value at `k`. -/
def tmod [DecidableEq α] (d : α) (m : Tab α) (k : Nat) (f : α → α) : Tab α :=
  tset d m k (f (tget d m k))

/-- Every key is above `k`. -/
def tabove (k : Nat) (m : Tab α) : Bool := m.all fun e => decide (k < e.1)

/-- The canonical form: keys strictly rising, no value equal to the default. -/
def twf [DecidableEq α] (d : α) : Tab α → Bool
  | [] => true
  | (j, v) :: r => tabove j r && decide (v ≠ d) && twf d r

/-- Bytes of a number, little-endian, `n` of them (R8). -/
def leBytes : Nat → Nat → Bytes
  | 0, _ => []
  | n + 1, v => BitVec.ofNat 8 v :: leBytes n (v / 256)

/-- The number that little-endian bytes spell (R8). -/
def leNat : Bytes → Nat
  | [] => 0
  | b :: r => b.toNat + 256 * leNat r

/-- The number that big-endian bytes spell. -/
def beNat (l : Bytes) : Nat := l.foldl (fun a b => a * 256 + b.toNat) 0

/-- Bytes of a number, big-endian. -/
def beBytes (n v : Nat) : Bytes := (leBytes n v).reverse

/-- `n` bytes of a table of bytes from address `a` on; an unlisted byte reads 0. -/
def tread (m : Tab Byte) (a : Nat) : Nat → Bytes
  | 0 => []
  | n + 1 => tget 0 m a :: tread m (a + 1) n

/-- Store bytes from address `a` on. -/
def twrite (m : Tab Byte) (a : Nat) : Bytes → Tab Byte
  | [] => m
  | b :: r => twrite (tset 0 m a b) (a + 1) r

/-- Byte `i` of a byte string; 0 beyond its end. -/
def byteAt (l : Bytes) (i : Nat) : Nat := (l.getD i 0).toNat

/-- `n` bytes of `l` from offset `i`, zero-filled. -/
def slice (l : Bytes) (i n : Nat) : Bytes :=
  let t := (l.drop i).take n
  t ++ List.replicate (n - t.length) 0

/-- Little-endian field of `n` bytes at offset `i`. -/
def leAt (l : Bytes) (i n : Nat) : Nat := leNat (slice l i n)

/-- Big-endian field of `n` bytes at offset `i`. -/
def beAt (l : Bytes) (i n : Nat) : Nat := beNat (slice l i n)

/-- Replace bytes of `l` from offset `i` by `v` (within the length of `l`). -/
def splice (l : Bytes) (i : Nat) (v : Bytes) : Bytes :=
  l.take i ++ v ++ l.drop (i + v.length)

/-- Zero-fill to `n` bytes. -/
def padTo (n : Nat) (l : Bytes) : Bytes := l ++ List.replicate (n - l.length) 0

/-- Bits [hi:lo] of a number. -/
def bits (v hi lo : Nat) : Nat := (v >>> lo) % 2 ^ (hi + 1 - lo)

/-- Bit `i` of a number. -/
def bit (v i : Nat) : Bool := v.testBit i

/-- A field value placed at bit `lo`. -/
def fld (v lo : Nat) : Nat := v <<< lo

/-- One bit as a number. -/
def b2n (b : Bool) : Nat := if b then 1 else 0

/-- Ceiling division. -/
def cdiv (a b : Nat) : Nat := (a + b - 1) / b

/-- Replace element `i` of a list. -/
def lset : List α → Nat → α → List α
  | [], _, _ => []
  | _ :: r, 0, v => v :: r
  | a :: r, n + 1, v => a :: lset r n v

/-- The value clamped into `lo ≤ · ≤ hi`. -/
def clampN (lo hi v : Nat) : Nat := if v < lo then lo else if v > hi then hi else v

/-- Two's complement value of the low `w` bits. -/
def toSigned (w v : Nat) : Int :=
  let u := v % 2 ^ w
  if u < 2 ^ (w - 1) then (u : Int) else (u : Int) - (2 ^ w : Nat)

/-- The low `w` bits of an integer. -/
def ofSigned (w : Nat) (v : Int) : Nat := (v % ((2 ^ w : Nat) : Int)).toNat

/-- First index at or after `i` whose element passes. -/
def findIdx1 (p : α → Bool) (l : List α) : Option Nat := l.findIdx? p

end Sys2Proof.Machine
end

