-- ==== Sys2Proof/Machine/Crc.lean ====
section
/-! DEFINITION. The checks and digests: CRC-32C (R66), the CRC-32 of IEEE 802.3 (R36, R270), the SMBus
PEC (R444), the Galois LFSR of R72, and SHAKE256 (R65, R254), which the spec names and FIPS 202 defines. -/

namespace Sys2Proof.Machine

/-- One bit of a reflected 32-bit CRC with the reflected polynomial `poly`. -/
def crcBit (poly c : Word) : Word := if c.getLsbD 0 then (c >>> 1) ^^^ poly else c >>> 1

/-- One byte of a reflected CRC: eight bit steps (R66's listing). -/
def crcByte (poly c : Word) (v : Byte) : Word :=
  (List.range 8).foldl (fun c _ => crcBit poly c) (c ^^^ v.zeroExtend 32)

/-- CRC-32C of a key with a seed, as R66 lists it. -/
def crc32c (seed : Word) (key : Bytes) : Word := key.foldl (crcByte 0x82F63B78#32) seed ^^^ 0xFFFFFFFF#32

/-- The CRC-32 of IEEE 802.3, initial value and final XOR all ones (R270; the FCS of R36). -/
def crc32 (l : Bytes) : Word := l.foldl (crcByte 0xEDB88320#32) 0xFFFFFFFF#32 ^^^ 0xFFFFFFFF#32

/-- One byte of the SMBus packet error code, polynomial x^8 + x^2 + x + 1 (PRESUMED: the SMBus
standard that R444 names, log entry 6). -/
def pecByte (c v : Byte) : Byte :=
  (List.range 8).foldl (fun c _ => if c.getLsbD 7 then (c <<< 1) ^^^ 0x07#8 else c <<< 1) (c ^^^ v)

/-- The PEC over the bytes of an SMBus transfer. -/
def pec (l : Bytes) : Byte := l.foldl pecByte 0

/-- One advance of a Galois LFSR, polynomial x^32 + x^22 + x^2 + x + 1, shifting toward bit 0 (R72). -/
def lfsrNext (s : Word) : Word := if s.getLsbD 0 then (s >>> 1) ^^^ 0x80200003#32 else s >>> 1

/-- A seed of 0 acts as 1 (R72, R229). -/
def lfsrSeed (v : Word) : Word := if v = 0 then 1 else v

/-! ### SHAKE256 (FIPS 202), log entry 6 -/

/-- Lane `i` of a Keccak state of 25 lanes. -/
def kLane (a : List Dword) (i : Nat) : Dword := a.getD i 0

/-- Rotation offsets of rho, lane x + 5y. -/
def kRho : List Nat :=
  [0, 1, 62, 28, 27, 36, 44, 6, 55, 20, 3, 10, 43, 25, 39, 41, 45, 15, 21, 8, 18, 2, 61, 56, 14]

/-- Round constants of iota. -/
def kIota : List Dword :=
  [0x0000000000000001, 0x0000000000008082, 0x800000000000808A, 0x8000000080008000,
   0x000000000000808B, 0x0000000080000001, 0x8000000080008081, 0x8000000000008009,
   0x000000000000008A, 0x0000000000000088, 0x0000000080008009, 0x000000008000000A] ++
  [0x000000008000808B, 0x800000000000008B, 0x8000000000008089, 0x8000000000008003,
   0x8000000000008002, 0x8000000000000080, 0x000000000000800A, 0x800000008000000A,
   0x8000000080008081, 0x8000000000008080, 0x0000000080000001, 0x8000000080008008]

/-- One round: theta, rho, pi, chi, iota. -/
def kRound (a : List Dword) (rc : Dword) : List Dword :=
  let c := (List.range 5).map fun x =>
    kLane a x ^^^ kLane a (x + 5) ^^^ kLane a (x + 10) ^^^ kLane a (x + 15) ^^^ kLane a (x + 20)
  let d := (List.range 5).map fun x => kLane c ((x + 4) % 5) ^^^ (kLane c ((x + 1) % 5)).rotateLeft 1
  let t := (List.range 25).map fun i => (kLane a i ^^^ kLane d (i % 5)).rotateLeft (kRho.getD i 0)
  -- pi: lane (x, y) comes from lane (x + 3y, x)
  let b := (List.range 25).map fun i => kLane t ((i % 5 + 3 * (i / 5)) % 5 + 5 * (i % 5))
  let e := (List.range 25).map fun i =>
    kLane b i ^^^ (~~~ kLane b ((i + 1) % 5 + 5 * (i / 5)) &&& kLane b ((i + 2) % 5 + 5 * (i / 5)))
  match e with
  | [] => []
  | l :: r => (l ^^^ rc) :: r

/-- Keccak-f[1600]. -/
def keccakF (a : List Dword) : List Dword := kIota.foldl kRound a

/-- Absorb one 136-byte block. -/
def kAbsorb (a : List Dword) (blk : Bytes) : List Dword :=
  keccakF ((List.range 25).map fun i =>
    if i < 17 then kLane a i ^^^ BitVec.ofNat 64 (leAt blk (8 * i) 8) else kLane a i)

/-- Absorb `n` blocks of 136 bytes. -/
def kAbsorbAll : Nat → List Dword → Bytes → List Dword
  | 0, a, _ => a
  | n + 1, a, l => kAbsorbAll n (kAbsorb a (l.take 136)) (l.drop 136)

/-- Squeeze `n` blocks of 136 bytes. -/
def kSqueeze : Nat → List Dword → Bytes
  | 0, _ => []
  | n + 1, a =>
    ((List.range 17).flatMap fun i => leBytes 8 (kLane a i).toNat) ++ kSqueeze n (keccakF a)

/-- SHAKE256 with `n` output bytes (FIPS 202: rate 136, domain bits 1111). -/
def shake256 (n : Nat) (msg : Bytes) : Bytes :=
  let q := msg.length / 136 + 1
  let body := msg ++ [0x1F] ++ List.replicate (q * 136 - msg.length - 1) 0
  let last := q * 136 - 1
  let padded := splice body last [BitVec.ofNat 8 (byteAt body last) ^^^ 0x80]
  (kSqueeze (n / 136 + 1) (kAbsorbAll q (List.replicate 25 0) padded)).take n

/-- The 64-byte digests of images (R254, R374). -/
def digest64 (msg : Bytes) : Bytes := shake256 64 msg

end Sys2Proof.Machine
end

