-- ==== Sys2Proof/Config.lean ====
section
/-! DEFINITION. What the spec leaves to the implementation, to a part, or open: opaque constants and
functions, so that nothing can be proved of a value they take. Each is named in the assumption log. -/

namespace Sys2Proof.Config

/-- VX's exponential of an FP32 value: one fixed evaluation per input, not stated (R106; log entry 8). -/
opaque vxExp : Word → Word
/-- The maximum M that an ATTEND writes for a query of an empty history: the query's codes and SOFTMUL (R188; log entry 28). -/
opaque emptyMax : List Int → Nat → Word

/-- VX max (first argument true) or min of operands for which the spec states no result: a NaN, or two
zeros of different signs (R106; log entry 8). -/
opaque vxMaxOpen : Bool → Word → Word → Word
/-- Element of SOFTMAX of an FP32 row: the spec names the function and two passes, not the evaluation (log entry 8). -/
opaque vxSoftmax : List Word → Nat → Word
/-- Element of the layer norm (false) or RMS norm (true) of an FP32 row: the spec names the norm only (log entry 8). -/
opaque vxNorm : Bool → List Word → Nat → Word
/-- LUT of a 256-entry BF16 table: the spec says linear interpolation and not where the entries lie (log entry 8). -/
opaque vxLut : List Half → Half → Half

/-- Does an SLH-DSA-SHAKE-256s signature verify: public key, message, signature (R254, R374, R398,
R403). FIPS 205 defines it; the model leaves it uninterpreted (log entry 7). -/
opaque slhVerify : Bytes → Bytes → Bytes → Bool
/-- SLH-DSA-SHAKE-256f key generation from the 96-byte identity seed: the 64-byte public key (R404). -/
opaque slhPublic : Bytes → Bytes
/-- The 49,856-byte SLH-DSA-SHAKE-256f signature under the key of a seed (R406). -/
opaque slhSign : Bytes → Bytes → Bytes

/-- The 19-node default parse graph that Tabran supplies (R384): bytes of its node records and of its
transition entries; the spec gives neither (log entry 9). -/
opaque defaultParseNode : Nat → Bytes
/-- The transition entries of the default parse graph: VALUE, MASK, NEXT word (log entry 9). -/
opaque defaultTrans : Nat → Nat × Nat × Nat

/-- Key profile 15 of the default parse graph, 48 bytes (R384; log entry 9). -/
opaque defaultKeyProf : Bytes

/-- Structure digest of the built-in default image, 64 bytes: its section bytes are not given (R382, R384; log entry 9). -/
opaque defaultStructure : Bytes

/-- Fused values of a part (R401; log entry 10). -/
opaque dieId : Dword
/-- The unique device secret, 64 bytes (R401). -/
opaque uds : Bytes
/-- The public keys of the two vendor roots (R401). -/
opaque vroot : Nat → Bytes
/-- Blocks of the fitted flash, and the rated endurance of its parameter page (R339): a property of the fitted parts. -/
opaque flashBlocks : Nat
/-- Rated endurance of the fitted flash (R339). -/
opaque flashEndurance : Nat
/-- The sequence that scrambles flash data: page address, place of the byte in the page (R335; log entry 148). -/
opaque flashScramble : Nat → Nat → Byte
/-- The LDPC parity of a codeword's data and metadata (R335; log entry 148). -/
opaque flashParity : Bytes → Bytes
/-- The fused code of the voltage of a throttle step and grade (R301). -/
opaque stepFuse : Nat → Nat → Nat

/-- A free value: the `n`-th value the spec leaves open at run time, `w` bits (log entry 11). -/
opaque freeBits : (w : Nat) → Nat → BitVec w

end Sys2Proof.Config
end

