-- ==== Sys2Proof/Machine/RegMap.lean ====
section
/-! DEFINITION. The register map: every register of the device with its offset, its reset value and the
types of its fields (R9, R11, R421, R424, R426 and the register tables of each chapter). -/

namespace Sys2Proof.Machine

/-- A row of the map: registers `off + i × stride` (i < n) of a block; the value after reset; the bits of
type RW and RW1C and RC; whether the weave image sets it, whether it is a live field, whether it keeps its
value across a chip reset. Every other bit is RO, WO or reserved: a write leaves it. -/
structure RegRow where
  off : Nat
  n : Nat
  stride : Nat
  reset : Nat
  rw : Nat
  w1c : Nat
  rc : Nat
  weave : Bool
  live : Bool
  keep : Bool
deriving DecidableEq, Repr

/-- A register block of Table GLB-1 to GLB-3. -/
inductive Block where
  | fp
  | pipe
  | grn
  | bind
  | vd
  | tm
  | til
  | shf
  | thr
  | bt
  | rq
  | pl
  | pll
  | pwr
  | flt
  | fls
  | smp
  | obs
  | hp
  | glb
  | lp
deriving DecidableEq, Repr

/-- Address of offset `o` of the FP block of instance `n`. -/
def fpA (n : Nat) (o : Nat) : Nat := 0x700000 + n * 0x1000 + o
/-- Address of offset `o` of the PIPE block of instance `p`. -/
def pipeA (p : Nat) (o : Nat) : Nat := 0x10000000 + p * 0x1000000 + o
/-- Address of offset `o` of the GRN block of instance `p`. -/
def grnA (p : Nat) (o : Nat) : Nat := 0x10100000 + p * 0x1000000 + o
/-- Address of offset `o` of the BIND block of instance `p`. -/
def bindA (p : Nat) (o : Nat) : Nat := 0x10200000 + p * 0x1000000 + o
/-- Address of offset `o` of the VD block of instance `p`. -/
def vdA (p : Nat) (o : Nat) : Nat := 0x10300000 + p * 0x1000000 + o
/-- Address of offset `o` of the TM block of instance `p`. -/
def tmA (p : Nat) (o : Nat) : Nat := 0x10400000 + p * 0x1000000 + o
/-- Address of offset `o` of the TIL block of instance `s`. -/
def tilA (s : Nat) (o : Nat) : Nat := 0x20000000 + s * 0x100000 + o
/-- Address of offset `o` of the SHF block of instance `s`. -/
def shfA (s : Nat) (o : Nat) : Nat := 0x20001000 + s * 0x100000 + o
/-- Address of offset `o` of the THR block of instance `s`. -/
def thrA (s : Nat) (o : Nat) : Nat := 0x20002000 + s * 0x100000 + o
/-- Address of offset `o` of the BT block. -/
def btA (o : Nat) : Nat := 0x800000 + o
/-- Address of offset `o` of the RQ block. -/
def rqA (o : Nat) : Nat := 0x900000 + o
/-- Address of offset `o` of the PL block. -/
def plA (o : Nat) : Nat := 0x600000 + o
/-- Address of offset `o` of the PLL block of instance `l`. -/
def plLinkA (l : Nat) (o : Nat) : Nat := 0x601000 + l * 0x1000 + o
/-- Address of offset `o` of the PWR block. -/
def pwrA (o : Nat) : Nat := 0x200000 + o
/-- Address of offset `o` of the FLT block. -/
def fltA (o : Nat) : Nat := 0x300000 + o
/-- Address of offset `o` of the FLS block. -/
def flsA (o : Nat) : Nat := 0x400000 + o
/-- Address of offset `o` of the SMP block. -/
def smpA (o : Nat) : Nat := 0x408000 + o
/-- Address of offset `o` of the OBS block. -/
def obsA (o : Nat) : Nat := 0x500000 + o
/-- Address of offset `o` of the HP block. -/
def hpA (o : Nat) : Nat := 0x100000 + o
/-- Address of offset `o` of the GLB block. -/
def glbA (o : Nat) : Nat := 0 + o
/-- Address of offset `o` of the LP block. -/
def lpA (o : Nat) : Nat := 0xA00000 + o

/-- FP_CFG. -/
abbrev rFP_CFG (n : Nat) : Nat := fpA n 0x0
/-- FP_STATUS. -/
abbrev rFP_STATUS (n : Nat) : Nat := fpA n 0x4
/-- FP_CLASS. -/
abbrev rFP_CLASS (n : Nat) : Nat := fpA n 0x8
/-- FP_RX_FRAMES. -/
abbrev rFP_RX_FRAMES (n : Nat) : Nat := fpA n 0x10
/-- FP_RX_FCS_ERR. -/
abbrev rFP_RX_FCS_ERR (n : Nat) : Nat := fpA n 0x14
/-- FP_RX_FEC_UNCORR. -/
abbrev rFP_RX_FEC_UNCORR (n : Nat) : Nat := fpA n 0x18
/-- FP_RX_SIZE_ERR. -/
abbrev rFP_RX_SIZE_ERR (n : Nat) : Nat := fpA n 0x1c
/-- FP_PFC_RX. -/
abbrev rFP_PFC_RX (n : Nat) (i : Nat) : Nat := fpA n (0x20 + i * 4)
/-- PIPE_CTRL. -/
abbrev rPIPE_CTRL (p : Nat) : Nat := pipeA p 0x0
/-- PIPE_STATUS. -/
abbrev rPIPE_STATUS (p : Nat) : Nat := pipeA p 0x4
/-- PIPE_BYPASS_FRAMES. -/
abbrev rPIPE_BYPASS_FRAMES (p : Nat) : Nat := pipeA p 0x10
/-- PIPE_PARSE_ERR. -/
abbrev rPIPE_PARSE_ERR (p : Nat) : Nat := pipeA p 0x14
/-- PIPE_RECIRC. -/
abbrev rPIPE_RECIRC (p : Nat) : Nat := pipeA p 0x18
/-- PIPE_HEAD_FETCH. -/
abbrev rPIPE_HEAD_FETCH (p : Nat) : Nat := pipeA p 0x1c
/-- PIPE_SAMPLED_OUT. -/
abbrev rPIPE_SAMPLED_OUT (p : Nat) : Nat := pipeA p 0x20
/-- PIPE_TICK_SKIP. -/
abbrev rPIPE_TICK_SKIP (p : Nat) : Nat := pipeA p 0x24
/-- GRN_FLOW_CFG. -/
abbrev rGRN_FLOW_CFG (p : Nat) : Nat := grnA p 0x0
/-- GRN_EP_CFG. -/
abbrev rGRN_EP_CFG (p : Nat) : Nat := grnA p 0x4
/-- GRN_FLOW_AGE. -/
abbrev rGRN_FLOW_AGE (p : Nat) : Nat := grnA p 0x8
/-- GRN_EP_AGE. -/
abbrev rGRN_EP_AGE (p : Nat) : Nat := grnA p 0xc
/-- GRN_FLOW_SEED. -/
abbrev rGRN_FLOW_SEED (p : Nat) (i : Nat) : Nat := grnA p (0x10 + i * 4)
/-- GRN_EP_SEED. -/
abbrev rGRN_EP_SEED (p : Nat) (i : Nat) : Nat := grnA p (0x20 + i * 4)
/-- GRN_EP_MAP. -/
abbrev rGRN_EP_MAP (p : Nat) (i : Nat) : Nat := grnA p (0x30 + i * 4)
/-- GRN_MOVE. -/
abbrev rGRN_MOVE (p : Nat) : Nat := grnA p 0x38
/-- GRN_INSERT. -/
abbrev rGRN_INSERT (p : Nat) : Nat := grnA p 0x3c
/-- GRN_SCAN. -/
abbrev rGRN_SCAN (p : Nat) : Nat := grnA p 0x40
/-- GRN_EVICT_SEED. -/
abbrev rGRN_EVICT_SEED (p : Nat) : Nat := grnA p 0x44
/-- GRN_FLOW_COUNT. -/
abbrev rGRN_FLOW_COUNT (p : Nat) : Nat := grnA p 0x48
/-- GRN_EP_COUNT. -/
abbrev rGRN_EP_COUNT (p : Nat) : Nat := grnA p 0x4c
/-- GRN_INSERT_DEFER. -/
abbrev rGRN_INSERT_DEFER (p : Nat) : Nat := grnA p 0x50
/-- GRN_INSERT_FAIL. -/
abbrev rGRN_INSERT_FAIL (p : Nat) : Nat := grnA p 0x54
/-- GRN_EVICT. -/
abbrev rGRN_EVICT (p : Nat) : Nat := grnA p 0x58
/-- GRN_AGED. -/
abbrev rGRN_AGED (p : Nat) : Nat := grnA p 0x5c
/-- GRN_LATE_EXPIRE. -/
abbrev rGRN_LATE_EXPIRE (p : Nat) : Nat := grnA p 0x60
/-- GRN_PARITY. -/
abbrev rGRN_PARITY (p : Nat) : Nat := grnA p 0x64
/-- GRN_MOVES. -/
abbrev rGRN_MOVES (p : Nat) : Nat := grnA p 0x68
/-- GRN_MOVE_SUPPRESS. -/
abbrev rGRN_MOVE_SUPPRESS (p : Nat) : Nat := grnA p 0x6c
/-- GRN_CMD. -/
abbrev rGRN_CMD (p : Nat) : Nat := grnA p 0x80
/-- GRN_CMD_STATUS. -/
abbrev rGRN_CMD_STATUS (p : Nat) : Nat := grnA p 0x84
/-- GRN_KEY. -/
abbrev rGRN_KEY (p : Nat) (i : Nat) : Nat := grnA p (0x100 + i * 4)
/-- GRN_ENTRY. -/
abbrev rGRN_ENTRY (p : Nat) (i : Nat) : Nat := grnA p (0x140 + i * 4)
/-- TIL_BIND. -/
abbrev rTIL_BIND (p : Nat) (i : Nat) : Nat := bindA p (0x0 + i * 4)
/-- TIL_UNBOUND. -/
abbrev rTIL_UNBOUND (p : Nat) : Nat := bindA p 0x400
/-- VD_CFG. -/
abbrev rVD_CFG (p : Nat) : Nat := vdA p 0x0
/-- VD_TAG. -/
abbrev rVD_TAG (p : Nat) : Nat := vdA p 0x4
/-- VD_LEDGER. -/
abbrev rVD_LEDGER (p : Nat) : Nat := vdA p 0x8
/-- VD_LEDGER_USED. -/
abbrev rVD_LEDGER_USED (p : Nat) : Nat := vdA p 0xc
/-- VD_SAMPLE. -/
abbrev rVD_SAMPLE (p : Nat) : Nat := vdA p 0x10
/-- VD_CTX_SEL. -/
abbrev rVD_CTX_SEL (p : Nat) : Nat := vdA p 0x14
/-- VD_CTX_SAMPLE. -/
abbrev rVD_CTX_SAMPLE (p : Nat) : Nat := vdA p 0x18
/-- VD_ACT_SEL. -/
abbrev rVD_ACT_SEL (p : Nat) : Nat := vdA p 0x20
/-- VD_ACT. -/
abbrev rVD_ACT (p : Nat) (i : Nat) : Nat := vdA p (0x24 + i * 4)
/-- VD_MIRROR. -/
abbrev rVD_MIRROR (p : Nat) (i : Nat) : Nat := vdA p (0x40 + i * 4)
/-- VD_CAP_BASE. -/
abbrev rVD_CAP_BASE (p : Nat) : Nat := vdA p 0x80
/-- VD_CAP_SIZE. -/
abbrev rVD_CAP_SIZE (p : Nat) : Nat := vdA p 0x84
/-- VD_CAP_WR. -/
abbrev rVD_CAP_WR (p : Nat) : Nat := vdA p 0x88
/-- VD_CAP_CFG. -/
abbrev rVD_CAP_CFG (p : Nat) : Nat := vdA p 0x8c
/-- VD_CNT_SEL. -/
abbrev rVD_CNT_SEL (p : Nat) : Nat := vdA p 0x90
/-- VD_CNT_FRAMES. -/
abbrev rVD_CNT_FRAMES (p : Nat) : Nat := vdA p 0x94
/-- VD_CNT_BYTES_LO. -/
abbrev rVD_CNT_BYTES_LO (p : Nat) : Nat := vdA p 0x98
/-- VD_CNT_BYTES_HI. -/
abbrev rVD_CNT_BYTES_HI (p : Nat) : Nat := vdA p 0x9c
/-- VD_VERDICTS. -/
abbrev rVD_VERDICTS (p : Nat) : Nat := vdA p 0x100
/-- VD_LATE_DEFAULT. -/
abbrev rVD_LATE_DEFAULT (p : Nat) : Nat := vdA p 0x104
/-- VD_UNPICKS. -/
abbrev rVD_UNPICKS (p : Nat) : Nat := vdA p 0x108
/-- VD_CONFIRMS. -/
abbrev rVD_CONFIRMS (p : Nat) : Nat := vdA p 0x10c
/-- VD_STOOD. -/
abbrev rVD_STOOD (p : Nat) : Nat := vdA p 0x110
/-- VD_LEDGER_FULL. -/
abbrev rVD_LEDGER_FULL (p : Nat) : Nat := vdA p 0x114
/-- VD_DROP_WITHHELD. -/
abbrev rVD_DROP_WITHHELD (p : Nat) : Nat := vdA p 0x118
/-- VD_TAG_SKIP. -/
abbrev rVD_TAG_SKIP (p : Nat) : Nat := vdA p 0x11c
/-- VD_CAP_DROP. -/
abbrev rVD_CAP_DROP (p : Nat) : Nat := vdA p 0x120
/-- VD_SAMPLED. -/
abbrev rVD_SAMPLED (p : Nat) : Nat := vdA p 0x124
/-- VD_NAN. -/
abbrev rVD_NAN (p : Nat) : Nat := vdA p 0x128
/-- TM_POOL. -/
abbrev rTM_POOL (p : Nat) : Nat := tmA p 0x0
/-- TM_POOL_FREE. -/
abbrev rTM_POOL_FREE (p : Nat) : Nat := tmA p 0x4
/-- TM_POOL_CFG. -/
abbrev rTM_POOL_CFG (p : Nat) : Nat := tmA p 0x8
/-- TM_PORT_CFG. -/
abbrev rTM_PORT_CFG (p : Nat) (i : Nat) : Nat := tmA p (0x10 + i * 4)
/-- TM_ECN_CLS. -/
abbrev rTM_ECN_CLS (p : Nat) : Nat := tmA p 0x20
/-- TM_AQM_SEED. -/
abbrev rTM_AQM_SEED (p : Nat) : Nat := tmA p 0x24
/-- TM_SAMPLE. -/
abbrev rTM_SAMPLE (p : Nat) : Nat := tmA p 0x30
/-- TM_SAMPLE_RANGE. -/
abbrev rTM_SAMPLE_RANGE (p : Nat) : Nat := tmA p 0x34
/-- TM_SRING_BASE. -/
abbrev rTM_SRING_BASE (p : Nat) : Nat := tmA p 0x38
/-- TM_SRING_SIZE. -/
abbrev rTM_SRING_SIZE (p : Nat) : Nat := tmA p 0x3c
/-- TM_SRING_WR. -/
abbrev rTM_SRING_WR (p : Nat) : Nat := tmA p 0x40
/-- TM_Q_SEL. -/
abbrev rTM_Q_SEL (p : Nat) : Nat := tmA p 0x80
/-- TM_Q_CFG. -/
abbrev rTM_Q_CFG (p : Nat) : Nat := tmA p 0x84
/-- TM_Q_LIMIT. -/
abbrev rTM_Q_LIMIT (p : Nat) : Nat := tmA p 0x88
/-- TM_Q_SHAPER. -/
abbrev rTM_Q_SHAPER (p : Nat) : Nat := tmA p 0x8c
/-- TM_Q_SBURST. -/
abbrev rTM_Q_SBURST (p : Nat) : Nat := tmA p 0x90
/-- TM_Q_STATUS. -/
abbrev rTM_Q_STATUS (p : Nat) : Nat := tmA p 0x94
/-- TM_Q_BYTES. -/
abbrev rTM_Q_BYTES (p : Nat) : Nat := tmA p 0x98
/-- TM_Q_SOJOURN. -/
abbrev rTM_Q_SOJOURN (p : Nat) : Nat := tmA p 0x9c
/-- TM_Q_DROPS. -/
abbrev rTM_Q_DROPS (p : Nat) : Nat := tmA p 0xa0
/-- TM_G_SEL. -/
abbrev rTM_G_SEL (p : Nat) : Nat := tmA p 0xc0
/-- TM_G_CFG. -/
abbrev rTM_G_CFG (p : Nat) : Nat := tmA p 0xc4
/-- TM_G_SHAPER. -/
abbrev rTM_G_SHAPER (p : Nat) : Nat := tmA p 0xc8
/-- TM_G_SBURST. -/
abbrev rTM_G_SBURST (p : Nat) : Nat := tmA p 0xcc
/-- TM_POL_SEL. -/
abbrev rTM_POL_SEL (p : Nat) : Nat := tmA p 0x100
/-- TM_POL_CFG. -/
abbrev rTM_POL_CFG (p : Nat) : Nat := tmA p 0x104
/-- TM_POL_RATE2. -/
abbrev rTM_POL_RATE2 (p : Nat) : Nat := tmA p 0x108
/-- TM_POL_CBS. -/
abbrev rTM_POL_CBS (p : Nat) : Nat := tmA p 0x10c
/-- TM_POL_EBS. -/
abbrev rTM_POL_EBS (p : Nat) : Nat := tmA p 0x110
/-- TM_POL_TC. -/
abbrev rTM_POL_TC (p : Nat) : Nat := tmA p 0x114
/-- TM_POL_TE. -/
abbrev rTM_POL_TE (p : Nat) : Nat := tmA p 0x118
/-- TM_AQM_A. -/
abbrev rTM_AQM_A (p : Nat) (i : Nat) : Nat := tmA p (0x200 + i * 4)
/-- TM_AQM_B. -/
abbrev rTM_AQM_B (p : Nat) (i : Nat) : Nat := tmA p (0x280 + i * 4)
/-- TM_QCMAP. -/
abbrev rTM_QCMAP (p : Nat) (i : Nat) : Nat := tmA p (0x300 + i * 4)
/-- TM_CMAP. -/
abbrev rTM_CMAP (p : Nat) (i : Nat) : Nat := tmA p (0x700 + i * 4)
/-- TM_DROP_INGRESS. -/
abbrev rTM_DROP_INGRESS (p : Nat) : Nat := tmA p 0x800
/-- TM_DROP_VERDICT. -/
abbrev rTM_DROP_VERDICT (p : Nat) : Nat := tmA p 0x804
/-- TM_DROP_POLICE. -/
abbrev rTM_DROP_POLICE (p : Nat) : Nat := tmA p 0x808
/-- TM_RED_WITHHELD. -/
abbrev rTM_RED_WITHHELD (p : Nat) : Nat := tmA p 0x80c
/-- TM_DROP_LIMIT. -/
abbrev rTM_DROP_LIMIT (p : Nat) : Nat := tmA p 0x810
/-- TM_DROP_WRED. -/
abbrev rTM_DROP_WRED (p : Nat) : Nat := tmA p 0x814
/-- TM_DROP_LINK. -/
abbrev rTM_DROP_LINK (p : Nat) : Nat := tmA p 0x818
/-- TM_ECN_MARK. -/
abbrev rTM_ECN_MARK (p : Nat) : Nat := tmA p 0x81c
/-- TM_MARK_NOT_ECT. -/
abbrev rTM_MARK_NOT_ECT (p : Nat) : Nat := tmA p 0x820
/-- TM_PFC_RELAYED. -/
abbrev rTM_PFC_RELAYED (p : Nat) : Nat := tmA p 0x824
/-- TM_SAMPLE_LATE. -/
abbrev rTM_SAMPLE_LATE (p : Nat) : Nat := tmA p 0x828
/-- TM_SRING_DROP. -/
abbrev rTM_SRING_DROP (p : Nat) : Nat := tmA p 0x82c
/-- TM_DEQ_FRAMES. -/
abbrev rTM_DEQ_FRAMES (p : Nat) : Nat := tmA p 0x830
/-- TIL_ID. -/
abbrev rTIL_ID (s : Nat) : Nat := tilA s 0x0
/-- TIL_STATUS. -/
abbrev rTIL_STATUS (s : Nat) : Nat := tilA s 0x4
/-- TIL_CTX_SEL. -/
abbrev rTIL_CTX_SEL (s : Nat) : Nat := tilA s 0x10
/-- TIL_CTX_CMD. -/
abbrev rTIL_CTX_CMD (s : Nat) : Nat := tilA s 0x14
/-- TIL_CTX_STATUS. -/
abbrev rTIL_CTX_STATUS (s : Nat) : Nat := tilA s 0x18
/-- TIL_CTX_CFG. -/
abbrev rTIL_CTX_CFG (s : Nat) : Nat := tilA s 0x1c
/-- TIL_CTX_BOUND. -/
abbrev rTIL_CTX_BOUND (s : Nat) : Nat := tilA s 0x20
/-- TIL_CTX_DEFAULT. -/
abbrev rTIL_CTX_DEFAULT (s : Nat) : Nat := tilA s 0x24
/-- TIL_KNOT_SEL. -/
abbrev rTIL_KNOT_SEL (s : Nat) : Nat := tilA s 0x28
/-- TIL_KNOT_VAL. -/
abbrev rTIL_KNOT_VAL (s : Nat) : Nat := tilA s 0x2c
/-- TIL_PLY_DROP. -/
abbrev rTIL_PLY_DROP (s : Nat) : Nat := tilA s 0x40
/-- TIL_REFUSED. -/
abbrev rTIL_REFUSED (s : Nat) : Nat := tilA s 0x44
/-- TIL_REQ_Q_FULL. -/
abbrev rTIL_REQ_Q_FULL (s : Nat) : Nat := tilA s 0x48
/-- TIL_CTX_FAULTS. -/
abbrev rTIL_CTX_FAULTS (s : Nat) : Nat := tilA s 0x4c
/-- TIL_QUIESCE_PURGE. -/
abbrev rTIL_QUIESCE_PURGE (s : Nat) : Nat := tilA s 0x50
/-- TIL_ISSUED. -/
abbrev rTIL_ISSUED (s : Nat) : Nat := tilA s 0x54
/-- SHF_STATUS. -/
abbrev rSHF_STATUS (s : Nat) : Nat := shfA s 0x0
/-- SHF_REPAIR. -/
abbrev rSHF_REPAIR (s : Nat) : Nat := shfA s 0x4
/-- SHF_LATENCY. -/
abbrev rSHF_LATENCY (s : Nat) : Nat := shfA s 0x8
/-- SHF_CMDS. -/
abbrev rSHF_CMDS (s : Nat) : Nat := shfA s 0x10
/-- SHF_STEPS. -/
abbrev rSHF_STEPS (s : Nat) : Nat := shfA s 0x14
/-- SHF_ACC_SAT. -/
abbrev rSHF_ACC_SAT (s : Nat) : Nat := shfA s 0x18
/-- SHF_RESIDUE_ERR. -/
abbrev rSHF_RESIDUE_ERR (s : Nat) : Nat := shfA s 0x1c
/-- SHF_RETRY. -/
abbrev rSHF_RETRY (s : Nat) : Nat := shfA s 0x20
/-- THR_STATUS. -/
abbrev rTHR_STATUS (s : Nat) : Nat := thrA s 0x0
/-- THR_CMDS. -/
abbrev rTHR_CMDS (s : Nat) : Nat := thrA s 0x10
/-- THR_EVALS. -/
abbrev rTHR_EVALS (s : Nat) : Nat := thrA s 0x14
/-- THR_NAN. -/
abbrev rTHR_NAN (s : Nat) : Nat := thrA s 0x18
/-- THR_FEAT_RANGE. -/
abbrev rTHR_FEAT_RANGE (s : Nat) : Nat := thrA s 0x1c
/-- THR_CHECK_ERR. -/
abbrev rTHR_CHECK_ERR (s : Nat) : Nat := thrA s 0x20
/-- THR_RETRY. -/
abbrev rTHR_RETRY (s : Nat) : Nat := thrA s 0x24
/-- THR_PASSES. -/
abbrev rTHR_PASSES (s : Nat) : Nat := thrA s 0x28
/-- THR_PASS_SAMPLES. -/
abbrev rTHR_PASS_SAMPLES (s : Nat) : Nat := thrA s 0x2c
/-- BT_CFG. -/
abbrev rBT_CFG : Nat := btA 0x0
/-- BT_HIST. -/
abbrev rBT_HIST : Nat := btA 0x4
/-- BT_THERM. -/
abbrev rBT_THERM : Nat := btA 0x8
/-- BT_ACT. -/
abbrev rBT_ACT : Nat := btA 0xc
/-- BT_SCRUB. -/
abbrev rBT_SCRUB : Nat := btA 0x10
/-- BT_GROUP_SEL. -/
abbrev rBT_GROUP_SEL : Nat := btA 0x20
/-- BT_GROUP_STATUS. -/
abbrev rBT_GROUP_STATUS : Nat := btA 0x24
/-- BT_CE. -/
abbrev rBT_CE : Nat := btA 0x40
/-- BT_UE. -/
abbrev rBT_UE : Nat := btA 0x44
/-- BT_BSE_CHECK. -/
abbrev rBT_BSE_CHECK : Nat := btA 0x48
/-- BT_BSE_RETRY. -/
abbrev rBT_BSE_RETRY : Nat := btA 0x4c
/-- BT_RETIRED. -/
abbrev rBT_RETIRED : Nat := btA 0x50
/-- BT_ACT_WAIT. -/
abbrev rBT_ACT_WAIT : Nat := btA 0x54
/-- BT_LG_MIGRATE. -/
abbrev rBT_LG_MIGRATE : Nat := btA 0x58
/-- BT_BAD_OPC. -/
abbrev rBT_BAD_OPC : Nat := btA 0x5c
/-- BT_SPILL_BYTES. -/
abbrev rBT_SPILL_BYTES : Nat := btA 0x60
/-- BT_BANK_MAP. -/
abbrev rBT_BANK_MAP (i : Nat) : Nat := btA (0x100 + i * 4)
/-- RQ_BASE. -/
abbrev rRQ_BASE : Nat := rqA 0x0
/-- RQ_POOL_FREE. -/
abbrev rRQ_POOL_FREE : Nat := rqA 0x4
/-- RQ_ALERT_LO. -/
abbrev rRQ_ALERT_LO : Nat := rqA 0x8
/-- RQ_ALERT_HI. -/
abbrev rRQ_ALERT_HI : Nat := rqA 0xc
/-- RQ_OVERRUN_LO. -/
abbrev rRQ_OVERRUN_LO : Nat := rqA 0x10
/-- RQ_OVERRUN_HI. -/
abbrev rRQ_OVERRUN_HI : Nat := rqA 0x14
/-- RQ_SEL. -/
abbrev rRQ_SEL : Nat := rqA 0x20
/-- RQ_Q_CFG. -/
abbrev rRQ_Q_CFG : Nat := rqA 0x24
/-- RQ_Q_MIN. -/
abbrev rRQ_Q_MIN : Nat := rqA 0x28
/-- RQ_Q_LIMIT. -/
abbrev rRQ_Q_LIMIT : Nat := rqA 0x2c
/-- RQ_Q_STATUS. -/
abbrev rRQ_Q_STATUS : Nat := rqA 0x30
/-- RQ_Q_UNREAD. -/
abbrev rRQ_Q_UNREAD : Nat := rqA 0x34
/-- RQ_Q_SEQ. -/
abbrev rRQ_Q_SEQ : Nat := rqA 0x38
/-- RQ_CMD. -/
abbrev rRQ_CMD : Nat := rqA 0x40
/-- RQ_CMD_STATUS. -/
abbrev rRQ_CMD_STATUS : Nat := rqA 0x44
/-- RQ_WRITES. -/
abbrev rRQ_WRITES : Nat := rqA 0x80
/-- RQ_REFUSED. -/
abbrev rRQ_REFUSED : Nat := rqA 0x84
/-- RQ_STAGE_DROP. -/
abbrev rRQ_STAGE_DROP : Nat := rqA 0x88
/-- RQ_IDLE_READS. -/
abbrev rRQ_IDLE_READS : Nat := rqA 0x8c
/-- RQ_UE. -/
abbrev rRQ_UE : Nat := rqA 0x90
/-- RQ_LOST. -/
abbrev rRQ_LOST : Nat := rqA 0x94
/-- PL_CFG. -/
abbrev rPL_CFG : Nat := plA 0x0
/-- PL_OWN_SEED. -/
abbrev rPL_OWN_SEED : Nat := plA 0x4
/-- PL_FWDQ. -/
abbrev rPL_FWDQ : Nat := plA 0x8
/-- PL_LIVE_LO. -/
abbrev rPL_LIVE_LO : Nat := plA 0x10
/-- PL_LIVE_HI. -/
abbrev rPL_LIVE_HI : Nat := plA 0x14
/-- PL_FWD_REQ. -/
abbrev rPL_FWD_REQ : Nat := plA 0x40
/-- PL_FWD_HEAD. -/
abbrev rPL_FWD_HEAD : Nat := plA 0x44
/-- PL_HEAD_SKIP. -/
abbrev rPL_HEAD_SKIP : Nat := plA 0x48
/-- PL_FWD_FULL. -/
abbrev rPL_FWD_FULL : Nat := plA 0x4c
/-- PL_FWD_EXPIRE. -/
abbrev rPL_FWD_EXPIRE : Nat := plA 0x50
/-- PL_PLY_DROP. -/
abbrev rPL_PLY_DROP : Nat := plA 0x54
/-- PL_RELAY. -/
abbrev rPL_RELAY : Nat := plA 0x58
/-- PL_UNROUTABLE. -/
abbrev rPL_UNROUTABLE : Nat := plA 0x5c
/-- PL_DUP. -/
abbrev rPL_DUP : Nat := plA 0x60
/-- PL_FWD. -/
abbrev rPL_FWD (i : Nat) : Nat := plA (0x400 + i * 4)
/-- PL_OWNER. -/
abbrev rPL_OWNER (i : Nat) : Nat := plA (0x800 + i * 4)
/-- PL_L_STATUS. -/
abbrev rPL_L_STATUS (l : Nat) : Nat := plLinkA l 0x0
/-- PL_L_CRC_ERR. -/
abbrev rPL_L_CRC_ERR (l : Nat) : Nat := plLinkA l 0x10
/-- PL_L_REPLAY. -/
abbrev rPL_L_REPLAY (l : Nat) : Nat := plLinkA l 0x14
/-- PL_L_RETRAIN. -/
abbrev rPL_L_RETRAIN (l : Nat) : Nat := plLinkA l 0x18
/-- PL_L_TX_FLITS. -/
abbrev rPL_L_TX_FLITS (l : Nat) : Nat := plLinkA l 0x1c
/-- PL_L_RX_FLITS. -/
abbrev rPL_L_RX_FLITS (l : Nat) : Nat := plLinkA l 0x20
/-- PWR_CAP. -/
abbrev rPWR_CAP : Nat := pwrA 0x0
/-- PWR_STATUS. -/
abbrev rPWR_STATUS : Nat := pwrA 0x4
/-- PWR_POWER. -/
abbrev rPWR_POWER : Nat := pwrA 0x8
/-- PWR_OTHER. -/
abbrev rPWR_OTHER : Nat := pwrA 0xc
/-- PWR_GUARD. -/
abbrev rPWR_GUARD : Nat := pwrA 0x10
/-- PWR_WEIGHT. -/
abbrev rPWR_WEIGHT : Nat := pwrA 0x14
/-- PWR_FLOOR. -/
abbrev rPWR_FLOOR : Nat := pwrA 0x18
/-- PWR_THERM. -/
abbrev rPWR_THERM : Nat := pwrA 0x1c
/-- PWR_DROOP. -/
abbrev rPWR_DROOP : Nat := pwrA 0x20
/-- PWR_RQ. -/
abbrev rPWR_RQ : Nat := pwrA 0x24
/-- PWR_ECOST0. -/
abbrev rPWR_ECOST0 : Nat := pwrA 0x40
/-- PWR_ECOST1. -/
abbrev rPWR_ECOST1 : Nat := pwrA 0x44
/-- PWR_ECOST2. -/
abbrev rPWR_ECOST2 : Nat := pwrA 0x48
/-- PWR_ECOST3. -/
abbrev rPWR_ECOST3 : Nat := pwrA 0x4c
/-- PWR_ECOST4. -/
abbrev rPWR_ECOST4 : Nat := pwrA 0x50
/-- PWR_ECOST5. -/
abbrev rPWR_ECOST5 : Nat := pwrA 0x54
/-- PWR_ECOST6. -/
abbrev rPWR_ECOST6 : Nat := pwrA 0x58
/-- PWR_ECOST7. -/
abbrev rPWR_ECOST7 : Nat := pwrA 0x5c
/-- PWR_PART_SEL. -/
abbrev rPWR_PART_SEL : Nat := pwrA 0x80
/-- PWR_PART_STATUS. -/
abbrev rPWR_PART_STATUS : Nat := pwrA 0x84
/-- PWR_BUCKET. -/
abbrev rPWR_BUCKET : Nat := pwrA 0x88
/-- PWR_GRANT. -/
abbrev rPWR_GRANT : Nat := pwrA 0x8c
/-- PWR_TEMP. -/
abbrev rPWR_TEMP : Nat := pwrA 0x90
/-- PWR_SENSOR_SEL. -/
abbrev rPWR_SENSOR_SEL : Nat := pwrA 0xa0
/-- PWR_SENSOR. -/
abbrev rPWR_SENSOR : Nat := pwrA 0xa4
/-- PWR_TOKEN_WAIT. -/
abbrev rPWR_TOKEN_WAIT : Nat := pwrA 0x100
/-- PWR_DEMAND. -/
abbrev rPWR_DEMAND : Nat := pwrA 0x104
/-- PWR_STRETCH. -/
abbrev rPWR_STRETCH : Nat := pwrA 0x108
/-- PWR_STEP_UP. -/
abbrev rPWR_STEP_UP : Nat := pwrA 0x10c
/-- PWR_CAP_UNMET. -/
abbrev rPWR_CAP_UNMET : Nat := pwrA 0x110
/-- FLT_CFG. -/
abbrev rFLT_CFG : Nat := fltA 0x0
/-- FLT_STATUS. -/
abbrev rFLT_STATUS : Nat := fltA 0x4
/-- FLT_HANG. -/
abbrev rFLT_HANG : Nat := fltA 0x8
/-- FLT_JRNL. -/
abbrev rFLT_JRNL : Nat := fltA 0xc
/-- FLT_CMD. -/
abbrev rFLT_CMD : Nat := fltA 0x10
/-- FLT_CMD_STATUS. -/
abbrev rFLT_CMD_STATUS : Nat := fltA 0x14
/-- FLT_LATCH_SEL. -/
abbrev rFLT_LATCH_SEL : Nat := fltA 0x20
/-- FLT_LATCH. -/
abbrev rFLT_LATCH : Nat := fltA 0x24
/-- FLT_LATCH_GT_LO. -/
abbrev rFLT_LATCH_GT_LO : Nat := fltA 0x28
/-- FLT_LATCH_GT_HI. -/
abbrev rFLT_LATCH_GT_HI : Nat := fltA 0x2c
/-- FLT_LATCH_ADDR_LO. -/
abbrev rFLT_LATCH_ADDR_LO : Nat := fltA 0x30
/-- FLT_LATCH_ADDR_HI. -/
abbrev rFLT_LATCH_ADDR_HI : Nat := fltA 0x34
/-- FLT_MASKED. -/
abbrev rFLT_MASKED : Nat := fltA 0x40
/-- FLT_UNMASKED. -/
abbrev rFLT_UNMASKED : Nat := fltA 0x44
/-- FLT_TAKEOVERS. -/
abbrev rFLT_TAKEOVERS : Nat := fltA 0x48
/-- FLT_STEERS. -/
abbrev rFLT_STEERS : Nat := fltA 0x4c
/-- FLT_ENG_RESETS. -/
abbrev rFLT_ENG_RESETS : Nat := fltA 0x50
/-- FLT_PART_RESETS. -/
abbrev rFLT_PART_RESETS : Nat := fltA 0x54
/-- FLT_CHIP_RESETS. -/
abbrev rFLT_CHIP_RESETS : Nat := fltA 0x58
/-- FLT_ESCALATIONS. -/
abbrev rFLT_ESCALATIONS : Nat := fltA 0x5c
/-- FLT_FENCE_DROP. -/
abbrev rFLT_FENCE_DROP : Nat := fltA 0x60
/-- FLT_REDISPATCH. -/
abbrev rFLT_REDISPATCH : Nat := fltA 0x64
/-- FLT_JRNL_FULL. -/
abbrev rFLT_JRNL_FULL : Nat := fltA 0x68
/-- FLT_STOMP. -/
abbrev rFLT_STOMP : Nat := fltA 0x6c
/-- FLT_CAPTURES. -/
abbrev rFLT_CAPTURES : Nat := fltA 0x70
/-- FLS_STATUS. -/
abbrev rFLS_STATUS : Nat := flsA 0x0
/-- FLS_CFG. -/
abbrev rFLS_CFG : Nat := flsA 0x4
/-- FLS_AGE. -/
abbrev rFLS_AGE : Nat := flsA 0x8
/-- FLS_DISTURB. -/
abbrev rFLS_DISTURB : Nat := flsA 0xc
/-- FLS_CAPACITY. -/
abbrev rFLS_CAPACITY : Nat := flsA 0x10
/-- FLS_WEAR. -/
abbrev rFLS_WEAR : Nat := flsA 0x14
/-- FLS_CMD. -/
abbrev rFLS_CMD : Nat := flsA 0x20
/-- FLS_CMD_ARG. -/
abbrev rFLS_CMD_ARG : Nat := flsA 0x24
/-- FLS_CMD_STATUS. -/
abbrev rFLS_CMD_STATUS : Nat := flsA 0x28
/-- FLS_CORR. -/
abbrev rFLS_CORR : Nat := flsA 0x40
/-- FLS_RETRY_READS. -/
abbrev rFLS_RETRY_READS : Nat := flsA 0x44
/-- FLS_SOFT_READS. -/
abbrev rFLS_SOFT_READS : Nat := flsA 0x48
/-- FLS_UE. -/
abbrev rFLS_UE : Nat := flsA 0x4c
/-- FLS_REFRESH. -/
abbrev rFLS_REFRESH : Nat := flsA 0x50
/-- FLS_RETIRED. -/
abbrev rFLS_RETIRED : Nat := flsA 0x54
/-- FLS_CONFLICT. -/
abbrev rFLS_CONFLICT : Nat := flsA 0x58
/-- FLS_DEFAULTED. -/
abbrev rFLS_DEFAULTED : Nat := flsA 0x5c
/-- FLS_CAP_SKIP. -/
abbrev rFLS_CAP_SKIP : Nat := flsA 0x60
/-- SMP_CFG. -/
abbrev rSMP_CFG : Nat := smpA 0x0
/-- SMP_STATUS. -/
abbrev rSMP_STATUS : Nat := smpA 0x4
/-- SMP_NEXT_LO. -/
abbrev rSMP_NEXT_LO : Nat := smpA 0x8
/-- SMP_NEXT_HI. -/
abbrev rSMP_NEXT_HI : Nat := smpA 0xc
/-- SMP_OLDEST_LO. -/
abbrev rSMP_OLDEST_LO : Nat := smpA 0x10
/-- SMP_OLDEST_HI. -/
abbrev rSMP_OLDEST_HI : Nat := smpA 0x14
/-- SMP_RD_CMD. -/
abbrev rSMP_RD_CMD : Nat := smpA 0x20
/-- SMP_RD_SEQ_LO. -/
abbrev rSMP_RD_SEQ_LO : Nat := smpA 0x24
/-- SMP_RD_SEQ_HI. -/
abbrev rSMP_RD_SEQ_HI : Nat := smpA 0x28
/-- SMP_RD_POS_LO. -/
abbrev rSMP_RD_POS_LO : Nat := smpA 0x2c
/-- SMP_RD_POS_HI. -/
abbrev rSMP_RD_POS_HI : Nat := smpA 0x30
/-- SMP_RECORDS. -/
abbrev rSMP_RECORDS : Nat := smpA 0x40
/-- SMP_COALESCED. -/
abbrev rSMP_COALESCED : Nat := smpA 0x44
/-- SMP_LOST. -/
abbrev rSMP_LOST : Nat := smpA 0x48
/-- SMP_GAPS. -/
abbrev rSMP_GAPS : Nat := smpA 0x4c
/-- OBS_CNT_SEL. -/
abbrev rOBS_CNT_SEL : Nat := obsA 0x0
/-- OBS_CNT_LO. -/
abbrev rOBS_CNT_LO : Nat := obsA 0x4
/-- OBS_CNT_HI. -/
abbrev rOBS_CNT_HI : Nat := obsA 0x8
/-- OBS_CMD. -/
abbrev rOBS_CMD : Nat := obsA 0x10
/-- OBS_CMD_STATUS. -/
abbrev rOBS_CMD_STATUS : Nat := obsA 0x14
/-- OBS_CLR_RANGE. -/
abbrev rOBS_CLR_RANGE : Nat := obsA 0x18
/-- OBS_SCOPE. -/
abbrev rOBS_SCOPE (i : Nat) : Nat := obsA (0x40 + i * 4)
/-- OBS_SMPL_CFG. -/
abbrev rOBS_SMPL_CFG : Nat := obsA 0x100
/-- OBS_SMPL_STATUS. -/
abbrev rOBS_SMPL_STATUS : Nat := obsA 0x104
/-- OBS_SRING_BASE. -/
abbrev rOBS_SRING_BASE : Nat := obsA 0x108
/-- OBS_SRING_SIZE. -/
abbrev rOBS_SRING_SIZE : Nat := obsA 0x10c
/-- OBS_SRING_WR. -/
abbrev rOBS_SRING_WR : Nat := obsA 0x110
/-- OBS_SMPL_NUM. -/
abbrev rOBS_SMPL_NUM : Nat := obsA 0x114
/-- OBS_SMPL_MASK. -/
abbrev rOBS_SMPL_MASK (i : Nat) : Nat := obsA (0x140 + i * 4)
/-- OBS_TRC_CFG. -/
abbrev rOBS_TRC_CFG : Nat := obsA 0x200
/-- OBS_TRC_TILES. -/
abbrev rOBS_TRC_TILES : Nat := obsA 0x204
/-- OBS_TRC_CTX. -/
abbrev rOBS_TRC_CTX : Nat := obsA 0x208
/-- OBS_TRC_BASE. -/
abbrev rOBS_TRC_BASE : Nat := obsA 0x20c
/-- OBS_TRC_SIZE. -/
abbrev rOBS_TRC_SIZE : Nat := obsA 0x210
/-- OBS_TRC_WR_LO. -/
abbrev rOBS_TRC_WR_LO : Nat := obsA 0x214
/-- OBS_TRC_WR_HI. -/
abbrev rOBS_TRC_WR_HI : Nat := obsA 0x218
/-- OBS_TRC_STATUS. -/
abbrev rOBS_TRC_STATUS : Nat := obsA 0x21c
/-- OBS_TRC_RECORDS. -/
abbrev rOBS_TRC_RECORDS : Nat := obsA 0x300
/-- OBS_TRC_LOST. -/
abbrev rOBS_TRC_LOST : Nat := obsA 0x304
/-- OBS_TRC_STALL. -/
abbrev rOBS_TRC_STALL : Nat := obsA 0x308
/-- OBS_SMPL_SKIP. -/
abbrev rOBS_SMPL_SKIP : Nat := obsA 0x30c
/-- OBS_LP_UE. -/
abbrev rOBS_LP_UE : Nat := obsA 0x310
/-- HP_ID. -/
abbrev rHP_ID : Nat := hpA 0x0
/-- HP_CFG. -/
abbrev rHP_CFG : Nat := hpA 0x4
/-- HP_START. -/
abbrev rHP_START : Nat := hpA 0x8
/-- HP_ISR. -/
abbrev rHP_ISR : Nat := hpA 0x10
/-- HP_IE. -/
abbrev rHP_IE : Nat := hpA 0x14
/-- HP_WSTAT. -/
abbrev rHP_WSTAT : Nat := hpA 0x18
/-- HP_ERR_ADDR_LO. -/
abbrev rHP_ERR_ADDR_LO : Nat := hpA 0x20
/-- HP_ERR_ADDR_HI. -/
abbrev rHP_ERR_ADDR_HI : Nat := hpA 0x24
/-- HP_WIN_CFG. -/
abbrev rHP_WIN_CFG (i : Nat) : Nat := hpA (0x40 + i * 8)
/-- HP_WIN_BASE. -/
abbrev rHP_WIN_BASE (i : Nat) : Nat := hpA (0x44 + i * 8)
/-- HP_MBOX_CMD. -/
abbrev rHP_MBOX_CMD (i : Nat) : Nat := hpA (0x100 + i * 4)
/-- HP_MBOX_DOORBELL. -/
abbrev rHP_MBOX_DOORBELL : Nat := hpA 0x140
/-- HP_MBOX_STATUS. -/
abbrev rHP_MBOX_STATUS : Nat := hpA 0x144
/-- HP_MBOX_DONE. -/
abbrev rHP_MBOX_DONE : Nat := hpA 0x148
/-- HP_BAD_CMD. -/
abbrev rHP_BAD_CMD : Nat := hpA 0x180
/-- HP_CRC_ERR. -/
abbrev rHP_CRC_ERR : Nat := hpA 0x184
/-- HP_RETRY. -/
abbrev rHP_RETRY : Nat := hpA 0x188
/-- HP_WDROP. -/
abbrev rHP_WDROP : Nat := hpA 0x18c
/-- GLB_ID. -/
abbrev rGLB_ID : Nat := glbA 0x0
/-- GLB_DIE_ID_LO. -/
abbrev rGLB_DIE_ID_LO : Nat := glbA 0x4
/-- GLB_DIE_ID_HI. -/
abbrev rGLB_DIE_ID_HI : Nat := glbA 0x8
/-- GLB_CONFIG. -/
abbrev rGLB_CONFIG : Nat := glbA 0xc
/-- GLB_EPOCH. -/
abbrev rGLB_EPOCH : Nat := glbA 0x10
/-- GLB_EPOCH_CAUSE. -/
abbrev rGLB_EPOCH_CAUSE : Nat := glbA 0x14
/-- GLB_GT_LO. -/
abbrev rGLB_GT_LO : Nat := glbA 0x20
/-- GLB_GT_HI. -/
abbrev rGLB_GT_HI : Nat := glbA 0x24
/-- GLB_INT_STATUS. -/
abbrev rGLB_INT_STATUS : Nat := glbA 0x30
/-- GLB_INT_EN. -/
abbrev rGLB_INT_EN : Nat := glbA 0x34
/-- GLB_SCRATCH. -/
abbrev rGLB_SCRATCH : Nat := glbA 0x40
/-- LP_STATUS. -/
abbrev rLP_STATUS : Nat := lpA 0x0
/-- LP_SCRUB. -/
abbrev rLP_SCRUB : Nat := lpA 0x4
/-- LP_CH_SEL. -/
abbrev rLP_CH_SEL : Nat := lpA 0x10
/-- LP_CH_STATUS. -/
abbrev rLP_CH_STATUS : Nat := lpA 0x14
/-- LP_CE. -/
abbrev rLP_CE : Nat := lpA 0x40
/-- LP_UE. -/
abbrev rLP_UE : Nat := lpA 0x44
/-- LP_LINK_ECC. -/
abbrev rLP_LINK_ECC : Nat := lpA 0x48
/-- LP_RETRAIN. -/
abbrev rLP_RETRAIN : Nat := lpA 0x4c

/-- Rows of the FP block. -/
def rows_fp : List RegRow := [
  ⟨0x0, 1, 4, 0x2580, 0x9fff3fff, 0x0, 0x0, true, false, false⟩,
  ⟨0x4, 1, 4, 0x0, 0x0, 0x0, 0x0, false, false, false⟩,
  ⟨0x8, 1, 4, 0x0, 0x3ff0000, 0x0, 0x0, true, false, false⟩,
  ⟨0x10, 1, 4, 0x0, 0x0, 0x0, 0xffffffff, false, false, false⟩,
  ⟨0x14, 1, 4, 0x0, 0x0, 0x0, 0xffffffff, false, false, false⟩,
  ⟨0x18, 1, 4, 0x0, 0x0, 0x0, 0xffffffff, false, false, false⟩,
  ⟨0x1c, 1, 4, 0x0, 0x0, 0x0, 0xffffffff, false, false, false⟩,
  ⟨0x20, 8, 4, 0x0, 0x0, 0x0, 0xffffffff, false, false, false⟩]

/-- Rows of the PIPE block. -/
def rows_pipe : List RegRow := [
  ⟨0x0, 1, 4, 0x0, 0x1, 0x0, 0x0, true, false, false⟩,
  ⟨0x4, 1, 4, 0x0, 0x0, 0x0, 0x0, false, false, false⟩,
  ⟨0x10, 1, 4, 0x0, 0x0, 0x0, 0xffffffff, false, false, false⟩,
  ⟨0x14, 1, 4, 0x0, 0x0, 0x0, 0xffffffff, false, false, false⟩,
  ⟨0x18, 1, 4, 0x0, 0x0, 0x0, 0xffffffff, false, false, false⟩,
  ⟨0x1c, 1, 4, 0x0, 0x0, 0x0, 0xffffffff, false, false, false⟩,
  ⟨0x20, 1, 4, 0x0, 0x0, 0x0, 0xffffffff, false, false, false⟩,
  ⟨0x24, 1, 4, 0x0, 0x0, 0x0, 0xffffffff, false, false, false⟩]

/-- Rows of the GRN block. -/
def rows_grn : List RegRow := [
  ⟨0x0, 1, 4, 0x2000000f, 0xe73f001f, 0x0, 0x0, true, true, false⟩,
  ⟨0x4, 1, 4, 0x2000000f, 0xe03f001f, 0x0, 0x0, true, true, false⟩,
  ⟨0x8, 1, 4, 0x0, 0xffffffff, 0x0, 0x0, true, true, false⟩,
  ⟨0xc, 1, 4, 0x0, 0xffffffff, 0x0, 0x0, true, true, false⟩,
  ⟨0x10, 4, 4, 0x0, 0xffffffff, 0x0, 0x0, true, false, false⟩,
  ⟨0x20, 4, 4, 0x0, 0xffffffff, 0x0, 0x0, true, false, false⟩,
  ⟨0x30, 2, 4, 0xffffffff, 0xffffffff, 0x0, 0x0, true, false, false⟩,
  ⟨0x38, 1, 4, 0x41003e8, 0x7ffffff, 0x0, 0x0, true, true, false⟩,
  ⟨0x3c, 1, 4, 0x400005, 0xff00ff, 0x0, 0x0, true, true, false⟩,
  ⟨0x40, 1, 4, 0x3e80001, 0xffff0001, 0x0, 0x0, true, true, false⟩,
  ⟨0x44, 1, 4, 0x1, 0xffffffff, 0x0, 0x0, true, true, false⟩,
  ⟨0x48, 1, 4, 0x0, 0x0, 0x0, 0x0, false, false, false⟩,
  ⟨0x4c, 1, 4, 0x0, 0x0, 0x0, 0x0, false, false, false⟩,
  ⟨0x50, 1, 4, 0x0, 0x0, 0x0, 0xffffffff, false, false, false⟩,
  ⟨0x54, 1, 4, 0x0, 0x0, 0x0, 0xffffffff, false, false, false⟩,
  ⟨0x58, 1, 4, 0x0, 0x0, 0x0, 0xffffffff, false, false, false⟩,
  ⟨0x5c, 1, 4, 0x0, 0x0, 0x0, 0xffffffff, false, false, false⟩,
  ⟨0x60, 1, 4, 0x0, 0x0, 0x0, 0xffffffff, false, false, false⟩,
  ⟨0x64, 1, 4, 0x0, 0x0, 0x0, 0xffffffff, false, false, false⟩,
  ⟨0x68, 1, 4, 0x0, 0x0, 0x0, 0xffffffff, false, false, false⟩,
  ⟨0x6c, 1, 4, 0x0, 0x0, 0x0, 0xffffffff, false, false, false⟩,
  ⟨0x80, 1, 4, 0x0, 0x0, 0x0, 0x0, false, false, false⟩,
  ⟨0x84, 1, 4, 0x0, 0x0, 0x0, 0x0, false, false, false⟩,
  ⟨0x100, 16, 4, 0x0, 0xffffffff, 0x0, 0x0, false, false, false⟩,
  ⟨0x140, 16, 4, 0x0, 0xffffffff, 0x0, 0x0, false, false, false⟩]

/-- Rows of the BIND block. -/
def rows_bind : List RegRow := [
  ⟨0x0, 256, 4, 0x0, 0xffff03ff, 0x0, 0x0, true, true, false⟩,
  ⟨0x400, 1, 4, 0x0, 0x0, 0x0, 0xffffffff, false, false, false⟩]

/-- Rows of the VD block. -/
def rows_vd : List RegRow := [
  ⟨0x0, 1, 4, 0x80000000, 0xbf000000, 0x0, 0x0, true, true, false⟩,
  ⟨0x4, 1, 4, 0x88b5, 0xffff, 0x0, 0x0, true, true, false⟩,
  ⟨0x8, 1, 4, 0x3e80000, 0xffff0000, 0x0, 0x0, true, true, false⟩,
  ⟨0xc, 1, 4, 0x0, 0x0, 0x0, 0x0, false, false, false⟩,
  ⟨0x10, 1, 4, 0xa000007, 0xff000007, 0x0, 0x0, true, true, false⟩,
  ⟨0x14, 1, 4, 0x0, 0x7fff, 0x0, 0x0, true, false, false⟩,
  ⟨0x18, 1, 4, 0x0, 0x0, 0x0, 0x0, false, false, false⟩,
  ⟨0x20, 1, 4, 0x0, 0x3ff, 0x0, 0x0, true, true, false⟩,
  ⟨0x24, 4, 4, 0x0, 0xffffffff, 0x0, 0x0, true, true, false⟩,
  ⟨0x40, 16, 4, 0x0, 0xc03f3fff, 0x0, 0x0, true, true, false⟩,
  ⟨0x80, 1, 4, 0x0, 0x0, 0x0, 0x0, false, false, false⟩,
  ⟨0x84, 1, 4, 0x0, 0x0, 0x0, 0x0, false, false, false⟩,
  ⟨0x88, 1, 4, 0x0, 0x0, 0x0, 0x0, false, false, false⟩,
  ⟨0x8c, 1, 4, 0x1, 0x1, 0x0, 0x0, true, false, false⟩,
  ⟨0x90, 1, 4, 0x0, 0x7fff, 0x0, 0x0, true, false, false⟩,
  ⟨0x94, 1, 4, 0x0, 0xffffffff, 0x0, 0x0, true, false, false⟩,
  ⟨0x98, 1, 4, 0x0, 0xffffffff, 0x0, 0x0, true, false, false⟩,
  ⟨0x9c, 1, 4, 0x0, 0xffffffff, 0x0, 0x0, true, false, false⟩,
  ⟨0x100, 1, 4, 0x0, 0x0, 0x0, 0xffffffff, false, false, false⟩,
  ⟨0x104, 1, 4, 0x0, 0x0, 0x0, 0xffffffff, false, false, false⟩,
  ⟨0x108, 1, 4, 0x0, 0x0, 0x0, 0xffffffff, false, false, false⟩,
  ⟨0x10c, 1, 4, 0x0, 0x0, 0x0, 0xffffffff, false, false, false⟩,
  ⟨0x110, 1, 4, 0x0, 0x0, 0x0, 0xffffffff, false, false, false⟩,
  ⟨0x114, 1, 4, 0x0, 0x0, 0x0, 0xffffffff, false, false, false⟩,
  ⟨0x118, 1, 4, 0x0, 0x0, 0x0, 0xffffffff, false, false, false⟩,
  ⟨0x11c, 1, 4, 0x0, 0x0, 0x0, 0xffffffff, false, false, false⟩,
  ⟨0x120, 1, 4, 0x0, 0x0, 0x0, 0xffffffff, false, false, false⟩,
  ⟨0x124, 1, 4, 0x0, 0x0, 0x0, 0xffffffff, false, false, false⟩,
  ⟨0x128, 1, 4, 0x0, 0x0, 0x0, 0xffffffff, false, false, false⟩]

/-- Rows of the TM block (0). -/
def rows_tm_0 : List RegRow := [
  ⟨0x0, 1, 4, 0x0, 0x0, 0x0, 0x0, false, false, false⟩,
  ⟨0x4, 1, 4, 0x0, 0x0, 0x0, 0x0, false, false, false⟩,
  ⟨0x8, 1, 4, 0x400, 0xffff, 0x0, 0x0, true, true, false⟩,
  ⟨0x10, 4, 4, 0x8000014, 0x800000ff, 0x0, 0x0, true, true, false⟩,
  ⟨0x20, 1, 4, 0x0, 0xbfbf, 0x0, 0x0, true, true, false⟩,
  ⟨0x24, 1, 4, 0x1, 0xffffffff, 0x0, 0x0, true, true, false⟩,
  ⟨0x30, 1, 4, 0x20000064, 0xe00003ff, 0x0, 0x0, true, true, false⟩,
  ⟨0x34, 1, 4, 0x3fff0000, 0x3fff3fff, 0x0, 0x0, true, true, false⟩,
  ⟨0x38, 1, 4, 0x0, 0x0, 0x0, 0x0, false, false, false⟩,
  ⟨0x3c, 1, 4, 0x0, 0x0, 0x0, 0x0, false, false, false⟩,
  ⟨0x40, 1, 4, 0x0, 0x0, 0x0, 0x0, false, false, false⟩,
  ⟨0x80, 1, 4, 0x0, 0x3fff, 0x0, 0x0, true, true, false⟩,
  ⟨0x84, 1, 4, 0x18, 0x7fffffff, 0x0, 0x0, true, true, false⟩,
  ⟨0x88, 1, 4, 0x4000, 0x3fffff, 0x0, 0x0, true, true, false⟩,
  ⟨0x8c, 1, 4, 0x80000000, 0x80ffffff, 0x0, 0x0, true, true, false⟩,
  ⟨0x90, 1, 4, 0x100, 0xffff, 0x0, 0x0, true, true, false⟩,
  ⟨0x94, 1, 4, 0x0, 0x0, 0x0, 0x0, false, false, false⟩,
  ⟨0x98, 1, 4, 0x0, 0x0, 0x0, 0x0, false, false, false⟩,
  ⟨0x9c, 1, 4, 0x0, 0x0, 0x0, 0x0, false, false, false⟩,
  ⟨0xa0, 1, 4, 0x0, 0x0, 0x0, 0xffffffff, false, false, false⟩,
  ⟨0xc0, 1, 4, 0x0, 0xfff, 0x0, 0x0, true, true, false⟩,
  ⟨0xc4, 1, 4, 0x4000, 0x7007fff, 0x0, 0x0, true, true, false⟩,
  ⟨0xc8, 1, 4, 0x80000000, 0x80ffffff, 0x0, 0x0, true, true, false⟩,
  ⟨0xcc, 1, 4, 0x100, 0xffff, 0x0, 0x0, true, true, false⟩,
  ⟨0x100, 1, 4, 0x0, 0x3fff, 0x0, 0x0, true, true, false⟩,
  ⟨0x104, 1, 4, 0xd0000000, 0xf0ffffff, 0x0, 0x0, true, true, false⟩,
  ⟨0x108, 1, 4, 0x0, 0xffffff, 0x0, 0x0, true, true, false⟩,
  ⟨0x10c, 1, 4, 0x0, 0xffffff, 0x0, 0x0, true, true, false⟩,
  ⟨0x110, 1, 4, 0x0, 0xffffff, 0x0, 0x0, true, true, false⟩,
  ⟨0x114, 1, 4, 0x0, 0x0, 0x0, 0x0, false, false, false⟩,
  ⟨0x118, 1, 4, 0x0, 0x0, 0x0, 0x0, false, false, false⟩,
  ⟨0x200, 32, 4, 0x0, 0xc03fffff, 0x0, 0x0, true, true, false⟩,
  ⟨0x280, 32, 4, 0x0, 0xff3fffff, 0x0, 0x0, true, true, false⟩,
  ⟨0x300, 256, 4, 0x0, 0xf1fff, 0x0, 0x0, true, true, false⟩,
  ⟨0x700, 16, 4, 0x0, 0xffffffff, 0x0, 0x0, true, true, false⟩,
  ⟨0x800, 1, 4, 0x0, 0x0, 0x0, 0xffffffff, false, false, false⟩,
  ⟨0x804, 1, 4, 0x0, 0x0, 0x0, 0xffffffff, false, false, false⟩,
  ⟨0x808, 1, 4, 0x0, 0x0, 0x0, 0xffffffff, false, false, false⟩,
  ⟨0x80c, 1, 4, 0x0, 0x0, 0x0, 0xffffffff, false, false, false⟩,
  ⟨0x810, 1, 4, 0x0, 0x0, 0x0, 0xffffffff, false, false, false⟩]

/-- Rows of the TM block (1). -/
def rows_tm_1 : List RegRow := [
  ⟨0x814, 1, 4, 0x0, 0x0, 0x0, 0xffffffff, false, false, false⟩,
  ⟨0x818, 1, 4, 0x0, 0x0, 0x0, 0xffffffff, false, false, false⟩,
  ⟨0x81c, 1, 4, 0x0, 0x0, 0x0, 0xffffffff, false, false, false⟩,
  ⟨0x820, 1, 4, 0x0, 0x0, 0x0, 0xffffffff, false, false, false⟩,
  ⟨0x824, 1, 4, 0x0, 0x0, 0x0, 0xffffffff, false, false, false⟩,
  ⟨0x828, 1, 4, 0x0, 0x0, 0x0, 0xffffffff, false, false, false⟩,
  ⟨0x82c, 1, 4, 0x0, 0x0, 0x0, 0xffffffff, false, false, false⟩,
  ⟨0x830, 1, 4, 0x0, 0x0, 0x0, 0xffffffff, false, false, false⟩]

/-- Rows of the TM block. -/
def rows_tm : List RegRow := rows_tm_0 ++ rows_tm_1

/-- Rows of the TIL block. -/
def rows_til : List RegRow := [
  ⟨0x0, 1, 4, 0x0, 0x0, 0x0, 0x0, false, false, false⟩,
  ⟨0x4, 1, 4, 0x0, 0x0, 0x0, 0x0, false, false, false⟩,
  ⟨0x10, 1, 4, 0x0, 0x3ff, 0x0, 0x0, true, false, false⟩,
  ⟨0x14, 1, 4, 0x0, 0x0, 0x0, 0x0, false, false, false⟩,
  ⟨0x18, 1, 4, 0x0, 0x0, 0x0, 0x0, false, false, false⟩,
  ⟨0x1c, 1, 4, 0x304001, 0xf87f7f7f, 0x0, 0x0, true, false, false⟩,
  ⟨0x20, 1, 4, 0x320, 0xffff, 0x0, 0x0, true, false, false⟩,
  ⟨0x24, 1, 4, 0x0, 0x3ff, 0x0, 0x0, true, false, false⟩,
  ⟨0x28, 1, 4, 0x0, 0x1fff, 0x0, 0x0, false, false, false⟩,
  ⟨0x2c, 1, 4, 0x0, 0xffffffff, 0x0, 0x0, false, false, false⟩,
  ⟨0x40, 1, 4, 0x0, 0x0, 0x0, 0xffffffff, false, false, false⟩,
  ⟨0x44, 1, 4, 0x0, 0x0, 0x0, 0xffffffff, false, false, false⟩,
  ⟨0x48, 1, 4, 0x0, 0x0, 0x0, 0xffffffff, false, false, false⟩,
  ⟨0x4c, 1, 4, 0x0, 0x0, 0x0, 0xffffffff, false, false, false⟩,
  ⟨0x50, 1, 4, 0x0, 0x0, 0x0, 0xffffffff, false, false, false⟩,
  ⟨0x54, 1, 4, 0x0, 0x0, 0x0, 0xffffffff, false, false, false⟩]

/-- Rows of the SHF block. -/
def rows_shf : List RegRow := [
  ⟨0x0, 1, 4, 0x0, 0x0, 0x0, 0x0, false, false, false⟩,
  ⟨0x4, 1, 4, 0x0, 0x0, 0x0, 0x0, false, false, true⟩,
  ⟨0x8, 1, 4, 0x1f, 0x0, 0x0, 0x0, false, false, true⟩,
  ⟨0x10, 1, 4, 0x0, 0x0, 0x0, 0xffffffff, false, false, false⟩,
  ⟨0x14, 1, 4, 0x0, 0x0, 0x0, 0xffffffff, false, false, false⟩,
  ⟨0x18, 1, 4, 0x0, 0x0, 0x0, 0xffffffff, false, false, false⟩,
  ⟨0x1c, 1, 4, 0x0, 0x0, 0x0, 0xffffffff, false, false, false⟩,
  ⟨0x20, 1, 4, 0x0, 0x0, 0x0, 0xffffffff, false, false, false⟩]

/-- Rows of the THR block. -/
def rows_thr : List RegRow := [
  ⟨0x0, 1, 4, 0x0, 0x0, 0x0, 0x0, false, false, true⟩,
  ⟨0x10, 1, 4, 0x0, 0x0, 0x0, 0xffffffff, false, false, false⟩,
  ⟨0x14, 1, 4, 0x0, 0x0, 0x0, 0xffffffff, false, false, false⟩,
  ⟨0x18, 1, 4, 0x0, 0x0, 0x0, 0xffffffff, false, false, false⟩,
  ⟨0x1c, 1, 4, 0x0, 0x0, 0x0, 0xffffffff, false, false, false⟩,
  ⟨0x20, 1, 4, 0x0, 0x0, 0x0, 0xffffffff, false, false, false⟩,
  ⟨0x24, 1, 4, 0x0, 0x0, 0x0, 0xffffffff, false, false, false⟩,
  ⟨0x28, 1, 4, 0x0, 0x0, 0x0, 0xffffffff, false, false, false⟩,
  ⟨0x2c, 1, 4, 0x0, 0x0, 0x0, 0xffffffff, false, false, false⟩]

/-- Rows of the BT block. -/
def rows_bt : List RegRow := [
  ⟨0x0, 1, 4, 0x0, 0x3f, 0x0, 0x0, true, false, false⟩,
  ⟨0x4, 1, 4, 0x0, 0x3f3f, 0x0, 0x0, true, false, false⟩,
  ⟨0x8, 1, 4, 0x45f6400, 0xffffff00, 0x0, 0x0, true, true, false⟩,
  ⟨0xc, 1, 4, 0x40, 0xff, 0x0, 0x0, true, true, false⟩,
  ⟨0x10, 1, 4, 0xe100008, 0xffff00ff, 0x0, 0x0, true, true, false⟩,
  ⟨0x20, 1, 4, 0x0, 0x3f, 0x0, 0x0, true, false, false⟩,
  ⟨0x24, 1, 4, 0x0, 0x0, 0x0, 0x0, false, false, false⟩,
  ⟨0x40, 1, 4, 0x0, 0x0, 0x0, 0xffffffff, false, false, false⟩,
  ⟨0x44, 1, 4, 0x0, 0x0, 0x0, 0xffffffff, false, false, false⟩,
  ⟨0x48, 1, 4, 0x0, 0x0, 0x0, 0xffffffff, false, false, false⟩,
  ⟨0x4c, 1, 4, 0x0, 0x0, 0x0, 0xffffffff, false, false, false⟩,
  ⟨0x50, 1, 4, 0x0, 0x0, 0x0, 0xffffffff, false, false, false⟩,
  ⟨0x54, 1, 4, 0x0, 0x0, 0x0, 0xffffffff, false, false, false⟩,
  ⟨0x58, 1, 4, 0x0, 0x0, 0x0, 0xffffffff, false, false, false⟩,
  ⟨0x5c, 1, 4, 0x0, 0x0, 0x0, 0xffffffff, false, false, false⟩,
  ⟨0x60, 1, 4, 0x0, 0x0, 0x0, 0xffffffff, false, false, false⟩,
  ⟨0x100, 64, 4, 0x0, 0x0, 0x0, 0x0, false, false, true⟩]

/-- Rows of the RQ block. -/
def rows_rq : List RegRow := [
  ⟨0x0, 1, 4, 0x1fbd0, 0x0, 0x0, 0x0, false, false, false⟩,
  ⟨0x4, 1, 4, 0x0, 0x0, 0x0, 0x0, false, false, false⟩,
  ⟨0x8, 1, 4, 0x0, 0x0, 0x0, 0x0, false, false, false⟩,
  ⟨0xc, 1, 4, 0x0, 0x0, 0x0, 0x0, false, false, false⟩,
  ⟨0x10, 1, 4, 0x0, 0x0, 0xffffffff, 0x0, false, false, false⟩,
  ⟨0x14, 1, 4, 0x0, 0x0, 0xffffffff, 0x0, false, false, false⟩,
  ⟨0x20, 1, 4, 0x0, 0x3f, 0x0, 0x0, true, false, false⟩,
  ⟨0x24, 1, 4, 0x86000000, 0xc7000000, 0x0, 0x0, true, true, false⟩,
  ⟨0x28, 1, 4, 0x0, 0xfffff, 0x0, 0x0, true, true, false⟩,
  ⟨0x2c, 1, 4, 0x2000, 0xfffff, 0x0, 0x0, true, true, false⟩,
  ⟨0x30, 1, 4, 0x0, 0x0, 0x60000000, 0x0, false, false, false⟩,
  ⟨0x34, 1, 4, 0x0, 0x0, 0x0, 0x0, false, false, false⟩,
  ⟨0x38, 1, 4, 0x0, 0x0, 0x0, 0x0, false, false, false⟩,
  ⟨0x40, 1, 4, 0x0, 0x0, 0x0, 0x0, false, false, false⟩,
  ⟨0x44, 1, 4, 0x0, 0x0, 0x0, 0x0, false, false, false⟩,
  ⟨0x80, 1, 4, 0x0, 0x0, 0x0, 0xffffffff, false, false, false⟩,
  ⟨0x84, 1, 4, 0x0, 0x0, 0x0, 0xffffffff, false, false, false⟩,
  ⟨0x88, 1, 4, 0x0, 0x0, 0x0, 0xffffffff, false, false, false⟩,
  ⟨0x8c, 1, 4, 0x0, 0x0, 0x0, 0xffffffff, false, false, false⟩,
  ⟨0x90, 1, 4, 0x0, 0x0, 0x0, 0xffffffff, false, false, false⟩,
  ⟨0x94, 1, 4, 0x0, 0x0, 0x0, 0xffffffff, false, false, false⟩]

/-- Rows of the PL block. -/
def rows_pl : List RegRow := [
  ⟨0x0, 1, 4, 0x200, 0xffbf3f0f, 0x0, 0x0, true, false, false⟩,
  ⟨0x4, 1, 4, 0x0, 0xffffffff, 0x0, 0x0, true, false, false⟩,
  ⟨0x8, 1, 4, 0xc00, 0xfff, 0x0, 0x0, true, true, false⟩,
  ⟨0x10, 1, 4, 0x0, 0x0, 0x0, 0x0, false, false, false⟩,
  ⟨0x14, 1, 4, 0x0, 0x0, 0x0, 0x0, false, false, false⟩,
  ⟨0x40, 1, 4, 0x0, 0x0, 0x0, 0xffffffff, false, false, false⟩,
  ⟨0x44, 1, 4, 0x0, 0x0, 0x0, 0xffffffff, false, false, false⟩,
  ⟨0x48, 1, 4, 0x0, 0x0, 0x0, 0xffffffff, false, false, false⟩,
  ⟨0x4c, 1, 4, 0x0, 0x0, 0x0, 0xffffffff, false, false, false⟩,
  ⟨0x50, 1, 4, 0x0, 0x0, 0x0, 0xffffffff, false, false, false⟩,
  ⟨0x54, 1, 4, 0x0, 0x0, 0x0, 0xffffffff, false, false, false⟩,
  ⟨0x58, 1, 4, 0x0, 0x0, 0x0, 0xffffffff, false, false, false⟩,
  ⟨0x5c, 1, 4, 0x0, 0x0, 0x0, 0xffffffff, false, false, false⟩,
  ⟨0x60, 1, 4, 0x0, 0x0, 0x0, 0xffffffff, false, false, false⟩,
  ⟨0x400, 16, 4, 0x0, 0xffffffff, 0x0, 0x0, true, true, false⟩,
  ⟨0x800, 256, 4, 0x0, 0xff, 0x0, 0x0, true, true, false⟩]

/-- Rows of the PLL block. -/
def rows_pll : List RegRow := [
  ⟨0x0, 1, 4, 0x0, 0x0, 0x0, 0x0, false, false, false⟩,
  ⟨0x10, 1, 4, 0x0, 0x0, 0x0, 0xffffffff, false, false, false⟩,
  ⟨0x14, 1, 4, 0x0, 0x0, 0x0, 0xffffffff, false, false, false⟩,
  ⟨0x18, 1, 4, 0x0, 0x0, 0x0, 0xffffffff, false, false, false⟩,
  ⟨0x1c, 1, 4, 0x0, 0x0, 0x0, 0xffffffff, false, false, false⟩,
  ⟨0x20, 1, 4, 0x0, 0x0, 0x0, 0xffffffff, false, false, false⟩]

/-- Rows of the PWR block. -/
def rows_pwr : List RegRow := [
  ⟨0x0, 1, 4, 0x2f8, 0x3ff, 0x0, 0x0, false, false, true⟩,
  ⟨0x4, 1, 4, 0x0, 0x0, 0x0, 0x0, false, false, false⟩,
  ⟨0x8, 1, 4, 0x0, 0x0, 0x0, 0x0, false, false, false⟩,
  ⟨0xc, 1, 4, 0x0, 0x0, 0x0, 0x0, false, false, false⟩,
  ⟨0x10, 1, 4, 0xa, 0x7f, 0x0, 0x0, true, true, false⟩,
  ⟨0x14, 1, 4, 0x1010101, 0xffffffff, 0x0, 0x0, true, true, false⟩,
  ⟨0x18, 1, 4, 0x201008, 0xffffff, 0x0, 0x0, true, true, false⟩,
  ⟨0x1c, 1, 4, 0x6664, 0xffff, 0x0, 0x0, true, true, false⟩,
  ⟨0x20, 1, 4, 0x40, 0xffff, 0x0, 0x0, true, true, false⟩,
  ⟨0x24, 1, 4, 0x0, 0x3f, 0x0, 0x0, true, false, false⟩,
  ⟨0x40, 1, 4, 0x0, 0x0, 0x0, 0x0, true, true, false⟩,
  ⟨0x44, 1, 4, 0x10, 0xffff, 0x0, 0x0, true, true, false⟩,
  ⟨0x48, 1, 4, 0x20, 0xffff, 0x0, 0x0, true, true, false⟩,
  ⟨0x4c, 1, 4, 0xe0, 0xffff, 0x0, 0x0, true, true, false⟩,
  ⟨0x50, 1, 4, 0x1c0, 0xffff, 0x0, 0x0, true, true, false⟩,
  ⟨0x54, 1, 4, 0x400, 0xffff, 0x0, 0x0, true, true, false⟩,
  ⟨0x58, 1, 4, 0x1000, 0xffff, 0x0, 0x0, true, true, false⟩,
  ⟨0x5c, 1, 4, 0x4000, 0xffff, 0x0, 0x0, true, true, false⟩,
  ⟨0x80, 1, 4, 0x0, 0x3, 0x0, 0x0, true, false, false⟩,
  ⟨0x84, 1, 4, 0x0, 0x0, 0x0, 0x0, false, false, false⟩,
  ⟨0x88, 1, 4, 0x0, 0x0, 0x0, 0x0, false, false, false⟩,
  ⟨0x8c, 1, 4, 0x0, 0x0, 0x0, 0x0, false, false, false⟩,
  ⟨0x90, 1, 4, 0x0, 0x0, 0x0, 0x0, false, false, false⟩,
  ⟨0xa0, 1, 4, 0x0, 0x7f, 0x0, 0x0, true, false, false⟩,
  ⟨0xa4, 1, 4, 0x0, 0x0, 0x0, 0x0, false, false, false⟩,
  ⟨0x100, 1, 4, 0x0, 0x0, 0x0, 0xffffffff, false, false, false⟩,
  ⟨0x104, 1, 4, 0x0, 0x0, 0x0, 0xffffffff, false, false, false⟩,
  ⟨0x108, 1, 4, 0x0, 0x0, 0x0, 0xffffffff, false, false, false⟩,
  ⟨0x10c, 1, 4, 0x0, 0x0, 0x0, 0xffffffff, false, false, false⟩,
  ⟨0x110, 1, 4, 0x0, 0x0, 0x0, 0xffffffff, false, false, false⟩]

/-- Rows of the FLT block. -/
def rows_flt : List RegRow := [
  ⟨0x0, 1, 4, 0x80000, 0xfff80000, 0x0, 0x0, true, true, false⟩,
  ⟨0x4, 1, 4, 0x0, 0x0, 0x80000000, 0x0, false, false, false⟩,
  ⟨0x8, 1, 4, 0x320000, 0xffff0000, 0x0, 0x0, true, true, false⟩,
  ⟨0xc, 1, 4, 0x4000, 0x0, 0x0, 0x0, true, false, false⟩,
  ⟨0x10, 1, 4, 0x0, 0x0, 0x0, 0x0, false, false, false⟩,
  ⟨0x14, 1, 4, 0x0, 0x0, 0x0, 0x0, false, false, false⟩,
  ⟨0x20, 1, 4, 0x0, 0xffff, 0x0, 0x0, false, false, false⟩,
  ⟨0x24, 1, 4, 0x0, 0x0, 0x0, 0x0, false, false, false⟩,
  ⟨0x28, 1, 4, 0x0, 0x0, 0x0, 0x0, false, false, false⟩,
  ⟨0x2c, 1, 4, 0x0, 0x0, 0x0, 0x0, false, false, false⟩,
  ⟨0x30, 1, 4, 0x0, 0x0, 0x0, 0x0, false, false, false⟩,
  ⟨0x34, 1, 4, 0x0, 0x0, 0x0, 0x0, false, false, false⟩,
  ⟨0x40, 1, 4, 0x0, 0x0, 0x0, 0xffffffff, false, false, false⟩,
  ⟨0x44, 1, 4, 0x0, 0x0, 0x0, 0xffffffff, false, false, false⟩,
  ⟨0x48, 1, 4, 0x0, 0x0, 0x0, 0xffffffff, false, false, false⟩,
  ⟨0x4c, 1, 4, 0x0, 0x0, 0x0, 0xffffffff, false, false, false⟩,
  ⟨0x50, 1, 4, 0x0, 0x0, 0x0, 0xffffffff, false, false, false⟩,
  ⟨0x54, 1, 4, 0x0, 0x0, 0x0, 0xffffffff, false, false, false⟩,
  ⟨0x58, 1, 4, 0x0, 0x0, 0x0, 0xffffffff, false, false, true⟩,
  ⟨0x5c, 1, 4, 0x0, 0x0, 0x0, 0xffffffff, false, false, false⟩,
  ⟨0x60, 1, 4, 0x0, 0x0, 0x0, 0xffffffff, false, false, false⟩,
  ⟨0x64, 1, 4, 0x0, 0x0, 0x0, 0xffffffff, false, false, false⟩,
  ⟨0x68, 1, 4, 0x0, 0x0, 0x0, 0xffffffff, false, false, false⟩,
  ⟨0x6c, 1, 4, 0x0, 0x0, 0x0, 0xffffffff, false, false, false⟩,
  ⟨0x70, 1, 4, 0x0, 0x0, 0x0, 0xffffffff, false, false, false⟩]

/-- Rows of the FLS block. -/
def rows_fls : List RegRow := [
  ⟨0x0, 1, 4, 0x0, 0x0, 0xf, 0x0, false, false, true⟩,
  ⟨0x4, 1, 4, 0x3e80f40, 0xffff0fff, 0x0, 0x0, true, true, true⟩,
  ⟨0x8, 1, 4, 0x700b4, 0xffffff, 0x0, 0x0, true, true, true⟩,
  ⟨0xc, 1, 4, 0x64, 0xffff, 0x0, 0x0, true, true, true⟩,
  ⟨0x10, 1, 4, 0x0, 0x0, 0x0, 0x0, false, false, true⟩,
  ⟨0x14, 1, 4, 0x0, 0x0, 0x0, 0x0, false, false, true⟩,
  ⟨0x20, 1, 4, 0x0, 0x0, 0x0, 0x0, false, false, true⟩,
  ⟨0x24, 1, 4, 0x0, 0xffffffff, 0x0, 0x0, false, false, true⟩,
  ⟨0x28, 1, 4, 0x0, 0x0, 0x0, 0x0, false, false, true⟩,
  ⟨0x40, 1, 4, 0x0, 0x0, 0x0, 0xffffffff, false, false, true⟩,
  ⟨0x44, 1, 4, 0x0, 0x0, 0x0, 0xffffffff, false, false, true⟩,
  ⟨0x48, 1, 4, 0x0, 0x0, 0x0, 0xffffffff, false, false, true⟩,
  ⟨0x4c, 1, 4, 0x0, 0x0, 0x0, 0xffffffff, false, false, true⟩,
  ⟨0x50, 1, 4, 0x0, 0x0, 0x0, 0xffffffff, false, false, true⟩,
  ⟨0x54, 1, 4, 0x0, 0x0, 0x0, 0xffffffff, false, false, true⟩,
  ⟨0x58, 1, 4, 0x0, 0x0, 0x0, 0xffffffff, false, false, true⟩,
  ⟨0x5c, 1, 4, 0x0, 0x0, 0x0, 0xffffffff, false, false, true⟩,
  ⟨0x60, 1, 4, 0x0, 0x0, 0x0, 0xffffffff, false, false, true⟩]

/-- Rows of the SMP block. -/
def rows_smp : List RegRow := [
  ⟨0x0, 1, 4, 0x3e803e8, 0xffffffff, 0x0, 0x0, true, true, true⟩,
  ⟨0x4, 1, 4, 0x0, 0x0, 0x0, 0x0, false, false, true⟩,
  ⟨0x8, 1, 4, 0x0, 0x0, 0x0, 0x0, false, false, true⟩,
  ⟨0xc, 1, 4, 0x0, 0x0, 0x0, 0x0, false, false, true⟩,
  ⟨0x10, 1, 4, 0x0, 0x0, 0x0, 0x0, false, false, true⟩,
  ⟨0x14, 1, 4, 0x0, 0x0, 0x0, 0x0, false, false, true⟩,
  ⟨0x20, 1, 4, 0x0, 0x0, 0x0, 0x0, false, false, true⟩,
  ⟨0x24, 1, 4, 0x0, 0xffffffff, 0x0, 0x0, false, false, true⟩,
  ⟨0x28, 1, 4, 0x0, 0xffffffff, 0x0, 0x0, false, false, true⟩,
  ⟨0x2c, 1, 4, 0x0, 0x0, 0x0, 0x0, false, false, true⟩,
  ⟨0x30, 1, 4, 0x0, 0x0, 0x0, 0x0, false, false, true⟩,
  ⟨0x40, 1, 4, 0x0, 0x0, 0x0, 0xffffffff, false, false, true⟩,
  ⟨0x44, 1, 4, 0x0, 0x0, 0x0, 0xffffffff, false, false, true⟩,
  ⟨0x48, 1, 4, 0x0, 0x0, 0x0, 0xffffffff, false, false, true⟩,
  ⟨0x4c, 1, 4, 0x0, 0x0, 0x0, 0xffffffff, false, false, true⟩]

/-- Rows of the OBS block. -/
def rows_obs : List RegRow := [
  ⟨0x0, 1, 4, 0x0, 0x7ff, 0x0, 0x0, true, false, true⟩,
  ⟨0x4, 1, 4, 0x0, 0x0, 0x0, 0x0, false, false, true⟩,
  ⟨0x8, 1, 4, 0x0, 0x0, 0x0, 0x0, false, false, true⟩,
  ⟨0x10, 1, 4, 0x0, 0x0, 0x0, 0x0, false, false, true⟩,
  ⟨0x14, 1, 4, 0x0, 0x0, 0x0, 0x0, false, false, true⟩,
  ⟨0x18, 1, 4, 0x0, 0x7ff07ff, 0x0, 0x0, true, false, true⟩,
  ⟨0x40, 20, 4, 0x48000000, 0xf8007fff, 0x0, 0x0, true, true, true⟩,
  ⟨0x100, 1, 4, 0x400003e8, 0xc00003ff, 0x0, 0x0, true, true, true⟩,
  ⟨0x104, 1, 4, 0x0, 0x0, 0x0, 0x0, false, false, true⟩,
  ⟨0x108, 1, 4, 0x0, 0x0, 0x0, 0x0, false, false, true⟩,
  ⟨0x10c, 1, 4, 0x0, 0x0, 0x0, 0x0, false, false, true⟩,
  ⟨0x110, 1, 4, 0x0, 0x0, 0x0, 0x0, false, false, true⟩,
  ⟨0x114, 1, 4, 0x0, 0x0, 0x0, 0x0, false, false, true⟩,
  ⟨0x140, 64, 4, 0x0, 0xffffffff, 0x0, 0x0, true, true, true⟩,
  ⟨0x200, 1, 4, 0x4000003e, 0xe000003f, 0x0, 0x0, true, true, true⟩,
  ⟨0x204, 1, 4, 0x0, 0xfffff, 0x0, 0x0, true, true, true⟩,
  ⟨0x208, 1, 4, 0x80000000, 0x80007fff, 0x0, 0x0, true, true, true⟩,
  ⟨0x20c, 1, 4, 0x0, 0x0, 0x0, 0x0, false, false, true⟩,
  ⟨0x210, 1, 4, 0x0, 0x0, 0x0, 0x0, false, false, true⟩,
  ⟨0x214, 1, 4, 0x0, 0x0, 0x0, 0x0, false, false, true⟩,
  ⟨0x218, 1, 4, 0x0, 0x0, 0x0, 0x0, false, false, true⟩,
  ⟨0x21c, 1, 4, 0x0, 0x0, 0x0, 0x0, false, false, true⟩,
  ⟨0x300, 1, 4, 0x0, 0x0, 0x0, 0xffffffff, false, false, true⟩,
  ⟨0x304, 1, 4, 0x0, 0x0, 0x0, 0xffffffff, false, false, true⟩,
  ⟨0x308, 1, 4, 0x0, 0x0, 0x0, 0xffffffff, false, false, true⟩,
  ⟨0x30c, 1, 4, 0x0, 0x0, 0x0, 0xffffffff, false, false, true⟩,
  ⟨0x310, 1, 4, 0x0, 0x0, 0x0, 0xffffffff, false, false, true⟩]

/-- Rows of the HP block. -/
def rows_hp : List RegRow := [
  ⟨0x0, 1, 4, 0x96000b2, 0x0, 0x0, 0x0, false, false, true⟩,
  ⟨0x4, 1, 4, 0x80000040, 0x800000ff, 0x0, 0x0, false, false, true⟩,
  ⟨0x8, 1, 4, 0x0, 0x0, 0x0, 0x0, false, false, true⟩,
  ⟨0x10, 1, 4, 0x0, 0x0, 0xc, 0x0, false, false, true⟩,
  ⟨0x14, 1, 4, 0x0, 0xf, 0x0, 0x0, false, false, true⟩,
  ⟨0x18, 1, 4, 0x0, 0x0, 0xf0000000, 0x0, false, false, true⟩,
  ⟨0x20, 1, 4, 0x0, 0x0, 0x0, 0x0, false, false, true⟩,
  ⟨0x24, 1, 4, 0x0, 0x0, 0x0, 0x0, false, false, true⟩,
  ⟨0x40, 4, 8, 0x0, 0xc0000000, 0x0, 0x0, false, false, true⟩,
  ⟨0x44, 4, 8, 0x0, 0xffffffff, 0x0, 0x0, false, false, true⟩,
  ⟨0x100, 16, 4, 0x0, 0xffffffff, 0x0, 0x0, false, false, true⟩,
  ⟨0x140, 1, 4, 0x0, 0x0, 0x0, 0x0, false, false, true⟩,
  ⟨0x144, 1, 4, 0x0, 0x0, 0x40000000, 0x0, false, false, true⟩,
  ⟨0x148, 1, 4, 0x0, 0x0, 0x0, 0x0, false, false, true⟩,
  ⟨0x180, 1, 4, 0x0, 0x0, 0x0, 0xffffffff, false, false, true⟩,
  ⟨0x184, 1, 4, 0x0, 0x0, 0x0, 0xffffffff, false, false, true⟩,
  ⟨0x188, 1, 4, 0x0, 0x0, 0x0, 0xffffffff, false, false, true⟩,
  ⟨0x18c, 1, 4, 0x0, 0x0, 0x0, 0xffffffff, false, false, true⟩]

/-- Rows of the GLB block. -/
def rows_glb : List RegRow := [
  ⟨0x0, 1, 4, 0x96000b2, 0x0, 0x0, 0x0, false, false, true⟩,
  ⟨0x4, 1, 4, 0x0, 0x0, 0x0, 0x0, false, false, true⟩,
  ⟨0x8, 1, 4, 0x0, 0x0, 0x0, 0x0, false, false, true⟩,
  ⟨0xc, 1, 4, 0x2000, 0x0, 0x0, 0x0, false, false, true⟩,
  ⟨0x10, 1, 4, 0x0, 0x0, 0x0, 0x0, false, false, true⟩,
  ⟨0x14, 1, 4, 0x0, 0x0, 0x0, 0x0, false, false, true⟩,
  ⟨0x20, 1, 4, 0x0, 0x0, 0x0, 0x0, false, false, true⟩,
  ⟨0x24, 1, 4, 0x0, 0x0, 0x0, 0x0, false, false, true⟩,
  ⟨0x30, 1, 4, 0x0, 0x0, 0x0, 0x0, false, false, true⟩,
  ⟨0x34, 1, 4, 0x19, 0x3ff, 0x0, 0x0, false, false, true⟩,
  ⟨0x40, 1, 4, 0x0, 0xffffffff, 0x0, 0x0, false, false, true⟩]

/-- Rows of the LP block. -/
def rows_lp : List RegRow := [
  ⟨0x0, 1, 4, 0x0, 0x0, 0x0, 0x0, false, false, true⟩,
  ⟨0x4, 1, 4, 0x18, 0xffff, 0x0, 0x0, true, true, true⟩,
  ⟨0x10, 1, 4, 0x0, 0xf, 0x0, 0x0, false, false, true⟩,
  ⟨0x14, 1, 4, 0x0, 0x0, 0x0, 0x0, false, false, true⟩,
  ⟨0x40, 1, 4, 0x0, 0x0, 0x0, 0xffffffff, false, false, true⟩,
  ⟨0x44, 1, 4, 0x0, 0x0, 0x0, 0xffffffff, false, false, true⟩,
  ⟨0x48, 1, 4, 0x0, 0x0, 0x0, 0xffffffff, false, false, true⟩,
  ⟨0x4c, 1, 4, 0x0, 0x0, 0x0, 0xffffffff, false, false, true⟩]

/-- The rows of a block. -/
def blockRows : Block → List RegRow
  | .fp => rows_fp
  | .pipe => rows_pipe
  | .grn => rows_grn
  | .bind => rows_bind
  | .vd => rows_vd
  | .tm => rows_tm
  | .til => rows_til
  | .shf => rows_shf
  | .thr => rows_thr
  | .bt => rows_bt
  | .rq => rows_rq
  | .pl => rows_pl
  | .pll => rows_pll
  | .pwr => rows_pwr
  | .flt => rows_flt
  | .fls => rows_fls
  | .smp => rows_smp
  | .obs => rows_obs
  | .hp => rows_hp
  | .glb => rows_glb
  | .lp => rows_lp

/-- The block, instance and offset of a decoded register address (Tables GLB-1 to GLB-3), aliases of logical
tiles apart; apertures are not registers. -/
def decodeReg (a : Nat) : Option (Block × Nat × Nat) :=
  if a < 0x100000 then some (.glb, 0, a)
  else if a < 0x200000 then some (.hp, 0, a - 0x100000)
  else if a < 0x300000 then some (.pwr, 0, a - 0x200000)
  else if a < 0x400000 then some (.flt, 0, a - 0x300000)
  else if a < 0x500000 then (if a < 0x408000 then some (.fls, 0, a - 0x400000) else some (.smp, 0, a - 0x408000))
  else if a < 0x600000 then some (.obs, 0, a - 0x500000)
  else if a < 0x700000 then
    (if a < 0x601000 ∨ a ≥ 0x605000 then some (.pl, 0, a - 0x600000)
     else some (.pll, (a - 0x601000) / 0x1000, (a - 0x601000) % 0x1000))
  else if a < 0x800000 then some (.fp, (a - 0x700000) / 0x1000, a % 0x1000)
  else if a < 0x900000 then some (.bt, 0, a - 0x800000)
  else if a < 0xA00000 then some (.rq, 0, a - 0x900000)
  else if a < 0xB00000 then some (.lp, 0, a - 0xA00000)
  else if 0x10000000 ≤ a ∧ a < 0x14000000 then
    let p := (a - 0x10000000) / 0x1000000
    let o := a % 0x1000000
    if o < 0x100000 then some (.pipe, p, o)
    else if o < 0x200000 then some (.grn, p, o - 0x100000)
    else if o < 0x300000 then some (.bind, p, o - 0x200000)
    else if o < 0x400000 then some (.vd, p, o - 0x300000)
    else if o < 0x500000 then some (.tm, p, o - 0x400000)
    else none
  else if 0x20000000 ≤ a ∧ a < 0x21400000 then
    let s := (a - 0x20000000) / 0x100000
    let o := a % 0x100000
    if 0x1000 ≤ o ∧ o < 0x2000 then some (.shf, s, o - 0x1000)
    else if 0x2000 ≤ o ∧ o < 0x3000 then some (.thr, s, o - 0x2000)
    else some (.til, s, o)
  else none

/-- The row that covers an offset. -/
def findRow (rows : List RegRow) (o : Nat) : Option RegRow :=
  rows.find? fun r => r.off ≤ o && (o - r.off) % r.stride == 0 && (o - r.off) / r.stride < r.n

/-- The row of a register address. -/
def regRow (a : Nat) : Option RegRow :=
  match decodeReg a with
  | some (b, i, o) => if b = .fp ∧ i ≥ 16 then none else findRow (blockRows b) o
  | none => none

/-- The value after reset of the register at `a`: 0 where no row stands. QBASE of TM_PORT_CFG(i) is
i × 4 (Table TM-9). -/
def regReset (a : Nat) : Word :=
  match decodeReg a, regRow a with
  | some (.tm, _, o), some r =>
    if r.off = 0x10 then BitVec.ofNat 32 (r.reset + ((o - 0x10) / 4 * 4) <<< 20) else BitVec.ofNat 32 r.reset
  | _, some r => BitVec.ofNat 32 r.reset
  | _, none => 0

end Sys2Proof.Machine
end

