-- ==== Sys2Proof/Machine/State.lean ====
section
/-! DEFINITION. The state of the block as plain data: every register, table, queue, buffer, mode and pin the
spec gives it, the queue of waiting commands, and the state right after power-on. Tables are sparse
(`Tab`): an unlisted key reads as the table's default, which the accessors of Ops.lean name. -/

namespace Sys2Proof.Machine

/-! ### Report queues (R239 to R253) -/

/-- A record held by a report queue: its priority and sequence number, its bytes with the header of Table
RQ-1, and the pool cells it occupies, first cell first. -/
structure RqRec where
  prio : Nat
  seq : Nat
  bytes : Bytes
  cells : List Nat
deriving DecidableEq, Repr, Inhabited

/-- A priority list: its unreleased records from HEAD to TAIL, MARK and CURSOR as places in it (R246), and
the sequence number, address and time of detection of a pending RQ_ERROR of a failed link (R252). -/
structure RqList where
  recs : List RqRec
  mark : Nat
  cursor : Nat
  err : Option (Nat × Nat × Nat)
deriving DecidableEq, Repr, Inhabited

/-- A report queue: RQ_Q_CFG, MIN and LIMIT (R240), next SEQ (R243), OVERRUN (R244), LOST (R252), the eight
lists by priority, and the record buffer of its aperture (R248). -/
structure RqQueue where
  cfg : Word
  min : Nat
  limit : Nat
  seq : Nat
  overrun : Bool
  lost : Bool
  lists : Tab RqList
  buf : Bytes
deriving DecidableEq, Repr, Inhabited

/-- A record in its writer's staging queue (R245): the body is the record from byte 8 on. -/
structure Staged where
  writer : Nat
  queue : Nat
  prio : Nat
  type : Nat
  body : Bytes
deriving DecidableEq, Repr, Inhabited

/-- The report-queue manager: cells in use, queues, staged records in order of writing, and cells that a
link error left unreachable with the queue they count for (R252). -/
structure RqState where
  used : Tab Bool
  queues : Tab RqQueue
  staged : List Staged
  lostCells : List (Nat × Nat)
deriving DecidableEq, Repr, Inhabited

/-! ### Counters, sampling and trace (R360 to R373) -/

/-- A count on its way to the island (R363): time it was made (powered ns), counter, what it adds (none: a clear of SCOPE_CYCLES),
the counter's value before it. -/
structure CntOp where
  at_ : Nat
  idx : Nat
  add : Option Nat
  was : Dword
deriving DecidableEq, Repr, Inhabited

/-- Counters, sampling and trace: the 2,048 counters with all that was counted; what of it is still on its way (R363); the number of the next snapshot, the powered time in ns
at which its period began, and whether one was skipped since the last header (R367); each tile's trace queue, discarded records and due site marker, the
next write offset and deepest queue (R370). -/
structure ObsState where
  cnt : Tab Dword
  late : List CntOp
  snapNum : Nat
  snapAt : Nat
  skipped : Bool
  trq : Tab (List Bytes)
  trLost : Tab Nat
  trSite : Tab (Option Nat)
  trWr : Nat
  trDeep : Nat
deriving DecidableEq, Repr, Inhabited

/-! ### Frames, pipes (R36 to R58) -/

/-- Why a frame waits at the verdict unit (R27): the journal slot (local request) or forward-table entry of
its request, the end of its latency bound, the context whose DEFAULT and verdicts apply, the default class. -/
structure Hold where
  forwarded : Bool
  req : Nat
  until_ : Nat
  ctx : Nat
  defClass : Nat
deriving DecidableEq, Repr, Inhabited

/-- Where a frame stands: handed to a pipe; parsed and waiting for its end status (R40); bypassed and
waiting for it; held for a verdict; with its actions applied; being taken as a head (R279). -/
inductive FStage where
  | queued
  | parsed
  | bypassed
  | held
  | done
deriving DecidableEq, Repr, Inhabited

/-- The device-wide tables the weave image loads (R43): parse nodes (8 words), transition entries, key
profiles, class table, category maps, class-to-profile map, feature profiles, as bytes of their elements
(Table WV-3). -/
structure Weave where
  nodes : Tab (List Nat)
  trans : Tab (Nat × Nat × Nat)
  keyProfs : Tab Bytes
  classes : Tab Bytes
  cats : Tab Bytes
  profMap : Tab Nat
  featProfs : Tab Bytes
deriving DecidableEq, Repr, Inhabited

/-- A frame in the cell pool with its intake descriptor (Table FP-2): home partition, cells, reference count
(R221), bytes, receive stamp, port and sub-port, end status still pending, sequence, originating device,
frame length, head-buffer slot (pipe × 4,096 + HEAD_SLOT; none: 0xFFFF), descriptor-ring entry (R317), what the MAC saw of the
RS-FEC, where it stands, its Granary entry and that entry's identity, the class and ledger view the verdict unit needs, the IP
header the pipe found (R230), whether a pipe replays its descriptor (R322), and the tables that a descriptor whose end status is
awaited is processed under (R43). -/
structure Frame where
  part : Nat
  cells : List Nat
  refs : Nat
  bytes : Bytes
  gt : Nat
  port : Nat
  sub : Nat
  endPending : Bool
  ptp : Bool
  fecBad : Bool
  seq : Nat
  fromPeer : Bool
  srcDev : Nat
  length : Nat
  headSlot : Option Nat
  ring : Nat
  stage : FStage
  hold : Option Hold
  entry : Option (Nat × Nat)
  ipver : Nat
  ipoff : Nat
  color : Nat
  msgHdr : Bytes
  replayed : Bool
  tables : Option Weave
deriving DecidableEq, Repr, Inhabited

/-- A pipe: queued descriptors (frame handles) and, behind them, those of a failed pipe that wait to be replayed, bypass in force
(R32), out of service since (R77), head-buffer slots in use (R39), next entry of its descriptor ring (R317). -/
structure Pipe where
  dq : List Nat
  replay : List Nat
  bypass : Bool
  out : Option Nat
  headUsed : Tab Bool
  ringNext : Nat
deriving DecidableEq, Repr, Inhabited

/-- A load-channel or front-port sub-port: lanes in use (0: down), next receive sequence, stamp FIFO. -/
structure SubPort where
  lanes : Nat
  seq : Nat
deriving DecidableEq, Repr, Inhabited

/-! ### Granary (R59 to R84) -/

/-- VSTATE (Table VD-2). -/
structure VState where
  kind : Nat
  nan : Bool
  sampled : Bool
  cls : Nat
  gen : Nat
  vgen : Nat
  lslot : Option Nat
  score : Nat
  ctx : Nat
  conf : Nat
deriving DecidableEq, Repr, Inhabited

/-- A valid Granary entry (Table GRN-1) with the 40 bytes of KEY; `uid` tells successive entries of one slot
apart (the model's own, for the verdicts of a flow that has gone); `par`: the words whose parity bit in the sideband does not
match (R64). -/
structure GEnt where
  uid : Nat
  static : Bool
  pinned : Bool
  digest : Bool
  ksize : Nat
  cls : Nat
  port : Nat
  moves : Nat
  last : Nat
  first : Nat
  key : Bytes
  vs : VState
  par : Nat
deriving DecidableEq, Repr, Inhabited

/-- A share: flow and endpoint entries by entry index (R63; feature state lies in the tier), commit marks by
sub-port or link code (R69), eviction LFSR (R72), insert and move tokens (R71, R78), the last MOVE_SUPPRESS
record, and for each table the start of the pass and, by home bank, the bucket its bank visits next (R75). -/
structure Share where
  flow : Tab (Option GEnt)
  ep : Tab (Option GEnt)
  marks : Tab (Option Nat)
  lfsr : Word
  ins : Nat
  mov : Nat
  lastSup : Option Nat
  passFlow : Option (Nat × Tab Nat)
  passEp : Option (Nat × Tab Nat)
deriving DecidableEq, Repr, Inhabited

/-! ### Verdict unit (R201 to R218) -/

/-- A ledger slot in use (R208). -/
structure LSlot where
  entry : Nat
  uid : Nat
  cls : Nat
  opened : Bool
  pframes : Nat
  pbytes : Nat
  mbytes : Nat
  qleft : Nat
  since : Nat
deriving DecidableEq, Repr, Inhabited

/-- Sampling of a context (R215). -/
structure Samp where
  sx : Nat
  count : Nat
  quiet : Nat
  now : Bool
  last : Bool
deriving DecidableEq, Repr, Inhabited

/-- What waits at a verdict unit: a result record of R92 or a refusal, for a journal slot; the context, its
PLY, the generation and the record. -/
structure VdIn where
  refusal : Bool
  slot : Nat
  ctx : Nat
  ply : Nat
  gen : Nat
  body : Bytes
deriving DecidableEq, Repr, Inhabited

/-- A verdict unit: action table (four words a class), ledger, flow and queue-class counters as (frames,
bytes), sampling per device context, waiting results and refusals. -/
structure Vd where
  acts : Tab (List Nat)
  ledger : Tab (Option LSlot)
  flowCnt : Tab (Nat × Nat)
  qcCnt : Tab (Nat × Nat)
  samp : Tab Samp
  inq : List VdIn
deriving DecidableEq, Repr, Inhabited

/-! ### Traffic manager (R219 to R238) -/

/-- A queue entry (Table TM-4), or of a mirror copy; `frame` is the handle of the frame whose cells it
refers to. -/
structure QEnt where
  frame : Nat
  enq : Nat
  cells : Nat
  length : Nat
  slot : Option Nat
  colour : Nat
  tag : Bool
  mark : Bool
  markKind : Nat
  ce : Bool
  mirror : Bool
  dscp : Nat
  ipver : Nat
  ipoff : Nat
  tagw : Nat
  gen : Nat
  conf : Nat
deriving DecidableEq, Repr, Inhabited

/-- An egress queue: TM_Q_CFG, LIMIT, shaper words, tokens in microbytes and their time, deficit state,
drops, entries, the time of the last dequeue. -/
structure TmQueue where
  cfg : Nat
  limit : Nat
  shaper : Nat
  burst : Nat
  tokens : Int
  tokAt : Nat
  dc : Nat
  fresh : Bool
  drops : Nat
  ents : List QEnt
  deqAt : Nat
deriving DecidableEq, Repr, Inhabited

/-- A queue group. -/
structure TmGroup where
  cfg : Nat
  shaper : Nat
  burst : Nat
  tokens : Int
  tokAt : Nat
  dc : Nat
  fresh : Bool
  ptr : Nat
deriving DecidableEq, Repr, Inhabited

/-- A policer: configuration words, buckets in microbytes, time of the last charge. -/
structure Policer where
  cfg : Nat
  rate2 : Nat
  cbs : Nat
  ebs : Nat
  c : Nat
  e : Nat
  last : Nat
deriving DecidableEq, Repr, Inhabited

/-- A frame on its way out of a sub-port: its bytes, the handle whose cells are referred to (none for a
relayed PFC frame). -/
structure Tx where
  bytes : Bytes
  frame : Option Nat
deriving DecidableEq, Repr, Inhabited

/-- A traffic-manager slice: cells in use, cells lost to an unreadable link entry, queues, groups, pointer
of each (sub-port, priority), policers, AQM LFSR, pause timers as (observed from, until) in the order of their frames (R234), frames in
transmission per sub-port, sweep number (R236). -/
structure Tm where
  used : Tab Bool
  lost : List Nat
  queues : Tab TmQueue
  groups : Tab TmGroup
  ptrs : Tab Nat
  pols : Tab Policer
  lfsr : Word
  pause : Tab (List (Nat × Nat))
  tx : Tab (List Tx)
  sweepNo : Nat
deriving DecidableEq, Repr, Inhabited

/-! ### Requests (R88, R317) -/

/-- A request-journal slot in use (R317): request header and payload, admitted, its admission order, the
frame it holds, the entry's identity, the context it went to, whether it was sent under sampling (R215), and
for a request of a peer the (OPART, FENT, FPLY, SRC) its RSP echoes. -/
structure JSlot where
  admitted : Bool
  order : Nat
  hdr : Bytes
  payload : Bytes
  frame : Option Nat
  uid : Option Nat
  ctx : Nat
  sampled : Bool
  peer : Option (Nat × Nat × Nat × Nat)
deriving DecidableEq, Repr, Inhabited

/-- A forwarded request that awaits its RSP (R281). -/
structure Fwd where
  dev : Nat
  fply : Nat
  frame : Option Nat
  entry : Nat
  uid : Option Nat
  ctx : Nat
  gt : Nat
  sampled : Bool
  since : Nat
deriving DecidableEq, Repr, Inhabited

/-! ### Peer links (R269 to R290) -/

/-- A message on its way: kind of Table PL-1, destination, partition, source, number, turned back (R285),
virtual channel, the link it came in by (none: it starts here) and the virtual channel it came in on, bytes. -/
structure Msg where
  kind : Nat
  dst : Nat
  dpart : Nat
  src : Nat
  num : Nat
  rev : Bool
  vc : Nat
  via : Option Nat
  vin : Nat
  bytes : Bytes
deriving DecidableEq, Repr, Inhabited

/-- A peer link: up, miswired, retraining, working lanes, neighbour; the next SEQ to send and the last SEQ
accepted, NAK being sent, flits sent and not acknowledged, replays started since ACK last moved and when the
first started; credits held and credits owed by pool (R272); partial messages received by pool; messages queued
to go out (REQ and HEAD count against the high mark), by pool the flits already sent of the oldest of them; messages sent and
not wholly acknowledged, with the SEQ of their last flit; the flit last put on the line. -/
structure PLink where
  up : Bool
  miswire : Bool
  retraining : Bool
  lanes : Nat
  neighbour : Nat
  txSeq : Nat
  rxSeq : Nat
  nak : Bool
  replay : List Bytes
  replays : List Nat
  credits : Tab Nat
  owed : Tab Nat
  part : Tab (List Bytes)
  out : List Msg
  prog : Tab Nat
  sent : List (Msg × Nat)
  line : Bytes
deriving DecidableEq, Repr, Inhabited

/-- What a device knows of another: live, time of its last LIVE, start of its gap-free LIVE run, LIVE sequences heard in the last
millisecond with their times, ever heard, its four links down, mismatch reported. -/
structure Peer where
  live : Bool
  last : Nat
  stable : Nat
  seqs : List (Nat × Nat)
  heard : Bool
  down : Nat
  mismatch : Bool
deriving DecidableEq, Repr, Inhabited

/-- The peer-link layer: links, next MSG, own LIVE sequence, peers by device ID, messages accepted in the last
millisecond (SRC, MSG, time), forward tables and FPLY by partition, messages delivered to the outside. -/
structure Pl where
  links : Tab PLink
  msg : Nat
  liveSeq : Nat
  peers : Tab Peer
  seen : List (Nat × Nat × Nat)
  fwd : Tab (Option Fwd)
  fply : Tab Nat
deriving DecidableEq, Repr, Inhabited

/-! ### Tiles and contexts (R85 to R108) -/

/-- A request in a logical tile's request queue: its journal partition and slot. -/
structure Req where
  part : Nat
  slot : Nat
deriving DecidableEq, Repr, Inhabited

/-- What a model slot sets in the context record (Table TIL-1); `maps`: kept sections (R259) as (space, window
offset, size, where the storage lies). -/
structure SlotImg where
  streamBase : Nat
  streamLen : Nat
  regionBase : Nat
  regionSize : Nat
  reqBase : Nat
  reqStride : Nat
  knotBase : Nat
  knotCount : Nat
  tierBase : Nat
  tierSize : Nat
  lpBase : Nat
  lpSize : Nat
  knots : List Nat
  gen : Nat
  maps : List (Nat × Nat × Nat × Nat)
deriving DecidableEq, Repr, Inhabited

/-- A request buffer in use: journal slot, taken by TAKE, NaN latched (R161). -/
structure RBuf where
  part : Nat
  slot : Nat
  taken : Bool
  nan : Bool
deriving DecidableEq, Repr, Inhabited

/-- A context (Table TIL-1 and its run state): STATE, ACTIVE slot, PLY, the words of TIL_CTX_CFG, _BOUND and
_DEFAULT, the latched fault with its record's contents, what the ACTIVE slot set, ring position, count of
admitted requests, request buffers, batch (b, n), a TAKE since the last POST, ends FAULTED, waiting for its
region to be restored, teardown start, restart pending (re-take or not) after quiesce, RESULT of the last
command, TOKENS of its histories at the TAKE of the oldest batch that is outstanding (R318). -/
structure Ctx where
  state : Nat
  active : Nat
  ply : Nat
  cfg : Nat
  bound : Nat
  defCls : Nat
  fault : Nat
  faultInfo : Bytes
  overlap : Nat
  img : SlotImg
  pos : Nat
  admitted : Nat
  bufs : Tab (Option RBuf)
  b : Nat
  n : Nat
  fresh : Bool
  restoring : Bool
  downAt : Nat
  restart : Option Bool
  result : Nat
  toks : List (Nat × Nat)
deriving DecidableEq, Repr, Inhabited

/-- The work of an issued command as its engine takes it: the command's words, iterations (R95) and the first that is still to join
a pass (R168), the batch (b, n) and the slot at issue, what the engine meets. -/
structure Job where
  w : List Nat
  iters : Nat
  next : Nat
  b : Nat
  n : Nat
  img : SlotImg
  hits : List EngHit
deriving DecidableEq, Repr, Inhabited

/-- A scoreboard entry (R99): context, PLY at issue, engine and operation, ring position, signal (knot and count), iterations,
issue time and order, Sheaf span (Thresher: the braid member whose queue it is in; score port: device address of the record it
names, 0 for none) and the quarters it has (bits 0 to 3, odd member 4 to 7), retried, in a pass, its work while it waits in its
engine's queue (R134, R167, R182), ends without its work done, the bank groups that a score-port command in progress uses, traced
at its issue (R368). -/
structure SbEnt where
  ctx : Nat
  ply : Nat
  engine : Nat
  op : Nat
  index : Nat
  sig : Option (Nat × Nat)
  iters : Nat
  issued : Nat
  order : Nat
  span : Nat
  quarters : Nat
  retried : Bool
  inPass : Bool
  todo : Option Job
  gone : Bool
  groups : List Nat
  traced : Bool
deriving DecidableEq, Repr, Inhabited

/-- A STREAM command in a pass (R168): scoreboard entry, context and its PLY, SRAM addresses of its samples and
output rows, the request buffer each sample is linked to, NF and FOFF, when it joined and its window, the
accumulators and STATUS of each sample. With BATCH each iteration joins as a member of its own. -/
structure PMember where
  slot : Nat
  ctx : Nat
  ply : Nat
  samples : List Nat
  rows : List Nat
  links : List (Option Nat)
  nf : Nat
  foff : Nat
  joined : Nat
  window : Nat
  acc : List (List Nat)
  stat : List Nat
deriving DecidableEq, Repr, Inhabited

/-- A pass (R168, R169): device address of the header, TFIRST, TCOUNT, DEPTH, MODE, OUTPUTS, members in joining
order, trees evaluated so far, bytes of the next tree that have arrived, closed. -/
structure Pass where
  addr : Nat
  tfirst : Nat
  tcount : Nat
  depth : Nat
  round : Bool
  outputs : Nat
  members : List PMember
  done : Nat
  part : Nat
  closed : Bool
deriving DecidableEq, Repr, Inhabited

/-- A logical tile: the site it occupies, request queue, scoreboard, round-robin position per PRIO, last issue,
forming and running pass of its Thresher (a braid's odd member keeps its own). -/
structure Tile where
  site : Option Nat
  rq : List Req
  sb : Tab (Option SbEnt)
  rr : Tab Nat
  lastIssue : Nat
  form : Option Pass
  run : Option Pass
deriving DecidableEq, Repr, Inhabited

/-! ### Faults (R312 to R332) -/

/-- An error latch (R314): class, GT64, address, overlap, level of the recovery in progress. -/
structure Latch where
  cls : Nat
  gt : Nat
  addr : Nat
  overlap : Nat
  valid : Bool
  level : Nat
deriving DecidableEq, Repr, Inhabited

/-- An outstanding fault (R316): class, unit, partition, detection time, address, masked, action, re-sent
requests so far, ending record already written (it escalated). -/
structure OutFault where
  cls : Nat
  unit : Nat
  part : Nat
  detect : Nat
  addr : Nat
  masked : Bool
  dbl : Bool
  action : Nat
  redisp : Nat
  told : Bool
deriving DecidableEq, Repr, Inhabited

/-- A tile site: role (0 assigned, 1 spare, 2 retired or fenced, 3 none yet), its logical tile (31: none),
state epoch (low 16 bits), fenced. -/
structure SiteSt where
  role : Nat
  lt : Nat
  epoch : Nat
  fenced : Bool
deriving DecidableEq, Repr, Inhabited

/-- A crash capture in progress (R329): its slot address, scope, partition, the FAULT record that caused it,
class, start, what reset follows it. -/
structure Capt where
  addr : Nat
  scope : Nat
  part : Nat
  cause : Nat
  cls : Nat
  since : Nat
  num : Nat
deriving DecidableEq, Repr, Inhabited

/-- The fault and recovery controller: reset in progress, takeover or restore in progress by partition,
processor outvoted and resynchronising, island halted; capture number, next capture slot, captures in
progress; times of the last mismatch and hang by unit; contexts waiting for their region by tile in order;
copies of pairs cut off (bit 0 and 1) by pair; PLLs on the standby, and the powered
time at which each partition's TCLK runs again after a swap; requests that one context's restart waits
to re-take; contexts whose restart each outstanding (class, unit) awaits; the
island's canonical copy of the repair map (Table FLS-5; empty: the built-in default). -/
structure Flt where
  resetting : Bool
  takeover : Nat
  islOut : Option Nat
  islHalted : Bool
  capNo : Nat
  capSlot : Nat
  caps : List Capt
  mism : Tab (List Nat)
  hang : Tab (Option Nat)
  restore : Tab (List Nat)
  pairCut : Tab Nat
  pllOut : Nat
  pllSwap : Tab Nat
  resetReq : Bool
  waits : List (Nat × Nat × Nat)
  siteOut : List (Nat × Option Nat × Nat)
  repair : Bytes
deriving DecidableEq, Repr, Inhabited

/-! ### Model slots and the load channel (R254 to R268) -/

/-- A load-channel session (R267): sub-port code (PORT × 4 + SUB, or 64 + l), EtherType, when its timeout ends,
secret, image size, chunks received, frames rejected, the command block that waits for its chunks, and where in LPDDR5X the retained
copy lies that the chunks are written to. -/
structure Session where
  port : Nat
  etype : Nat
  until_ : Nat
  secret : Bytes
  size : Nat
  chunks : Tab Bool
  rejected : Nat
  waiting : Option Bytes
  copyAt : Nat
deriving DecidableEq, Repr, Inhabited

/-- A placed section that KEEP may carry to the next slot (R259): type, identifier, size, where it lies. -/
structure KeptSect where
  type : Nat
  id : Nat
  size : Nat
  addr : Nat
deriving DecidableEq, Repr, Inhabited

/-- A model slot (Table MDL-4): state (0 EMPTY, 1 LOADING, 2 LOADED, 3 ARMED, 4 ACTIVE, 5 DRAINING), what it
sets in the context record, its retained copy, digest, FLAGS, RQ and TAG of its LOAD, ACTIONS entries, kept
sections, allocations as (space, base, size), the request buffers and count of what an ARMED slot admitted, when
it was armed, whether its commit is forced. -/
structure ModelSlot where
  state : Nat
  img : SlotImg
  copyAt : Nat
  copyLen : Nat
  digest : Bytes
  flags : Nat
  rq : Nat
  tag : Nat
  actions : List (Nat × List Nat)
  kept : List KeptSect
  allocs : List (Nat × Nat × Nat)
  bufs : Tab (Option RBuf)
  admitted : Nat
  armedAt : Nat
  forced : Bool
deriving DecidableEq, Repr, Inhabited

/-! ### Power (R291 to R311) -/

/-- A partition as the power controller sees it: token bucket (nJ), last grant, tokens charged in this window,
share at the last boundary, throttle step, triggers holding, gliding, time of the last step up and of the start
of the trigger-free run, stretch events in this window and in all, stretching now and since when in powered ns, Tj and home-group
temperature. -/
structure PwrPart where
  bucket : Int
  grant : Nat
  spent : Nat
  share : Nat
  step : Nat
  trig : Nat
  gliding : Bool
  upAt : Option Nat
  calmAt : Nat
  stretches : Nat
  stretchAll : Nat
  stretching : Bool
  stretchAt : Nat
  tj : Int
  tier : Int
deriving DecidableEq, Repr, Inhabited

/-- A bank group: temperature, doubled refresh, hot, critical, budget halved in the window that runs, activations granted in the last
window, banks fenced, copies in progress (bank, spare, units copied), corrected units this scrub
period, time of the last CE record by bank, of the last BSE mismatches by bank,
banks whose BSE has failed, spares that were retired in their turn. -/
structure Group where
  temp : Int
  r2x : Bool
  hot : Bool
  crit : Bool
  halved : Bool
  actLast : Nat
  fenced : Tab Bool
  map : Tab (Option Nat)
  copying : List (Nat × Nat × Nat)
  ceUnits : Tab (List Nat)
  ceAt : Tab (Option Nat)
  bse : Tab (List Nat)
  bseOut : Tab Bool
  spent : List Nat
deriving DecidableEq, Repr, Inhabited

/-- The power and thermal controller: partitions, B, agreed PWR_LIMIT pins, PWR_FAIL_N
asserted, package power (0.1 W) of the last 100 windows, time of the last CAP_UNMET record, live fields as of the
last boundary, sensors as (reading, failed), consecutive trip samples, tripped, bank groups, energy in nJ not yet
counted in mJ, the minute being watched with its hottest die and tier readings (R349), energy demand raised in the window so far
(R300). -/
structure Pwr where
  parts : Tab PwrPart
  budget : Nat
  pins : Nat
  fail : Bool
  history : List Nat
  unmetAt : Option Nat
  eff : Tab Word
  sensors : Tab (Option (Int × Bool))
  trips : Tab Nat
  tripped : Bool
  groups : Tab Group
  packE : Nat
  minute : Option (Nat × Int × Int)
  demanded : Bool
deriving DecidableEq, Repr, Inhabited

/-! ### Bank-side engines (R181 to R199) -/

/-- The last reply of a bank operation (the header it answers, status of R181 and data), the score buffer of each logical bank
(R187), last times of island actions by kind, the score-port operations that wait at a critical group (R180). -/
structure Bank where
  hdr : BankHdr
  status : Nat
  data : Bytes
  scores : Tab (List Int)
  times : Tab Nat
  held : List Instr
deriving DecidableEq, Repr, Inhabited


/-! ### The island: mailbox, start, weave store, flash, Sampler -/

/-- The host port's mailbox (R417): command blocks queued, completion words waiting. -/
structure Mbox where
  queue : List Bytes
  done : List Nat
deriving DecidableEq, Repr, Inhabited

/-- A start and what it leaves (R390 to R400): stage or state code of Table STA-1, F, warm, entry after a main-supply fall,
begin of the start and of the stage, time not counted so far and since when it is not counted, VDD_AON and main supplies
good, port ready, running firmware image, loaded by the host, default weave asked for, IK mismatch, fuses: FW_SVN_MIN,
ENROL_EPOCH, LIFECYCLE, VROOT_REVOKE; attempt number; SerDes references that stage 0x09 found missing (R441). -/
structure Boot where
  stage : Nat
  f : Nat
  warm : Bool
  again : Bool
  began : Nat
  stageAt : Nat
  held : Nat
  heldAt : Option Nat
  aon : Bool
  main : Bool
  ready : Bool
  fw : Bytes
  hostLoaded : Bool
  defWeave : Bool
  idMismatch : Bool
  svnMin : Nat
  epoch : Nat
  lifecycle : Nat
  revoked : Nat
  attempt : Nat
  noRef : Nat
deriving DecidableEq, Repr, Inhabited

/-- A verified patch waiting for its APPLY_AT (R387): the command block, the image, whether APPLY_AT had passed. -/
structure Patch where
  block : Bytes
  image : Bytes
  at_ : Nat
  late : Bool
deriving DecidableEq, Repr, Inhabited

/-- The weave image as applied (R382 to R387): structure digest, ring digest, the digest before it and when it changed,
section types with LIVE set, default image applied, weave slot used at the last start, pending patch, LPDDR5X regions
(offset, size in 64 KiB units) by region number and the first unit of the model pool, records held until the queues are
loaded. -/
structure WvState where
  structure_ : Bytes
  ring : Bytes
  ringOld : Bytes
  ringAt : Nat
  live : List Nat
  default_ : Bool
  slot : Nat
  pending : Option Patch
  regions : Tab (Nat × Nat)
  poolAt : Nat
  held : List Staged
deriving DecidableEq, Repr, Inhabited

/-- A flash block (R337 to R339): erase count, reads since erase, time its oldest page was programmed, bad, holds valid
pages. -/
structure FBlock where
  erases : Nat
  reads : Nat
  progAt : Nat
  bad : Bool
  valid : Bool
deriving DecidableEq, Repr, Inhabited

/-- A flash page as programmed (R335): its four codewords of 4,576 bytes, and those of them that cannot be read. -/
structure FPage where
  cws : List Bytes
  lost : List Nat
deriving DecidableEq, Repr, Inhabited

/-- A commit unit (R341) as the MAP names it: kind of Table FLS-2; index of a library entry, of a weave slot (from 256 on) or of a
capture slot; copy; SEQ; the block it lies in; its data pages, which the mark page follows. -/
structure FUnit where
  kind : Nat
  idx : Nat
  copy : Nat
  seq : Nat
  blk : Nat
  pages : Nat
deriving DecidableEq, Repr, Inhabited

/-- The flash (R333 to R350, R447): pages by block × 2^32 + page; the working copy of the MAP; the batches of the system journal since
the last checkpoint and the SEQ of the next (R342); library entries that are unusable; the next capture slot; captures that
wait to be copied as (NUMBER, LPDDR5X address, length); blocks; powered time of the last patrol pass; is a pass asked for; pages of a
block and read-retry levels, as the parameter page gives them; the channels whose interface is NV-LPDDR4 and no longer SDR mode 0 (R334);
FCc_WP_N, and the sixteen FCc_CE_N. -/
structure Flash where
  pages : Tab FPage
  units : List FUnit
  journal : List FUnit
  nextBatch : Nat
  unusable : Tab Bool
  nextCap : Nat
  capWait : List (Nat × Nat × Nat)
  blocks : Tab FBlock
  patrolAt : Nat
  patrolling : Bool
  blockPages : Nat
  levels : Nat
  lpddr4 : Nat
  wpN : Bool
  ceN : Nat
deriving DecidableEq, Repr, Inhabited

/-- A Sampler record (Table FLS-7): sequence, TYPE, body, GT64, LAST_GT64, REPEAT, CONT, in a committed page. -/
structure SmpRec where
  seq : Nat
  type : Nat
  body : Bytes
  gt : Nat
  last : Nat
  rep : Nat
  cont : Bool
  committed : Bool
deriving DecidableEq, Repr, Inhabited

/-- A committed log page (R355): page number, GT64 of the commit, records. -/
structure LogPage where
  num : Nat
  gt : Nat
  recs : List SmpRec
deriving DecidableEq, Repr, Inhabited

/-- The Sampler (R351 to R358): live ring, next sequence, committed log pages, next page number, read cursor, sequence of the record
last returned, page that a read waits for, page fetched, aperture buffer. -/
structure Smp where
  ring : List SmpRec
  next : Nat
  log : List LogPage
  pages : Nat
  cursor : Nat
  pos : Nat
  fetching : Option Nat
  fetched : Option Nat
  buf : Bytes
deriving DecidableEq, Repr, Inhabited

/-- The host port (R409 to R418, R444): armed for RST, the held read (address, LEN, status then data), a WR dropped or a CRC
failed since the last RDSR, device address of the last error, SMBus alert latched, SMB_ADDR as sampled, the last telemetry sample (words by code, VDD_Pp at 0x20 + p). -/
structure HostPort where
  rsten : Bool
  held : Option (Nat × Nat × Bytes)
  dropped : Bool
  crcFailed : Bool
  errAddr : Nat
  alert : Bool
  smbAddr : Nat
  tele : Tab Nat
deriving DecidableEq, Repr, Inhabited

/-- LPDDR5X channels (R327, R445, R452): stored training values reused at the last start (bitmap), corrections as (channel, time) of the
last second, uncorrectable errors since power-on by channel. -/
structure LpState where
  warm : Nat
  recent : List (Nat × Nat)
  ues : Tab Nat
deriving DecidableEq, Repr, Inhabited

/-- Global Time as the island disciplines it (R442): TIME_REF, TIME_1PPS_IN and PTP valid, source in use (1 to 3), a source has set it,
nanoseconds still to be slewed and those counted since the last slewed one, nanoseconds since PGOOD_AON rose. -/
structure TimeState where
  ref : Bool
  pps : Bool
  ptp : Bool
  source : Nat
  isSet : Bool
  slew : Int
  count : Nat
  up : Nat
deriving DecidableEq, Repr, Inhabited

/-! ### The whole -/

/-- The state of the device. -/
structure State where
  /-- The commands that wait, first in, first out (the model's own field). -/
  pending : List Instr
  /-- Index of the next free value (the model's own field, log entry 11). -/
  freeCtr : Nat
  /-- Global Time, GT64: whole nanoseconds (R26, R430). -/
  gt : Nat
  /-- What the last host-port or SMBus transaction returned, status byte first (R409 to R412, R444). -/
  reply : Bytes
  /-- Registers by device address; an unlisted register holds its reset value. -/
  regs : Tab Word
  /-- Tile SRAM, bonded tier and LPDDR5X by device address (R421); unlisted bytes read 0 (log entry 4). -/
  mem : Tab Byte
  /-- The exchange buffer, 8 MiB (R421). -/
  xbuf : Tab Byte
  /-- Remainders of the counters that count in divided units, by register address. -/
  frac : Tab Nat
  /-- Report queues. -/
  rq : RqState
  /-- Counters, sampling and trace. -/
  obs : ObsState
  /-- Records waiting for the Sampler (R351): a source code and a body. -/
  smpIn : List (Nat × Bytes)
  /-- Frames in the cell pools, by handle: partition × 2^24 + first cell. -/
  frames : Tab (Option Frame)
  /-- The four pipes. -/
  pipes : Tab Pipe
  /-- Sub-ports, by PORT × 4 + SUB. -/
  subs : Tab SubPort
  /-- Transmit-stamp FIFO of each port (R38). -/
  stamps : Tab (List Nat)
  /-- Frames that the front ports of a partition received, by partition: (µs of Global Time, frames in it) (R5). -/
  arrivals : Tab (Nat × Nat)
  /-- The intake tables of the weave image. -/
  weave : Weave
  /-- The four Granary shares. -/
  shares : Tab Share
  /-- Next identity of a Granary entry (the model's own field). -/
  uids : Nat
  /-- The four verdict units. -/
  vds : Tab Vd
  /-- The four traffic-manager slices. -/
  tms : Tab Tm
  /-- Request journals, by partition × 2^20 + slot (R317). -/
  jrnl : Tab (Option JSlot)
  /-- Next admission order (the model's own field). -/
  jorder : Nat
  /-- Peer links. -/
  pl : Pl
  /-- Logical tiles. -/
  tiles : Tab Tile
  /-- Contexts, by device context number. -/
  ctxs : Tab Ctx
  /-- Knots, by logical tile × 8,192 + knot (R96). -/
  knots : Tab Nat
  /-- Error latches, by the unit code of FLT_LATCH_SEL (R314). -/
  latches : Tab Latch
  /-- Outstanding faults (R316). -/
  faults : List OutFault
  /-- The twenty tile sites. -/
  sites : Tab SiteSt
  /-- The fault and recovery controller. -/
  flt : Flt
  /-- Banks of a group moved to a spare so far, by group (R197); at 2 no spare is left. -/
  spares : Tab Nat
  /-- Load-channel sessions 0 to 3 (R267). -/
  sessions : Tab (Option Session)
  /-- Model slots, by device context × 2 + slot (R258). -/
  slots : Tab ModelSlot
  /-- Codewords of tile SRAM, tier and LPDDR5X found uncorrectable, by first address (R455). -/
  bad : Tab Bool
  /-- Codewords of the tier that a retirement copy carried raw (R455). -/
  carried : Tab Bool
  /-- The power and thermal controller. -/
  pwr : Pwr
  /-- The bank-side engines: last reply, score buffers. -/
  bank : Bank
  /-- Generation of each device context, kept in the island (R264). -/
  gens : Tab Nat
  /-- The mailbox. -/
  mbox : Mbox
  /-- The start, the running firmware and the fuses (log entry 10). -/
  boot : Boot
  /-- The weave image as applied. -/
  wv : WvState
  /-- The flash. -/
  flash : Flash
  /-- The Sampler. -/
  smp : Smp
  /-- LIFE fields by byte offset of Table FLS-6 (R349). -/
  life : Tab Nat
  /-- The host port's own state. -/
  hp : HostPort
  /-- LPDDR5X channels. -/
  lp : LpState
  /-- Global Time sources. -/
  time : TimeState
  /-- One above the ACLK cycle of the last epoch advance (R428). -/
  epochAt : Nat
  /-- Cause of the last epoch advance, not yet latched by a read (R428). -/
  epochCause : Nat
deriving DecidableEq, Repr, Inhabited

/-- Why a step stops with a fault. No command of the table faults: the device reports its own faults as
effects on its state (R314), so nothing in the model raises this; it is safe. -/
inductive Fault where
  /-- Raised by no command; safe. -/
  | none
deriving DecidableEq, Repr

/-- Why a step refuses a command. -/
inductive Refusal where
  /-- A row of the table whose meaning is not written; raised by an arm of `exec`; safe. -/
  | notModelled (mnemonic : String)
deriving DecidableEq, Repr

/-- The state at power-on, before PGOOD_AON rises (R437): every register at the Reset value of its field map,
every table empty, no command waiting (log entries 4, 5 and 12). -/
def State.reset : State where
  pending := []
  freeCtr := 0
  gt := 0
  reply := []
  regs := []
  mem := []
  xbuf := []
  frac := []
  rq := { used := [], queues := [], staged := [], lostCells := [] }
  obs := { cnt := [], late := [], snapNum := 0, snapAt := 0, skipped := false, trq := [], trLost := [], trSite := [], trWr := 0, trDeep := 0 }
  smpIn := []
  frames := []
  pipes := []
  subs := []
  stamps := []
  arrivals := []
  weave := { nodes := [], trans := [], keyProfs := [], classes := [], cats := [], profMap := [], featProfs := [] }
  shares := []
  uids := 0
  vds := []
  tms := []
  jrnl := []
  jorder := 0
  pl := { links := [], msg := 0, liveSeq := 0, peers := [], seen := [], fwd := [], fply := [] }
  tiles := []
  ctxs := []
  knots := []
  latches := []
  faults := []
  sites := []
  flt := { resetting := false, takeover := 0, islOut := none, islHalted := false, capNo := 0, capSlot := 0, caps := [], mism := [], hang := [], restore := [], pairCut := [], pllOut := 0, pllSwap := [], resetReq := false, waits := [], siteOut := [], repair := [] }
  spares := []
  sessions := []
  slots := []
  bad := []
  carried := []
  pwr := { parts := [], budget := 760, pins := 7, fail := false, history := [], unmetAt := none, eff := [], sensors := [], trips := [], tripped := false, groups := [], packE := 0, minute := none, demanded := false }
  bank := { hdr := ⟨0, 0, 0, 0⟩, status := 0, data := [], scores := [], times := [], held := [] }
  gens := []
  mbox := { queue := [], done := [] }
  boot := { stage := 1, f := 0, warm := false, again := false, began := 0, stageAt := 0, held := 0, heldAt := none, aon := false, main := false, ready := false, fw := [], hostLoaded := false, defWeave := false, idMismatch := false, svnMin := 0, epoch := 0, lifecycle := 1, revoked := 0, attempt := 0, noRef := 0 }
  wv := { structure_ := [], ring := [], ringOld := [], ringAt := 0, live := [], default_ := false, slot := 0, pending := none, regions := [], poolAt := 0, held := [] }
  flash := { pages := [], units := [], journal := [], nextBatch := 1, unusable := [], nextCap := 0, capWait := [], blocks := [], patrolAt := 0, patrolling := false, blockPages := 0, levels := 0, lpddr4 := 0, wpN := false, ceN := 0xFFFF }
  smp := { ring := [], next := 0, log := [], pages := 0, cursor := 0, pos := 0, fetching := none, fetched := none, buf := [] }
  life := []
  hp := { rsten := false, held := none, dropped := false, crcFailed := false, errAddr := 0, alert := false, smbAddr := 0, tele := [] }
  lp := { warm := 0, recent := [], ues := [] }
  time := { ref := false, pps := false, ptp := false, source := 3, isSet := false, slew := 0, count := 0, up := 0 }
  epochAt := 0
  epochCause := 0

end Sys2Proof.Machine
end

