-- ==== Sys2Proof/Machine/Ops.lean ====
section
/-! DEFINITION. The named operations over registers, counters, memory, free values, the global epoch and the
staging of reports. Every meaning reaches the state through these. -/

namespace Sys2Proof.Machine

/-! ### Registers -/

/-- The value of the register at device address `a` (R9, R423). -/
def rg (s : State) (a : Nat) : Nat := (tget (regReset a) s.regs a).toNat

/-- Store a register. -/
def rgw (s : State) (a v : Nat) : State :=
  { s with regs := tset (regReset a) s.regs a (BitVec.ofNat 32 v) }

/-- Bits [hi:lo] of a register. -/
def rgf (s : State) (a hi lo : Nat) : Nat := bits (rg s a) hi lo

/-- Bit `i` of a register. -/
def rgb (s : State) (a i : Nat) : Bool := bit (rg s a) i

/-- A number with its bits [hi:lo] replaced. -/
def putBits (w hi lo v : Nat) : Nat :=
  w - (bits w hi lo) * 2 ^ lo + (v % 2 ^ (hi + 1 - lo)) * 2 ^ lo

/-- Store bits [hi:lo] of a register. -/
def rgwf (s : State) (a hi lo v : Nat) : State := rgw s a (putBits (rg s a) hi lo v)

/-- Set or clear bit `i` of a register. -/
def rgwb (s : State) (a i : Nat) (v : Bool) : State := rgwf s a i i (b2n v)

/-- Count `n` in a 32-bit RC field that saturates at 0xFFFF_FFFF (R58 and the register rule of each chapter). -/
def bumpN (s : State) (a n : Nat) : State := rgw s a (min (rg s a + n) 0xFFFFFFFF)

/-- Count one in a saturating RC field. -/
def bump (s : State) (a : Nat) : State := bumpN s a 1

/-- Count `n` in a counter of units of `d`: the remainder is kept. -/
def bumpDiv (s : State) (a n d : Nat) : State :=
  let t := tget 0 s.frac a + n
  bumpN { s with frac := tset 0 s.frac a (t % d) } a (t / d)

/-- Registers of the form 'values above hi act as hi, below lo as lo'. -/
def actAs (lo hi v : Nat) : Nat := clampN lo hi v

/-! ### Always-on counters (R360) -/

/-- The ACLK cycle in which the island applies what a unit counted at a time: tCNT_LAG later (R363). -/
def arrives (o : CntOp) : Nat := (o.at_ + 200) / 10

/-- A count on its way to the island, beside those that have not been applied before this ACLK cycle. -/
def lateAdd (s : State) (o : CntOp) : List CntOp := (s.obs.late.filter fun e => decide (arrives e ≥ s.time.up / 10)) ++ [o]

/-- Add to a counter, modulo 2^64. -/
def cinc (s : State) (i n : Nat) : State :=
  let v := tget 0 s.obs.cnt i
  { s with obs := { s.obs with cnt := tset 0 s.obs.cnt i (v + BitVec.ofNat 64 n), late := lateAdd s ⟨s.time.up, i, some n, v⟩ } }

/-- Index of counter `k` of logical tile `l` (Table OBS-1). -/
def cTile (l k : Nat) : Nat := 32 * l + k
/-- Index of counter `k` of partition `p`. -/
def cPart (p k : Nat) : Nat := 640 + 64 * p + k
/-- Index of counter `k` of front port `n`. -/
def cPort (n k : Nat) : Nat := 896 + 16 * n + k
/-- Index of counter `k` of peer link `l`. -/
def cLink (l k : Nat) : Nat := 1152 + 16 * l + k
/-- Index of counter `k` of LPDDR5X channel `c`. -/
def cChan (c k : Nat) : Nat := 1216 + 4 * c + k
/-- Index of counter `k` of bank group `g`. -/
def cGroup (g k : Nat) : Nat := 1280 + 2 * g + k
/-- Index of device counter `k`. -/
def cDev (k : Nat) : Nat := 1408 + k

/-! ### Memory -/

/-- `n` bytes at device address `a`. -/
def memR (s : State) (a n : Nat) : Bytes := tread s.mem a n

/-- LPDDR5X offset 0 (Table GLB-1). -/
def lpBase : Nat := 0x8000000000

/-- Bytes of the ECC codeword that starts at `a`: 64 in LPDDR5X, 32 in the tier and tile SRAM (R455). -/
def cwSize (a : Nat) : Nat := if a ≥ lpBase then 64 else 32

/-- First address of the codeword of `a`. -/
def cwOf (a : Nat) : Nat := a / cwSize a * cwSize a

/-- The first uncorrectable codeword that `n` bytes at `a` touch. -/
def memBad (s : State) (a n : Nat) : Option Nat :=
  (s.bad.find? fun e => decide (e.1 < a + n ∧ a < e.1 + cwSize e.1)).map fun e => e.1

/-- An uncorrectable codeword that a write of `n` bytes at `a` covers only in part: the write fails (R455). -/
def memWBad (s : State) (a n : Nat) : Option Nat :=
  (s.bad.find? fun e => decide (e.1 < a + n ∧ a < e.1 + cwSize e.1) && !decide (a ≤ e.1 ∧ e.1 + cwSize e.1 ≤ a + n)).map fun e => e.1

/-- LPDDR5X channels in service (R327). -/
def lpChans (s : State) : List Nat := (List.range 16).filter fun c => !rgb s rLP_STATUS (16 + c)

/-- The channel of an LPDDR5X address: 4 KiB interleave over the channels in service (R445). -/
def lpChan (s : State) (a : Nat) : Nat :=
  let l := lpChans s
  l.getD ((a - lpBase) / 4096 % max 1 l.length) 0

/-- 64-byte units of LPDDR5X that `n` bytes at `a` touch, counted as counter `k` of their channels (Table OBS-2). -/
def lpCount (s : State) (k a n : Nat) : State :=
  if a < lpBase ∨ n = 0 then s
  else (List.range ((a + n - 1) / 4096 + 1 - a / 4096)).foldl (fun s i =>
    let lo := max a ((a / 4096 + i) * 4096)
    let hi := min (a + n) ((a / 4096 + i + 1) * 4096)
    cinc s (cChan (lpChan s lo) k) ((hi - 1) / 64 + 1 - lo / 64)) s

/-- Store bytes at device address `a`: a codeword covered whole reads good from then on, one covered in part that
is uncorrectable keeps the write from storing anything (R455). -/
def memW (s : State) (a : Nat) (l : Bytes) : State :=
  if (memWBad s a l.length).isSome then s
  else
    let keep := fun (e : Nat × Bool) => !decide (a ≤ e.1 ∧ e.1 + cwSize e.1 ≤ a + l.length)
    { lpCount s 1 a l.length with mem := twrite s.mem a l, bad := s.bad.filter keep, carried := s.carried.filter keep }

/-- An array fault makes the codeword of an address uncorrectable. -/
def strike (s : State) (a : Nat) : State := { s with bad := tset false s.bad (cwOf a) true }

/-- Device address of byte 0 of the SRAM of site `t` (Table GLB-1). -/
def sramBase (t : Nat) : Nat := 0x100000000 + t * 0x2000000
/-- Device address of tier address 0. -/
def tierBase : Nat := 0x1000000000

/-! ### Free values (log entry 11) -/

/-- Draw a free value of `w` bits: nothing is known of it. -/
def drawFree (s : State) (w : Nat) : Nat × State :=
  ((Config.freeBits w s.freeCtr).toNat, { s with freeCtr := s.freeCtr + 1 })

/-! ### Global epoch (R325, R428) -/

/-- One advance of the global epoch with its cause; several in one ACLK cycle are one, with the lowest cause. -/
def epochAdvance (s : State) (cause : Nat) : State :=
  if s.epochAt = s.gt / 10 + 1 then { s with epochCause := min s.epochCause cause }
  else
    let s := { s with epochAt := s.gt / 10 + 1, epochCause := cause }
    rgw s rGLB_EPOCH ((rg s rGLB_EPOCH + 1) % 2 ^ 32)

/-! ### What every unit reports to the island: Sampler events, lifetime counts -/

/-- An event for the Sampler (R351): its TYPE and body. -/
def smpEvent (s : State) (type : Nat) (body : Bytes) : State := { s with smpIn := s.smpIn ++ [(type, body)] }

/-- Count in a 32-bit LIFE field at a byte offset of Table FLS-6. -/
def lifeInc (s : State) (off : Nat) : State := { s with life := tset 0 s.life off (min (tget 0 s.life off + 1) 0xFFFFFFFF) }

/-- Count in bits [hi:lo] of SITE_FAULTS of site `t`, saturating. -/
def lifeSite (s : State) (t hi lo : Nat) : State :=
  let w := tget 0 s.life (176 + 4 * t)
  { s with life := tset 0 s.life (176 + 4 * t) (putBits w hi lo (min (bits w hi lo + 1) (2 ^ (hi + 1 - lo) - 1))) }

/-! ### The mailbox: what every island command uses (R417) -/

/-- Loads that wait for a session's chunks. -/
def loadsRunning (s : State) : Nat := (s.sessions.filter fun e => match e.2 with | some v => v.waiting.isSome | none => false).length

/-- Commands that run and have not ended: loads that wait for a session's chunks, a patch that waits for its APPLY_AT. -/
def mboxRunning (s : State) : Nat := loadsRunning s + b2n s.wv.pending.isSome

/-- A command ends: its completion word, OP, STATUS, TAG. -/
def mboxDone (s : State) (op status tag : Nat) : State :=
  { s with mbox := { s.mbox with done := s.mbox.done ++ [op % 256 * 2 ^ 24 + status % 256 * 65536 + tag % 65536] } }

/-- The command that is started next: the head of the queue, once its completion word has room; none while the island is
halted (R324). -/
def mboxHead (s : State) : Option Bytes :=
  if !s.flt.islHalted && decide (s.mbox.done.length + mboxRunning s < 16) then s.mbox.queue.head? else none

/-- Run the head of the mailbox queue if its OP is `op`. -/
def mboxRun (s : State) (op : Nat) (run : State → Bytes → State) : State :=
  match mboxHead s with
  | none => s
  | some b => if byteAt b 0 = op then run { s with mbox := { s.mbox with queue := s.mbox.queue.tail } } b else s

/-- The start has reached RUNNING. -/
def running (s : State) : Bool := s.boot.stage == 0x10

/-! ### Report queues: what every writer uses -/

/-! ### Bank groups (R175, R176, R197) -/

/-- A bank group at reset. -/
def group0 : Group :=
  { temp := 0, r2x := false, hot := false, crit := false, halved := false, actLast := 0, fenced := [], map := [],
    copying := [], ceUnits := [], ceAt := [], bse := [], bseOut := [], spent := [] }

/-- Bank group `g`. -/
def groupGet (s : State) (g : Nat) : Group := tget group0 s.pwr.groups g

/-- Store a bank group. -/
def groupPut (s : State) (g : Nat) (v : Group) : State := { s with pwr := { s.pwr with groups := tset group0 s.pwr.groups g v } }

/-- Bytes of a bank. -/
def bankSize : Nat := 0x200000

/-- Device address of bank offset 0 of logical bank `n` (R175). -/
def bankA (n : Nat) : Nat := tierBase + n * bankSize

/-- A logical bank is fenced (R197). -/
def bankFenced (s : State) (n : Nat) : Bool := tget false (groupGet s (n / 64)).fenced (n % 64)

/-- The logical bank of a tier device address. -/
def bankOf (a : Nat) : Nat := (a - tierBase) / bankSize

/-! ### Staging of records (R244, R245) -/

/-- An empty priority list. -/
def rqList0 : RqList := { recs := [], mark := 0, cursor := 0, err := none }

/-- A report queue at reset: EN 1, ALERT_PRIO 6, MIN 0, LIMIT 8,192 (Tables RQ-7 and RQ-8). -/
def rqQueue0 : RqQueue :=
  { cfg := 0x86000000, min := 0, limit := 8192, seq := 0, overrun := false, lost := false,
    lists := [], buf := [] }

/-- Queue `q`. -/
def rqGet (s : State) (q : Nat) : RqQueue := tget rqQueue0 s.rq.queues q

/-- Store queue `q`. -/
def rqPut (s : State) (q : Nat) (v : RqQueue) : State :=
  { s with rq := { s.rq with queues := tset rqQueue0 s.rq.queues q v } }

/-- A record refused at queue `q`: SEQ is consumed, OVERRUN set, RQ_REFUSED counts (R244). -/
def rqRefuse (s : State) (q : Nat) : State :=
  let v := rqGet s q
  bump (rqPut s q { v with seq := (v.seq + 1) % 2 ^ 32, overrun := true }) rRQ_REFUSED

/-- A writer hands over a record: it joins the writer's staging queue of 256, or is refused at its target
queue and counted in RQ_STAGE_DROP (R245). -/
def stage (s : State) (writer queue prio type : Nat) (body : Bytes) : State :=
  if (s.rq.staged.filter fun r => r.writer == writer).length ≥ 256 then
    bump (rqRefuse s queue) rRQ_STAGE_DROP
  else
    { s with rq := { s.rq with staged := s.rq.staged ++ [⟨writer, queue, prio, type, body⟩] } }

end Sys2Proof.Machine
end

