-- ==== Sys2Proof/Machine/Observe.lean ====
section
/-! DEFINITION. Always-on counters, the counter sampler and trace (R360 to R373). -/

namespace Sys2Proof.Machine

/-! ### Reading counters -/

/-- Counter `i` in the island's array: what has arrived by this ACLK cycle (R363). -/
def cntHeld (s : State) (i : Nat) : Dword :=
  match s.obs.late.find? fun o => o.idx == i && decide (arrives o > s.time.up / 10) with
  | some o => o.was
  | none => tget 0 s.obs.cnt i

/-- Counter `i` as it stands: reserved indices, and L16 to L19 in guarded mode, read as zero (R360, R361). -/
def cntRead (s : State) (i : Nat) : Nat :=
  if i ≥ 1536 then 0
  else if 512 ≤ i ∧ i < 640 ∧ ¬ rgb s rGLB_CONFIG 29 then 0
  else (cntHeld s i).toNat

/-- Is `i` the SCOPE_CYCLES counter of a tile. -/
def isScope (i : Nat) : Bool := decide (i < 640) && i % 32 == 18

/-- The value of a counter for a read, snapshot or sample, with the reset-coincident flag: in the ACLK cycle
of a clear of SCOPE_CYCLES the value held at the start, with RC (R365). -/
def cntSample (s : State) (i : Nat) : Nat × Bool :=
  match s.obs.late.find? fun o => o.idx == i && o.add.isNone && arrives o == s.time.up / 10 with
  | some o => if isScope i && (i < 512 || rgb s rGLB_CONFIG 29) then (o.was.toNat, true) else (cntRead s i, false)
  | none => (cntRead s i, false)

/-- COUNTER_READ: a read of OBS_CNT_LO captures the counter and latches its high word (R366). -/
def counterRead (s : State) : Nat × State :=
  let (v, rc) := cntSample s (rgf s rOBS_CNT_SEL 10 0)
  let s := rgw s rOBS_CNT_HI (v / 2 ^ 32)
  let s := rgwf s rOBS_CMD_STATUS 0 0 (b2n rc)
  (v % 2 ^ 32, s)

/-- One count on its way, over counters that were cleared: their sums so far, and what is on its way. -/
def lateClear (lo hi : Nat) (a : Tab Dword × List CntOp) (o : CntOp) : Tab Dword × List CntOp :=
  if o.idx < lo ∨ o.idx > hi then (a.1, a.2 ++ [o])
  else
    let v := tget 0 a.1 o.idx
    (tset 0 a.1 o.idx (match o.add with | some n => v + BitVec.ofNat 64 n | none => 0), a.2 ++ [{ o with was := v }])

/-- Clear counters `lo` to `hi`; what arrives in this cycle or later is applied after the clear (R366). -/
def cntClear (s : State) (lo hi : Nat) : State :=
  let kept := s.obs.cnt.filter fun e => decide (e.1 < lo ∨ e.1 > hi)
  let (sums, late) := (s.obs.late.filter fun o => decide (arrives o ≥ s.time.up / 10)).foldl (lateClear lo hi) ([], [])
  { s with obs := { s.obs with cnt := sums.foldl (fun t e => tset 0 t e.1 e.2) kept, late := late } }

/-- OBS_CMD CLEAR over OBS_CLR_RANGE; LAST below FIRST acts as FIRST. -/
def obsClear (s : State) : State :=
  let first := rgf s rOBS_CLR_RANGE 10 0
  let last := rgf s rOBS_CLR_RANGE 26 16
  cntClear s first (max first last)

/-- A command start at tile `l`, engine `e`, device context `ctx` clears SCOPE_CYCLES when OBS_SCOPE(l)
matches, at its place among the counts on their way (R364). -/
def scopeStart (s : State) (l e ctx : Nat) : State :=
  let a := rOBS_SCOPE l
  let eng := rgf s a 29 27
  let eng := if eng ≥ 6 then 0 else eng
  if rgb s a 31 && eng == e && (rgb s a 30 || rgf s a 14 0 == ctx) then
    let i := cTile l 18
    { s with obs := { s.obs with cnt := tset 0 s.obs.cnt i 0, late := lateAdd s ⟨s.time.up, i, none, tget 0 s.obs.cnt i⟩ } }
  else s

/-! ### The sampler (R367) -/

/-- Snapshot header, 32 bytes (Table OBS-3). -/
def snapHeader (count : Nat) (skipped : Bool) (num gt : Nat) : Bytes :=
  leBytes 2 count ++ leBytes 1 (b2n skipped) ++ [0xC5] ++ leBytes 4 num ++ leBytes 8 gt ++ leBytes 16 0

/-- Snapshot entry, 16 bytes (Table OBS-4). -/
def snapEntry (s : State) (i : Nat) : Bytes :=
  let (v, rc) := cntSample s i
  leBytes 2 i ++ leBytes 1 (b2n rc) ++ leBytes 5 0 ++ leBytes 8 v

/-- The counters selected by OBS_SMPL_MASK, in ascending index. -/
def snapSelected (s : State) : List Nat :=
  (List.range 64).flatMap fun w =>
    let m := rg s (rOBS_SMPL_MASK w)
    if m = 0 then [] else ((List.range 32).filter fun j => bit m j).map fun j => 32 * w + j

/-- Write 16-byte units into a ring of `size` bytes at `base`, wrapping; answers the state, the next offset
and whether the end was passed. -/
def ringWrite (s : State) (base size : Nat) : Nat → Bytes → Nat → Nat × Bool × State
  | 0, _, off => (off, false, s)
  | n + 1, b, off =>
    let s := memW s (base + off) (b.take 16)
    let off' := if off + 16 ≥ size then 0 else off + 16
    let (o, w, t) := ringWrite s base size n (b.drop 16) off'
    (o, w || decide (off + 16 ≥ size), t)

/-- Take one snapshot into the sample ring: the pad that aligns the header, the header, an entry for each
selected counter; with WRAP 0 a snapshot that would not fit stops the sampler and sets FULL (R367), which a snapshot
taken after WRAP is set clears (log entry 113). -/
def snapshotTake (s : State) : State :=
  let size := rg s rOBS_SRING_SIZE * 65536
  let wrap := rgb s rOBS_SMPL_CFG 30
  let off := rg s rOBS_SRING_WR * 16
  let off := if wrap && decide (off ≥ size) then 0 else off
  if size = 0 ∨ (rgb s rOBS_SMPL_STATUS 31 && !wrap) then s else
  let sel := snapSelected s
  let pad : Bytes := if off % 32 = 16 then [0, 0, 0, 0xA0] ++ leBytes 12 0 else []
  let data := pad ++ snapHeader sel.length s.obs.skipped s.obs.snapNum s.gt ++ sel.flatMap (snapEntry s)
  if !wrap && decide (off + data.length > size) then rgwb s rOBS_SMPL_STATUS 31 true
  else
    let base := lpBase + rg s rOBS_SRING_BASE * 65536
    let (o, w, t) := ringWrite s base size (data.length / 16) data off
    let o := if w && !wrap then size else o
    let t := rgwb (rgw (rgw t rOBS_SRING_WR (o / 16)) rOBS_SMPL_NUM s.obs.snapNum) rOBS_SMPL_STATUS 31 false
    let t := if w && wrap then rgwb t rOBS_SMPL_STATUS 30 true else t
    { t with obs := { t.obs with snapNum := (s.obs.snapNum + 1) % 2 ^ 32, skipped := false } }

/-- PERIOD in ns: 0 acts as 1, above 1,000 as 1,000 (Table OBS-10). -/
def snapPeriod (s : State) : Nat := clampN 1 1000 (rgf s rOBS_SMPL_CFG 9 0) * 1000000

/-- The sampler runs and a period has passed since the one before ended; the first counts from the write that set EN (R367). -/
def snapDue (s : State) : Bool := rgb s rOBS_SMPL_CFG 31 && decide (s.time.up ≥ s.obs.snapAt + snapPeriod s)

/-- A snapshot falls due: it is skipped and counted while the previous one is still being written (R367). -/
def snapshotDue (s : State) (busy : Bool) : State :=
  if !snapDue s then s
  else
    let s := { s with obs := { s.obs with snapAt := s.time.up - (s.time.up - s.obs.snapAt) % snapPeriod s } }
    if busy then bump { s with obs := { s.obs with skipped := true } } rOBS_SMPL_SKIP else snapshotTake s

/-! ### Trace (R368 to R371) -/

/-- Is a command of tile `l`, engine `e` and device context `ctx` traced. -/
def traced (s : State) (l e ctx : Nat) : Bool :=
  rgb s rOBS_TRC_CFG 31 && rgb s rOBS_TRC_TILES l && bit (rgf s rOBS_TRC_CFG 5 0) e &&
  (rgb s rOBS_TRC_CTX 31 || rgf s rOBS_TRC_CTX 14 0 == ctx)

/-- A trace record of Table OBS-5. -/
def traceBytes (gt frac : Nat) (isEnd : Bool) (engine : Nat) (retried dropped : Bool) (ctx index stretch
    quarters ply : Nat) : Bytes :=
  leBytes 8 gt ++ leBytes 1 frac ++
  leBytes 1 (b2n isEnd * 128 + engine % 8 * 16 + b2n retried * 8 + b2n dropped * 4) ++
  leBytes 2 (ctx % 2 ^ 15) ++ leBytes 2 (index % 2 ^ 14) ++ leBytes 1 stretch ++
  leBytes 1 (quarters % 16 * 16 + ply % 16)

/-- Records in the trace queue of tile `l`. -/
def traceQ (s : State) (l : Nat) : List Bytes := tget [] s.obs.trq l

/-- Does a full trace queue hold the issue of tile `l` (R370). -/
def traceStalled (s : State) (l : Nat) : Bool :=
  rgb s rOBS_TRC_CFG 31 && rgb s rOBS_TRC_CFG 29 && !rgb s rOBS_TRC_STATUS 31 && decide ((traceQ s l).length ≥ 512)

/-- Queue a trace record of tile `l`, after the loss marker and the site marker that are due; discard it when
there is no room (R370). The sub-nanosecond fraction of the stamp is a free value (log entry 15). -/
def traceRec (s : State) (l : Nat) (isEnd : Bool) (engine : Nat) (retried dropped : Bool) (ctx index stretch
    quarters ply : Nat) : State :=
  if rgb s rOBS_TRC_STATUS 31 then s else
  let (frac, s) := drawFree s 8
  let lost := tget 0 s.obs.trLost l
  let m1 := if lost = 0 then [] else
    [traceBytes s.gt frac false 7 false false l (min lost 0x3FFF) stretch 0 0]
  let m2 := match tget none s.obs.trSite l with
    | none => []
    | some site => [traceBytes s.gt frac false 6 false false l site stretch 0 0]
  let q := traceQ s l
  let new := m1 ++ m2 ++ [traceBytes s.gt frac isEnd engine retried dropped ctx index stretch quarters ply]
  if q.length + new.length > 512 then
    bump { s with obs := { s.obs with trLost := tset 0 s.obs.trLost l (lost + 1) } } rOBS_TRC_LOST
  else
    { s with obs := { s.obs with trLost := tset 0 s.obs.trLost l 0, trSite := tset none s.obs.trSite l none,
                                 trq := tset [] s.obs.trq l (q ++ new),
                                 trDeep := max s.obs.trDeep (q.length + new.length) } }

/-- The trace writer moves the oldest record of a tile's queue to the trace region (R370, R371). -/
def traceDrain (s : State) (l : Nat) : State :=
  let size := rg s rOBS_TRC_SIZE * 65536
  match traceQ s l with
  | [] => s
  | r :: rest =>
    if rgb s rOBS_TRC_STATUS 31 || size == 0 then s else
    let s := memW s (lpBase + rg s rOBS_TRC_BASE * 65536 + s.obs.trWr) r
    let s := { s with obs := { s.obs with trq := tset [] s.obs.trq l rest } }
    let s := bumpDiv s rOBS_TRC_RECORDS 1 1024
    let w := s.obs.trWr + 16
    if w < size then { s with obs := { s.obs with trWr := w } }
    else if rgb s rOBS_TRC_CFG 30 then
      rgwb { s with obs := { s.obs with trWr := 0 } } rOBS_TRC_STATUS 30 true
    else rgwb { s with obs := { s.obs with trWr := w } } rOBS_TRC_STATUS 31 true

/-- The sample ring and the trace region restart empty after a channel is retired (R372). -/
def obsRestart (s : State) : State :=
  let s := rgwf (rgw s rOBS_SRING_WR 0) rOBS_SMPL_STATUS 31 30 0
  let s := rgwf s rOBS_TRC_STATUS 31 30 0
  let lost := (List.range 20).foldl (fun t l => tmod 0 t l (max 1)) s.obs.trLost
  { s with obs := { s.obs with skipped := true, trWr := 0, trLost := lost } }

/-! ### Registers (R373) -/

/-- OBS_CMD: CLEAR, SNAPSHOT, any other OP RESULT 5 (Table OBS-8). -/
def obsCommand (s : State) (op : Nat) : State :=
  let done := fun (s : State) (r : Nat) => rgwf (rgwb s rOBS_CMD_STATUS 31 false) rOBS_CMD_STATUS 30 28 r
  match op with
  | 1 => done (obsClear s) 0
  | 2 => done (snapshotTake s) 0
  | _ => done s 5

/-- Reads of OBS registers with a side effect or a computed value, by offset. -/
def obsRegRead (s : State) (o : Nat) : Option (Nat × State) :=
  match o with
  | 0x004 => some (counterRead s)
  | 0x010 => some (0, s)
  | 0x214 => some (s.obs.trWr % 2 ^ 32, rgw s rOBS_TRC_WR_HI (s.obs.trWr / 2 ^ 32))
  | 0x21C =>
    let now := ((List.range 20).map fun l => (traceQ s l).length).foldl max 0
    some (rgf s rOBS_TRC_STATUS 31 30 * 2 ^ 30 + s.obs.trDeep, { s with obs := { s.obs with trDeep := now } })
  | _ => none

/-- Writes to OBS registers that do more than store, by offset: the state before the storing. -/
def obsRegWrite (s : State) (o v : Nat) : Option State :=
  match o with
  | 0x010 => some (obsCommand s (bits v 31 28))
  | 0x100 =>
    if bit v 31 && !rgb s rOBS_SMPL_CFG 31 then
      some (rgw { s with obs := { s.obs with snapNum := 0, snapAt := s.time.up } } rOBS_SMPL_CFG (v &&& 0xC00003FF))
    else none
  | 0x200 =>
    if bit v 31 && !rgb s rOBS_TRC_CFG 31 then
      some (rgwf (rgw { s with obs := { s.obs with trWr := 0 } } rOBS_TRC_CFG (v &&& 0xE000003F)) rOBS_TRC_STATUS 31 30 0)
    else none
  | _ => none

/-! ### The commands -/

/-- COUNTER_READ (R366): the value goes to the host port's reply. -/
def execCounterRead (s : State) : Host.Outcome State Fault Refusal :=
  let (v, t) := counterRead s
  .next { t with reply := leBytes 4 v }

/-- CLEAR (R366). -/
def execObsClear (s : State) : Host.Outcome State Fault Refusal := .next (obsCommand s 1)

/-- SNAPSHOT (R367). -/
def execSnapshot (s : State) : Host.Outcome State Fault Refusal := .next (obsCommand s 2)

/-- SNAPSHOT_PERIOD (R367). -/
def execSnapshotPeriod (busy : Bool) (s : State) : Host.Outcome State Fault Refusal := .next (snapshotDue s busy)

/-- TRACE_QUEUE_DRAIN (R370). -/
def execTraceQueueDrain (l : Nat) (s : State) : Host.Outcome State Fault Refusal := .next (traceDrain s l)

end Sys2Proof.Machine
end

