-- ==== Sys2Proof/Machine/Reports.lean ====
section
/-! DEFINITION. Report queues: acceptance of records, reading through the apertures, marks and releases
(R239 to R253). -/

namespace Sys2Proof.Machine

/-! ### Pool -/

/-- Device address of pool cell `i` (R239). -/
def rqCellAddr (i : Nat) : Nat := tierBase + (4062 + i / 16384) * 0x200000 + 0x100000 + 64 * (i % 16384)

/-- Device address of the link entry of cell `i` (R239). -/
def rqLinkAddr (i : Nat) : Nat := tierBase + (4094 + i / 262144) * 0x200000 + 0x100000 + 4 * (i % 262144)

/-- FREE: the pool's free cells (R240). -/
def rqFree (s : State) : Nat := 524288 - s.rq.used.length

/-- Cells of a list's unreleased records. -/
def rqListCells (l : RqList) : Nat := (l.recs.map fun r => r.cells.length).sum

/-- USED(n): cells of the queue's unreleased records; cells a link error made unreachable count until they
are returned (R240, R252). -/
def rqUsed (s : State) (q : Nat) : Nat :=
  ((rqGet s q).lists.map fun e => rqListCells e.2).sum + (s.rq.lostCells.filter fun e => e.1 == q).length

/-- The unmet part of the reservations of the queues other than `q`. -/
def rqReserved (s : State) (q : Nat) : Nat :=
  ((List.range 64).map fun m => if m = q then 0 else (rqGet s m).min - rqUsed s m).sum

/-- LIMIT as it acts: below 8 acts as 8, above 524,288 as 524,288 (R453). -/
def rqLimitOf (v : Nat) : Nat := clampN 8 524288 (v % 2 ^ 20)

/-- room(n) (R240); a negative value counts as 0. -/
def rqRoom (s : State) (q : Nat) : Nat :=
  min (rqLimitOf (rqGet s q).limit - rqUsed s q) (rqFree s - rqReserved s q)

/-- A queue is full while its room is below 8 cells (R241). -/
def rqFull (s : State) (q : Nat) : Bool := decide (rqRoom s q < 8)

/-- EN of RQ_Q_CFG. -/
def rqEnabled (v : RqQueue) : Bool := v.cfg.getLsbD 31

/-- The `n` lowest-numbered free cells at or above `i`, at most `fuel` cells examined (which free cells a
record takes is open: log entry 14). -/
def rqTake (used : Tab Bool) : Nat → Nat → Nat → List Nat
  | 0, _, _ => []
  | _, 0, _ => []
  | fuel + 1, n + 1, i =>
    if tget false used i then rqTake used fuel (n + 1) (i + 1) else i :: rqTake used fuel n (i + 1)

/-- Mark cells free or in use. -/
def rqMarkCells (used : Tab Bool) (cells : List Nat) (v : Bool) : Tab Bool :=
  cells.foldl (fun u c => tset false u c v) used

/-- Return cells to the free list; cells of a fenced bank have left the pool (R197). -/
def rqFreeCells (s : State) (cells : List Nat) : State :=
  { s with rq := { s.rq with used := rqMarkCells s.rq.used (cells.filter fun c => !bankFenced s (bankOf (rqCellAddr c))) false } }

/-- Zero-fill a body so that the record's LENGTH is a multiple of 16 from 32 to 512 (R242). -/
def rqPad (body : Bytes) : Bytes :=
  let n := clampN 32 512 ((8 + body.length + 15) / 16 * 16)
  padTo (n - 8) (body.take 504)

/-- A record with its common header (Table RQ-1). -/
def rqBytes (type prio seq : Nat) (body : Bytes) : Bytes :=
  let b := rqPad body
  leBytes 2 (8 + b.length) ++ leBytes 1 type ++ leBytes 1 (prio % 8 * 32) ++ leBytes 4 seq ++ b

/-- Write a record's bytes into its cells and its link entries: END in its last cell (R239). -/
def rqWriteCells (s : State) : List Nat → Bytes → State
  | [], _ => s
  | [c], b => memW (memW s (rqCellAddr c) (padTo 64 (b.take 64))) (rqLinkAddr c) (leBytes 4 0x80000000)
  | c :: d :: r, b =>
    rqWriteCells (memW (memW s (rqCellAddr c) (padTo 64 (b.take 64))) (rqLinkAddr c) (leBytes 4 d)) (d :: r) (b.drop 64)

/-- Link a record's first cell behind the last cell of the list's tail (R239, R243). -/
def rqLinkTail (s : State) (l : RqList) (first : Nat) : State :=
  match l.recs.getLast? with
  | some r => match r.cells.getLast? with
    | some c => memW s (rqLinkAddr c) (leBytes 4 (0x80000000 + first))
    | none => s
  | none => s

/-- An enabled queue that is not full accepts a record: SEQ, cells, data, links, tail (R243). -/
def rqAccept (s : State) (r : Staged) : State :=
  let v := rqGet s r.queue
  let b := rqBytes r.type r.prio v.seq r.body
  let cells := rqTake s.rq.used (s.rq.used.length + 8) (cdiv b.length 64) 0
  let l := tget rqList0 v.lists r.prio
  let s := { s with rq := { s.rq with used := rqMarkCells s.rq.used cells true } }
  let s := rqWriteCells s cells b
  let s := rqLinkTail s l (cells.headD 0)
  let l := { l with recs := l.recs ++ [⟨r.prio, v.seq, b, cells⟩] }
  bump (rqPut s r.queue { v with seq := (v.seq + 1) % 2 ^ 32, lists := tset rqList0 v.lists r.prio l }) rRQ_WRITES

/-- The Sampler takes a copy `b` of each accepted CTX_FAULT, FAULT, PEER and POWER record, its header included (R351, Table
FLS-8). -/
def smpOffer (s : State) (r : Staged) (b : Bytes) : State :=
  if r.type = 5 ∨ r.type = 6 ∨ r.type = 9 ∨ r.type = 0x0A then
    { s with smpIn := s.smpIn ++ [(r.type, b)] }
  else s

/-- The island offers held weave records once the queues are loaded, as many as its staging queue has room for (R381). -/
def wvDrain (s : State) : State :=
  if s.wv.held.isEmpty || (s.boot.stage != 0x0B && s.boot.stage != 0x10) then s
  else
    let room := 256 - (s.rq.staged.filter fun r => r.writer == 15).length
    { s with rq := { s.rq with staged := s.rq.staged ++ s.wv.held.take room }, wv := { s.wv with held := s.wv.held.drop room } }

/-- RECORD_ACCEPT: the manager takes the oldest staged record into its queue, or refuses it (R243 to R245). -/
def recordAccept (s : State) : State :=
  match s.rq.staged with
  | [] => wvDrain s
  | r :: rest =>
    let s := { s with rq := { s.rq with staged := rest } }
    wvDrain (if rqEnabled (rqGet s r.queue) && !rqFull s r.queue then
        smpOffer (rqAccept s r) r (rqBytes r.type r.prio (rqGet s r.queue).seq r.body)
      else rqRefuse s r.queue)

/-! ### Reading -/

/-- FLAGS of an IDLE or RQ_ERROR record (Table RQ-3). -/
def rqFlags (s : State) (q : Nat) : Nat :=
  let v := rqGet s q
  b2n (rqFull s q) + 2 * b2n v.overrun + 4 * b2n v.lost

/-- An IDLE or RQ_ERROR record of Table RQ-3. -/
def rqSpecial (s : State) (q type prio seq addr gt : Nat) : Bytes :=
  leBytes 2 32 ++ leBytes 1 type ++ leBytes 1 (prio * 32) ++ leBytes 4 seq ++ leBytes 8 gt ++
  leBytes 1 q ++ leBytes 1 (rqFlags s q) ++ leBytes 2 0 ++ leBytes 4 (rqUsed s q) ++ leBytes 8 addr

/-- A list has something to read: an unread record or a pending RQ_ERROR. -/
def rqUnread (l : RqList) : Bool := decide (l.cursor < l.recs.length) || (l.err != none)

/-- The highest priority with an unread record (R246). -/
def rqTop (v : RqQueue) : Option Nat :=
  [7, 6, 5, 4, 3, 2, 1, 0].find? fun p => rqUnread (tget rqList0 v.lists p)

/-- Put a queue's list back. -/
def rqPutList (s : State) (q p : Nat) (l : RqList) : State :=
  let v := rqGet s q
  rqPut s q { v with lists := tset rqList0 v.lists p l }

/-- Cut a list at place `n`: the records from there on are lost (R252). -/
def rqCut (s : State) (q p n addr : Nat) : State :=
  let v := rqGet s q
  let l := tget rqList0 v.lists p
  let gone := l.recs.drop n
  let seq := match gone with | r :: _ => r.seq | [] => v.seq
  let l' := { l with recs := l.recs.take n, mark := min l.mark n, cursor := min l.cursor n, err := some (seq, addr, s.gt) }
  let s := rqPut s q { v with lost := true, lists := tset rqList0 v.lists p l' }
  let lc := s.rq.lostCells ++ gone.flatMap fun r => r.cells.map fun c => (q, c)
  let s := { s with rq := { s.rq with lostCells := lc } }
  bumpN s rRQ_LOST gone.length

/-- One read of queue `q`: the record for the aperture's buffer, and the state after (R246, R247, R252). The RQ_ERROR record of a list
that a link error has cut comes before the records accepted since. -/
def rqRead (s : State) (q : Nat) (hit : RqHit) : Bytes × State :=
  let v := rqGet s q
  match (if rqEnabled v then rqTop v else none) with
  | none => (rqSpecial s q 0 0 v.seq 0 s.gt, bump s rRQ_IDLE_READS)
  | some p =>
    let l := tget rqList0 v.lists p
    match l.err, l.recs[l.cursor]? with
    | some (seq, addr, gt), _ => (rqSpecial s q 0x0B p seq addr gt, rqPutList s q p { l with err := none })
    | none, none => (rqSpecial s q 0 0 v.seq 0 s.gt, bump s rRQ_IDLE_READS)
    | none, some r =>
      match hit with
      | .none => (r.bytes, rqPutList s q p { l with cursor := l.cursor + 1 })
      | .cell k =>
        let s' := bump (rqPutList s q p { l with cursor := l.cursor + 1 }) rRQ_UE
        (rqSpecial s q 0x0B p r.seq (rqCellAddr (r.cells.getD k 0) - tierBase) s.gt, s')
      | .link k =>
        let addr := rqLinkAddr (r.cells.getD k 0) - tierBase
        if k + 1 ≥ r.cells.length then
          let s := rqPutList s q p { l with cursor := l.cursor + 1 }
          (r.bytes, rqCut s q p (l.cursor + 1) addr)
        else
          let s := rqCut s q p l.cursor addr
          let l := tget rqList0 (rqGet s q).lists p
          (rqSpecial s q 0x0B p r.seq addr s.gt, rqPutList s q p { l with err := none })

/-- The record that the next read of a queue takes (R246). -/
def rqNext (s : State) (q : Nat) : Option RqRec :=
  let v := rqGet s q
  match (if rqEnabled v then rqTop v else none) with
  | none => none
  | some p => let l := tget rqList0 v.lists p; if l.err.isSome then none else l.recs[l.cursor]?

/-- The read of a record goes on over the link entry of its `k`-th cell: to its next cell, or to the next record of its list. -/
def rqLinked (s : State) (q : Nat) (r : RqRec) (k : Nat) : Bool :=
  decide (k + 1 < r.cells.length) ||
  (rqGet s q).lists.any fun e => (match e.2.recs.getLast? with | some x => e.2.recs.contains r && x != r | none => false)

/-- Device address of the cell or link entry at which the read fails. -/
def rqUeAt (s : State) (q : Nat) (hit : RqHit) : Option Nat :=
  match rqNext s q, hit with
  | some r, .cell k => some (rqCellAddr (r.cells.getD k 0))
  | some r, .link k => some (rqLinkAddr (r.cells.getD k 0))
  | _, _ => none

/-- A host read of `len` bytes at `off` of RQ_DATA(q): one that includes byte 0 first performs a read and
loads the record buffer (R248). -/
def rqAperture (s : State) (q off len : Nat) (hit : RqHit) : Bytes × State :=
  let s := if off = 0 ∧ 0 < len then
      let (b, t) := rqRead s q hit
      rqPut t q { rqGet t q with buf := b }
    else s
  (slice (rqGet s q).buf off len, s)

/-! ### Mark, rewind, release (R249, R250) -/

/-- Apply a change to every priority list of a queue. -/
def rqEach (s : State) (q : Nat) (f : RqList → RqList) : State :=
  let v := rqGet s q
  rqPut s q { v with lists := (List.range 8).foldl (fun t p => tmod rqList0 t p f) v.lists }

/-- MARK. -/
def rqMark (s : State) (q : Nat) : State := rqEach s q fun l => { l with mark := l.cursor }

/-- REWIND. -/
def rqRewind (s : State) (q : Nat) : State := rqEach s q fun l => { l with cursor := l.mark }

/-- Cells of the records a function picks from each list. -/
def rqCellsOf (s : State) (q : Nat) (f : RqList → List RqRec) : List Nat :=
  (rqGet s q).lists.flatMap fun e => (f e.2).flatMap fun r => r.cells

/-- RELEASE: the cells before MARK return to the free list. -/
def rqRelease (s : State) (q : Nat) : State :=
  let cells := rqCellsOf s q fun l => l.recs.take l.mark
  rqFreeCells
    (rqEach s q fun l => { l with recs := l.recs.drop l.mark, mark := 0, cursor := l.cursor - l.mark }) cells

/-- FLUSH: every record of the queue is released; SEQ and OVERRUN are kept. -/
def rqFlush (s : State) (q : Nat) : State :=
  let cells := rqCellsOf s q fun l => l.recs
  rqFreeCells (rqEach s q fun l => { l with recs := [], mark := 0, cursor := 0 }) cells

/-- RQ_CMD: the queue commands of Table RQ-4; any other OP has no effect and RESULT 5. -/
def rqCommand (s : State) (op q : Nat) : State :=
  let done := fun (s : State) (r : Nat) => rgw s rRQ_CMD_STATUS (fld r 28)
  match op with
  | 1 => done (rqMark s q) 0
  | 2 => done (rqRewind s q) 0
  | 3 => done (rqRelease s q) 0
  | 4 => done (rqRelease (rqMark s q) q) 0
  | 5 => done (rqFlush s q) 0
  | _ => done s 5

/-- The island returns the cells a link error left unreachable (R252). -/
def rqReclaim (s : State) : State :=
  let cells := s.rq.lostCells.map fun e => e.2
  rqFreeCells { s with rq := { s.rq with lostCells := [] } } cells

/-! ### Alerts and registers (R251, R253) -/

/-- A queue is alerting (R251). -/
def rqAlerting (s : State) (q : Nat) : Bool :=
  let v := rqGet s q
  v.cfg.getLsbD 30 && v.lists.any fun e => decide (e.1 ≥ bits v.cfg.toNat 26 24) && decide (e.2.cursor < e.2.recs.length)

/-- 32 flags as a word, flag `i` at bit `i`. -/
def flagWord (f : Nat → Bool) : Nat := ((List.range 32).map fun i => b2n (f i) * 2 ^ i).sum

/-- Records not yet read. -/
def rqUnreadCount (v : RqQueue) : Nat := (v.lists.map fun e => e.2.recs.length - e.2.cursor).sum

/-- Values of the computed registers of the RQ block, by offset. -/
def rqRegRead (s : State) (o : Nat) : Option Nat :=
  let q := rgf s rRQ_SEL 5 0
  let v := rqGet s q
  match o with
  | 0x000 => some 0x0001FBD0
  | 0x004 => some (rqFree s)
  | 0x008 => some (flagWord (rqAlerting s))
  | 0x00C => some (flagWord fun i => rqAlerting s (32 + i))
  | 0x010 => some (flagWord fun i => (rqGet s i).overrun)
  | 0x014 => some (flagWord fun i => (rqGet s (32 + i)).overrun)
  | 0x024 => some v.cfg.toNat
  | 0x028 => some v.min
  | 0x02C => some v.limit
  | 0x030 => some (fld (b2n (rqFull s q)) 31 + fld (b2n v.overrun) 30 + fld (b2n v.lost) 29 +
      fld (b2n (rqUnreadCount v == 0)) 28 + rqUsed s q)
  | 0x034 => some (rqUnreadCount v)
  | 0x038 => some v.seq
  | 0x040 => some 0
  | _ => none

/-- Clear OVERRUN of the queues whose bit is written 1 (RW1C). -/
def rqClearOverrun (s : State) (base v : Nat) : State :=
  (List.range 32).foldl
    (fun s i => if bit v i then rqPut s (base + i) { rqGet s (base + i) with overrun := false } else s) s

/-- Writes to the RQ registers that are not plain storage, by offset; `none` where plain storage applies. -/
def rqRegWrite (s : State) (o v : Nat) : Option State :=
  let q := rgf s rRQ_SEL 5 0
  let r := rqGet s q
  match o with
  | 0x010 => some (rqClearOverrun s 0 v)
  | 0x014 => some (rqClearOverrun s 32 v)
  | 0x024 => some (epochAdvance (rqPut s q { r with cfg := BitVec.ofNat 32 (v &&& 0xC7000000) }) 3)
  | 0x028 =>
    let m := v % 2 ^ 20
    let others := ((List.range 64).map fun i => if i = q then 0 else (rqGet s i).min).sum
    if others + m > 524288 then some s else some (epochAdvance (rqPut s q { r with min := m }) 3)
  | 0x02C => some (epochAdvance (rqPut s q { r with limit := v % 2 ^ 20 }) 3)
  | 0x030 => some (rqPut s q { r with overrun := r.overrun && !bit v 30, lost := r.lost && !bit v 29 })
  | 0x040 => some (rqCommand s (bits v 31 28) (bits v 5 0))
  | _ => none

/-! ### The commands -/

/-- RECORD_ACCEPT (R243). -/
def execRecordAccept (s : State) : Host.Outcome State Fault Refusal := .next (recordAccept s)

/-- MARK (R249): the same as RQ_CMD with OP 1. -/
def execRqMark (q : Nat) (s : State) : Host.Outcome State Fault Refusal := .next (rqCommand s 1 q)

/-- REWIND (R249). -/
def execRqRewind (q : Nat) (s : State) : Host.Outcome State Fault Refusal := .next (rqCommand s 2 q)

/-- RELEASE (R250). -/
def execRqRelease (q : Nat) (s : State) : Host.Outcome State Fault Refusal := .next (rqCommand s 3 q)

/-- MARK_RELEASE (R249). -/
def execRqMarkRelease (q : Nat) (s : State) : Host.Outcome State Fault Refusal := .next (rqCommand s 4 q)

/-- QUEUE_FLUSH (R249). -/
def execRqFlush (q : Nat) (s : State) : Host.Outcome State Fault Refusal := .next (rqCommand s 5 q)

/-- CELL_RECLAIM (R252). -/
def execCellReclaim (s : State) : Host.Outcome State Fault Refusal := .next (rqReclaim s)

end Sys2Proof.Machine
end

