-- ==== Sys2Proof/Machine/FaultOps.lean ====
section
/-! DEFINITION. Reporting faults: latches, outstanding faults, FAULT records and their counters (R312, R314,
R316, R330). -/

namespace Sys2Proof.Machine

/-- A tile site before a layout is applied. -/
def site0 : SiteSt := { role := 3, lt := 31, epoch := 0, fenced := false }

/-- Site `t`. -/
def siteGet (s : State) (t : Nat) : SiteSt := tget site0 s.sites t

/-- Store site `t`. -/
def sitePut (s : State) (t : Nat) (v : SiteSt) : State := { s with sites := tset site0 s.sites t v }

/-- An empty latch. -/
def latch0 : Latch := { cls := 0, gt := 0, addr := 0, overlap := 0, valid := false, level := 0 }

/-- Unguarded mode, as applied (R18). -/
def unguarded (s : State) : Bool := rgb s rGLB_CONFIG 29

/-- Code of a unit: kind and index as in FLT_LATCH_SEL. -/
def unitCode (kind idx : Nat) : Nat := kind * 4096 + idx % 4096

/-- Partition `p` runs tiles and has no spare site left (R16). -/
def noSpare (s : State) (p : Nat) : Bool :=
  let rs := (List.range 5).map fun i => (siteGet s (5 * p + i)).role
  rs.contains 0 && !rs.contains 1

/-- Frames that partition `p`'s front ports received in this microsecond of Global Time. -/
def arrivalsOf (s : State) (p : Nat) : Nat :=
  let e := tget (0, 0) s.arrivals p
  if e.1 = s.gt / 1000 then e.2 else 0

/-- A frame arrives at a front port of partition `p`. -/
def arrivalNote (s : State) (p : Nat) : State :=
  { s with arrivals := tset (0, 0) s.arrivals p (s.gt / 1000, arrivalsOf s p + 1) }

/-- Condition 4 of R5: no pair of adjacent partitions receives above 8 Gpps, taken over the microsecond of Global Time
(DESIGN CHOICE, log entry 121). -/
def rateOk (s : State) : Bool := (List.range 4).all fun p => decide (arrivalsOf s p + arrivalsOf s ((p + 1) % 4) ≤ 8000)

/-- Conditions 1, 3 and 4 of R5: guarded mode, no fault outstanding, the packet rate. -/
def r5holds (s : State) : Bool := !unguarded s && s.faults.isEmpty && rateOk s

/-- FLT_STATUS.OUTSIDE: a fault is outstanding or a condition of R5 fails (R316). -/
def outside (s : State) : Bool :=
  !s.faults.isEmpty || unguarded s || !rateOk s || (List.range 4).any (noSpare s) ||
  (List.range 4).any (fun p => match (s.pipes.find? fun e => e.1 == p) with | some e => e.2.out.isSome | none => false) ||
  s.spares.any fun e => decide (e.2 ≥ 2)

/-- Body of a FAULT record (Table FLT-9), from byte 8. -/
def faultBody (cls action unit part flags overlap detect recovered addr added redisp cap : Nat) : Bytes :=
  leBytes 1 cls ++ leBytes 1 action ++ leBytes 2 unit ++ leBytes 1 part ++ leBytes 1 flags ++ leBytes 2 overlap ++
  leBytes 8 detect ++ leBytes 8 recovered ++ leBytes 8 addr ++ leBytes 4 added ++ leBytes 4 redisp ++
  leBytes 4 cap ++ leBytes 12 0

/-- Stage a FAULT record on FLT_CFG.RQ. -/
def faultRecord (s : State) (prio : Nat) (body : Bytes) : State :=
  stage s 10 (rgf s rFLT_CFG 31 26) prio 6 body

/-- FLAGS of a FAULT record. -/
def faultFlags (masked escalated captured outside dbl end_ : Bool) : Nat :=
  b2n masked + 2 * b2n escalated + 4 * b2n captured + 8 * b2n outside + 16 * b2n dbl + 32 * b2n end_

/-- The latch of a unit. -/
def latchGet (s : State) (unit : Nat) : Latch := tget latch0 s.latches unit

/-- Latch an error of a unit: the first error fills the latch, later ones count as overlap, to 255 (R314). -/
def latchError (s : State) (unit cls addr level : Nat) : State :=
  let l := latchGet s unit
  let l' := if l.valid then { l with overlap := min 255 (l.overlap + 1) }
    else { cls := cls, gt := s.gt, addr := addr, overlap := 0, valid := true, level := level }
  { s with latches := tset latch0 s.latches unit l' }

/-- A fault is detected: latched, counted as masked or not, FLT_STATUS.UNMASKED set when it is not (R312),
made outstanding (R316), and reported with the detection record (R330). -/
def faultDetect (s : State) (cls unit part addr action level : Nat) (masked dbl : Bool) : State :=
  let s := latchError s unit cls addr level
  let s := if masked then bump s rFLT_MASKED else rgwb (bump s rFLT_UNMASKED) rFLT_STATUS 31 true
  let s := { s with faults := s.faults ++ [⟨cls, unit, part, s.gt, addr, masked, dbl, action, 0, false⟩] }
  faultRecord s 6 (faultBody cls action unit part (faultFlags masked false false (outside s) dbl false)
    (latchGet s unit).overlap s.gt 0 addr 0 0 0)

/-- The recovery of a unit's oldest outstanding fault of a class ends: END record, latch clear (R314, R316). -/
def faultEnd (s : State) (cls unit : Nat) (cap : Nat) : State :=
  match s.faults.find? fun f => f.cls == cls && f.unit == unit with
  | none => s
  | some f =>
    let s := { s with faults := s.faults.erase f }
    if f.told then { s with latches := tset latch0 s.latches unit latch0 } else
    let body := faultBody f.cls f.action unit f.part (faultFlags f.masked false (cap != 0) (outside s) f.dbl true)
      (latchGet s unit).overlap f.detect s.gt f.addr ((s.gt - f.detect) / 1000) f.redisp cap
    let s := faultRecord s 4 body
    { s with latches := tset latch0 s.latches unit latch0 }

/-- A fault whose recovery ends in the operation that found it. -/
def faultInstant (s : State) (cls unit part addr action level : Nat) (masked dbl : Bool) : State :=
  faultEnd (faultDetect s cls unit part addr action level masked dbl) cls unit 0

/-- The inline ECC of LPDDR5X finds an uncorrectable unit (R452). -/
def lpUe (s : State) (a : Nat) : State :=
  let s := cinc (bump s rLP_UE) (cChan (lpChan s a) 3) 1
  { s with lp := { s.lp with ues := tmod 0 s.lp.ues (lpChan s a) fun n => min 255 (n + 1) } }

/-- The consumer of an uncorrectable error fails: UNMASKED and DOUBLE, ACTION 16 (R326). -/
def faultUe (s : State) (cls unit part addr : Nat) : State :=
  faultInstant (if cls = 16 then lpUe s addr else s) cls unit part addr 16 1 false true

/-- ECC of tile SRAM corrects the codeword at device address `a` and writes it back (class 3). -/
def sramCorrected (s : State) (a : Nat) : State :=
  let t := (a - sramBase 0) / 0x2000000
  faultInstant s 3 (unitCode 0 t) (t / 5) a 1 0 (r5holds s) false

/-- Count a re-dispatched request on the outstanding faults of a partition and in FLT_REDISPATCH (R318). -/
def faultRedisp (s : State) (part : Nat) : State :=
  bump { s with faults := s.faults.map fun f => if f.part = part then { f with redisp := f.redisp + 1 } else f } rFLT_REDISPATCH

/-- FLT_STATUS as read (Table FLT-14). -/
def fltStatus (s : State) : Nat :=
  let bitsOf := fun (f : Nat → Bool) => ((List.range 4).map fun p => b2n (f p) * 2 ^ p).sum
  let pipeOut := fun p => match s.pipes.find? fun e => e.1 == p with | some e => e.2.out.isSome | none => false
  fld (b2n (rgb s rFLT_STATUS 31)) 31 + fld (b2n s.flt.resetting) 30 + fld (b2n s.flt.islOut.isSome) 29 +
  fld (b2n (outside s)) 28 + fld (bitsOf pipeOut) 24 + fld (bitsOf (noSpare s)) 20 + fld (s.flt.takeover % 16) 16 +
  fld (min 255 s.faults.length) 8

/-! ### Tray-controller outputs (Table LP-6) -/

/-- FAULT_N is asserted: UNMASKED or RESETTING, a failed start, the island halted (R316, R324, R395). -/
def faultN (s : State) : Bool := rgb s rFLT_STATUS 31 || s.flt.resetting || s.boot.stage == 0x13 || s.flt.islHalted

/-- THERMTRIP_N or FAULT_N is asserted: SMB_ALERT_N asserts (R444). -/
def smbCause (s : State) : Bool := s.pwr.tripped || faultN s

/-- SMB_ALERT_N stays asserted after its cause ends, until the Alert Response: kept where a cause may end. -/
def smbLatch (s : State) : State := if smbCause s then { s with hp := { s.hp with alert := true } } else s

end Sys2Proof.Machine
end

