-- ==== Sys2Proof/Machine/Sampler.lean ====
section
/-! DEFINITION. The Sampler: live ring, log, flush, reading (R351 to R358). -/

namespace Sys2Proof.Machine

/-! ### Records (R351) -/

/-- LENGTH of a record: a multiple of 8. -/
def smpLen (r : SmpRec) : Nat := (32 + r.body.length + 7) / 8 * 8

/-- A record's bytes (Table FLS-7), COMMITTED as it applies. -/
def smpBytes (r : SmpRec) : Bytes :=
  leBytes 2 (smpLen r) ++ leBytes 2 r.type ++ leBytes 4 r.seq ++ leBytes 8 r.gt ++ leBytes 2 r.rep ++
  leBytes 1 (2 * b2n r.committed + b2n r.cont) ++ leBytes 1 0 ++ leBytes 4 0x564C4D53 ++ leBytes 8 r.last ++
  padTo (smpLen r - 32) r.body

/-- A NONE record for a reader whose cursor is `c`. -/
def smpNone (s : State) (c flags : Nat) : Bytes :=
  leBytes 2 32 ++ leBytes 2 1 ++ leBytes 4 c ++ leBytes 8 s.gt ++ leBytes 2 0 ++ leBytes 1 flags ++ leBytes 1 0 ++
  leBytes 4 0x564C4D53 ++ leBytes 8 0

/-- The flash is mounted. -/
def flsMounted (s : State) : Bool := rgb s rFLS_STATUS 31

/-- COMMIT in ns; 0 acts as 1. -/
def smpCommit (s : State) : Nat := max 1 (rgf s rSMP_CFG 31 16) * 1000000

/-! ### Accepting (R352 to R354, R357) -/

/-- Make room in the 512 KiB ring: the oldest records go; an uncommitted one that goes is lost. -/
def smpRoom : Nat → List SmpRec → Nat → List SmpRec × Nat
  | 0, l, n => (l, n)
  | _ + 1, [], n => ([], n)
  | k + 1, r :: l, n =>
    if ((r :: l).map smpLen).sum ≤ 524288 then (r :: l, n)
    else smpRoom k l (if r.committed then n else n + 1)

/-- A new record joins the ring. -/
def smpAppend (s : State) (type : Nat) (body : Bytes) (cont : Bool) : State :=
  let r : SmpRec := { seq := s.smp.next, type := type, body := body, gt := s.gt, last := s.gt, rep := 1, cont := cont, committed := false }
  let l := s.smp.ring ++ [r]
  let (l, lost) := smpRoom l.length l 0
  bumpN (cinc (bump { s with smp := { s.smp with ring := l, next := s.smp.next + 1 } } rSMP_RECORDS) (cDev 2) 1) rSMP_LOST lost

/-- One event is accepted: coalesced into the newest record when it is identical and the conditions of R353 hold. -/
def smpAccept (s : State) (type : Nat) (body : Bytes) : State :=
  match s.smp.ring.getLast? with
  | none => smpAppend s type body false
  | some r =>
    let same := r.type == type && r.body == body
    let near := decide (s.gt - r.last < rgf s rSMP_CFG 15 0 * 1000000) && decide (r.rep < 65535)
    if same && near && !r.committed then
      bump { s with smp := { s.smp with ring := s.smp.ring.dropLast ++ [{ r with rep := r.rep + 1, last := s.gt }] } } rSMP_COALESCED
    else smpAppend s type body (same && near && r.committed)

/-- SAMPLER_RECORD: the oldest waiting event. A copy of a report record of TYPE t has TYPE 0x0100 + t. -/
def samplerRecord (s : State) : State :=
  match s.smpIn with
  | [] => s
  | (t, b) :: rest => smpAccept { s with smpIn := rest } (if t < 0x10 then 0x100 + t else t % 65536) b

/-! ### Committing pages (R355, R356) -/

/-- Bytes of records that a log page holds: 16,384 less its header and a PAD of at least 32. -/
def pageRoom : Nat := 16384 - 64 - 32

/-- The uncommitted records that fill the next page, oldest first. -/
def pageFill : Nat → List SmpRec → List SmpRec
  | _, [] => []
  | n, r :: l => if smpLen r ≤ n then r :: pageFill (n - smpLen r) l else []

/-- Uncommitted records in order. -/
def smpDirty (s : State) : List SmpRec := s.smp.ring.filter fun r => !r.committed

/-- Log pages that the log area holds (Table FLS-1). -/
def logPages (s : State) : Nat := clampN 1 64 (rgf s rFLS_CAPACITY 15 0 / 64) * 65536

/-- A log page as it lies in flash (R355): 64-byte header, records in SEQ order, one PAD record to the end of the page. -/
def logPageBytes (p : LogPage) : Bytes :=
  let q := match p.recs with | r :: _ => r.seq | [] => 0
  let b := leBytes 4 0x474F4C53 ++ leBytes 4 0 ++ leBytes 8 p.num ++ leBytes 4 (q / 2 ^ 32) ++ leBytes 4 q ++ leBytes 2 p.recs.length ++
    leBytes 6 0 ++ leBytes 8 p.gt ++ leBytes 24 0 ++ p.recs.flatMap smpBytes
  padTo 16384 (b ++ leBytes 2 (16384 - b.length) ++ leBytes 18 0 ++ leBytes 4 0x564C4D53)

/-- The pages left of a log that has outgrown its area: its oldest block is erased (R355). -/
def logWrap (s : State) (log : List LogPage) : List LogPage :=
  if log.length > logPages s then log.drop (max 1 s.flash.blockPages) else log

/-- Commit the next page. -/
def pageCommit (s : State) : State :=
  let p := pageFill pageRoom (smpDirty s)
  if p.isEmpty || !flsMounted s then s
  else
    let done := p.map fun r => { r with committed := true }
    let ring := s.smp.ring.map fun r => if p.any fun q => q.seq == r.seq then { r with committed := true } else r
    let log := s.smp.log ++ [⟨s.smp.pages, s.gt, done⟩]
    { s with smp := { s.smp with ring := ring, log := logWrap s log, pages := s.smp.pages + 1 },
             life := if (logWrap s log).length < log.length then tset 0 s.life 152 (tget 0 s.life 152 + 1) else s.life }

/-- The next page is full, its oldest record has waited COMMIT, or PWR_FAIL_N is asserted (R355, R356). -/
def pageDue (s : State) : Bool :=
  let d := smpDirty s
  (s.pwr.fail && !d.isEmpty) || decide ((pageFill pageRoom d).length < d.length) ||
  (match d with | r :: _ => decide (s.gt ≥ r.gt + smpCommit s) | [] => false)

/-- LOG_PAGE_COMMIT: a page that is due. -/
def logPageCommit (s : State) : State := if pageDue s then pageCommit s else s

/-- A flush is in progress: PWR_FAIL_N is asserted, and records wait for their page (R356). -/
def smpFlushing (s : State) : Bool := s.pwr.fail && flsMounted s && !(smpDirty s).isEmpty

/-- Every valid record is committed (R356). -/
def smpFlush (s : State) : State := (List.range (smpDirty s).length).foldl (fun s _ => pageCommit s) s

/-! ### Reading (R358) -/

/-- Records held in the log, in order. -/
def smpLogged (s : State) : List SmpRec := s.smp.log.flatMap fun p => p.recs

/-- The oldest sequence held; the next one when none is. -/
def smpOldest (s : State) : Nat :=
  let a := match smpLogged s with | r :: _ => r.seq | [] => s.smp.next
  let b := match s.smp.ring with | r :: _ => r.seq | [] => s.smp.next
  min a b

/-- First held sequence at or after `q`. -/
def smpFrom (s : State) (q : Nat) : Nat :=
  ((smpLogged s).map (·.seq) ++ s.smp.ring.map (·.seq)).foldl (fun a x => if x ≥ q ∧ x < a then x else a) s.smp.next

/-- The record of a sequence, from the ring, or from the log page that holds it with its page number. -/
def smpFind (s : State) (q : Nat) : Option (SmpRec × Option Nat) :=
  match s.smp.ring.find? fun r => r.seq == q with
  | some r => some (r, none)
  | none => s.smp.log.findSome? fun p => (p.recs.find? fun r => r.seq == q).map fun r => (r, some p.num)

/-- One read of the aperture: the record at the cursor, or NONE. -/
def smpRead (s : State) : Bytes × State :=
  let c := s.smp.cursor
  let give := fun (r : SmpRec) =>
    (smpBytes r, { s with smp := { s.smp with cursor := c + 1, pos := r.seq, fetching := none } })
  if c ≥ s.smp.next then (smpNone s c 0, s)
  else match smpFind s c with
    | some (r, none) => give r
    | some (r, some p) =>
      if s.smp.fetched = some p then give r
      else (smpNone s c 1, { s with smp := { s.smp with fetching := some p } })
    | none => (smpNone s c 2, { s with smp := { s.smp with cursor := smpFrom s c } })

/-- A host read of `len` bytes at `off` of SMP_DATA: one that includes byte 0 performs a read first. -/
def smpAperture (s : State) (off len : Nat) : Bytes × State :=
  let s := if off = 0 ∧ 0 < len then let (b, t) := smpRead s; { t with smp := { t.smp with buf := b } } else s
  (slice s.smp.buf off len, s)

/-- LOG_PAGE_FETCH: the page that a reader waits for has arrived, or failed R336 and is a gap. -/
def logPageFetch (s : State) (bad : Bool) : State :=
  match s.smp.fetching with
  | none => s
  | some p =>
    if bad then
      bump { s with smp := { s.smp with fetching := none, log := s.smp.log.filter fun e => e.num != p } } rSMP_GAPS
    else { s with smp := { s.smp with fetching := none, fetched := some p } }

/-- SMP_RD_CMD: cursor commands; others are ignored. -/
def smpCommand (s : State) (op : Nat) : State :=
  let go := fun c => { s with smp := { s.smp with cursor := c, fetching := none } }
  match op with
  | 1 => go (smpFrom s (rg s rSMP_RD_SEQ_LO + 2 ^ 32 * rg s rSMP_RD_SEQ_HI))
  | 2 => go (smpOldest s)
  | 3 => go (s.smp.next - 1)
  | _ => s

/-- Computed SMP registers, with the latch of SMP_RD_POS_HI. -/
def smpRegRead (s : State) (o : Nat) : Option (Nat × State) :=
  match o with
  | 0x004 => some (b2n (!flsMounted s) * 2 ^ 31 + b2n (smpFlushing s) * 2 ^ 30 + min 0xFFFFF ((smpDirty s).map smpLen).sum, s)
  | 0x008 => some (s.smp.next % 2 ^ 32, s)
  | 0x00C => some (s.smp.next / 2 ^ 32, s)
  | 0x010 => some (smpOldest s % 2 ^ 32, s)
  | 0x014 => some (smpOldest s / 2 ^ 32, s)
  | 0x020 => some (0, s)
  | 0x02C => some (s.smp.pos % 2 ^ 32, rgw s rSMP_RD_POS_HI (s.smp.pos / 2 ^ 32))
  | _ => none

/-! ### The commands -/

/-- SAMPLER_RECORD (R353). -/
def execSamplerRecord (s : State) : Host.Outcome State Fault Refusal := .next (samplerRecord s)

/-- LOG_PAGE_COMMIT (R355). -/
def execLogPageCommit (s : State) : Host.Outcome State Fault Refusal := .next (logPageCommit s)

/-- SAMPLER_READ (R358): the bytes go to the host port's reply. -/
def execSamplerRead (off len : Nat) (s : State) : Host.Outcome State Fault Refusal :=
  let (b, t) := smpAperture s off len
  .next { t with reply := b }

/-- LOG_PAGE_FETCH (R358). -/
def execLogPageFetch (bad : Bool) (s : State) : Host.Outcome State Fault Refusal := .next (logPageFetch s bad)

/-- SEEK (R358). -/
def execSeek (s : State) : Host.Outcome State Fault Refusal := .next (smpCommand s 1)

/-- OLDEST (R358). -/
def execOldest (s : State) : Host.Outcome State Fault Refusal := .next (smpCommand s 2)

/-- NEWEST (R358). -/
def execNewest (s : State) : Host.Outcome State Fault Refusal := .next (smpCommand s 3)

end Sys2Proof.Machine
end

