-- ==== Sys2Proof/Machine/Flash.lean ====
section
/-! DEFINITION. The flash manager: pages and codewords, commit units, the system journal and its checkpoints, reading, wear, refresh,
stored structures, lifetime counters, captures (R333 to R350). A block holds one commit unit (log entry 147). -/

namespace Sys2Proof.Machine

/-! ### Blocks (R336 to R339) -/

/-- A free block that was never erased. -/
def fblock0 : FBlock := { erases := 0, reads := 0, progAt := 0, bad := false, valid := false }

/-- Block `b`. -/
def blkGet (s : State) (b : Nat) : FBlock := tget fblock0 s.flash.blocks b

/-- Store a block. -/
def blkPut (s : State) (b : Nat) (v : FBlock) : State := { s with flash := { s.flash with blocks := tset fblock0 s.flash.blocks b v } }

/-- Powered time in ns, by the always-on clock: ON_SECONDS as the mount found it, and what has passed since (R338, R349). -/
def powNs (s : State) : Nat := tget 0 s.life 0 * 1000000000 + s.time.up

/-- Bytes that name a block: channel, target, LUN, block. -/
def blkName (b : Nat) : Bytes := leBytes 1 (b / 2 ^ 28 % 2) ++ leBytes 1 (b / 2 ^ 24 % 16) ++ leBytes 1 (b / 2 ^ 20 % 16)

/-- Blocks that hold a unit of the MAP or a batch of the journal. -/
def blkUsed (s : State) (b : Nat) : Bool := (s.flash.units ++ s.flash.journal).any fun u => u.blk == b

/-- The free good block with the lowest erase count; among equals the lowest-numbered (R339; log entry 14). -/
def blkFree (s : State) : Nat :=
  let top := (s.flash.blocks.map fun e => e.1) ++ (s.flash.units ++ s.flash.journal).map fun u => u.blk
  let fresh := ((List.range (top.length + 1)).find? fun k => !top.contains k).getD 0
  let best := s.flash.blocks.foldl (fun (a : Nat × Nat) e =>
    if !e.2.bad && !e.2.valid && !blkUsed s e.1 && decide (e.2.erases < a.2 ∨ (e.2.erases = a.2 ∧ e.1 < a.1)) then (e.1, e.2.erases) else a) (fresh, 0)
  best.1

/-! ### Pages and codewords (R335) -/

/-- An erased page. -/
def fpage0 : FPage := { cws := [], lost := [] }

/-- Key of page `i` of block `b`. -/
def pgKey (b i : Nat) : Nat := b * 2 ^ 32 + i

/-- Page at a key. -/
def pageGet (s : State) (a : Nat) : FPage := tget fpage0 s.flash.pages a

/-- Data at place `off` of the page at key `a`, scrambled; scrambled data, restored. -/
def scramble (a off : Nat) (d : Bytes) : Bytes :=
  (d.zip (List.range d.length)).map fun e => e.1 ^^^ Config.flashScramble a (off + e.2)

/-- Codeword `k` of a page: 4,096 data bytes, 16 metadata bytes, 464 parity bytes. -/
def cwEncode (a k : Nat) (data info : Bytes) : Bytes :=
  let x := scramble a (4096 * k) (slice data 0 4096) ++ slice info 0 16
  x ++ slice (Config.flashParity x) 0 464

/-- Data of codeword `k`. -/
def cwData (a k : Nat) (cw : Bytes) : Bytes := scramble a (4096 * k) (slice cw 0 4096)

/-- Metadata of a codeword. -/
def cwInfo (cw : Bytes) : Bytes := slice cw 4096 16

/-- A page of 16,384 data bytes as it is programmed; the metadata stands in codeword 0. -/
def pageMake (a : Nat) (info data : Bytes) : FPage :=
  { cws := (List.range 4).map fun k => cwEncode a k (slice data (4096 * k) 4096) (if k = 0 then info else []), lost := [] }

/-- The data of a page that decodes. -/
def pageRead (a : Nat) (p : FPage) : Option Bytes :=
  if p.cws.isEmpty || !p.lost.isEmpty then none else some ((List.range 4).flatMap fun k => cwData a k (p.cws.getD k []))

/-- A page as it is at another address: scrambled and encoded anew. -/
def pageMove (a a' : Nat) (p : FPage) : FPage :=
  { p with cws := (List.range p.cws.length).map fun k => let c := p.cws.getD k []; cwEncode a' k (cwData a k c) (cwInfo c) }

/-! ### Commit units (R341) -/

/-- Data pages of a body. -/
def fUnitPages (body : Bytes) : Nat := max 1 (cdiv body.length 16384)

/-- Metadata of page `i` of a unit: kind, copy, index, page index, sequence (the layout: log entry 148). -/
def fUnitInfo (u : FUnit) (i : Nat) : Bytes := leBytes 1 u.kind ++ leBytes 1 u.copy ++ leBytes 2 u.idx ++ leBytes 4 i ++ leBytes 8 u.seq

/-- The mark trailer (Table FLS-2). -/
def fUnitMark (gt : Nat) (u : FUnit) (body : Bytes) : Bytes :=
  leBytes 4 0x4B52414D ++ leBytes 1 u.kind ++ leBytes 1 u.copy ++ leBytes 2 u.pages ++ leBytes 8 u.seq ++ leBytes 8 body.length ++
  leBytes 8 gt ++ digest64 body ++ leBytes 32 0

/-- The pages of a unit with this body, mark page last. -/
def fUnitImage (gt : Nat) (u : FUnit) (body : Bytes) : List (Nat × FPage) :=
  ((List.range u.pages).map fun i => (pgKey u.blk i, pageMake (pgKey u.blk i) (fUnitInfo u i) (slice body (16384 * i) 16384))) ++
  [(pgKey u.blk u.pages, pageMake (pgKey u.blk u.pages) (fUnitInfo u u.pages) (fUnitMark gt u body))]

/-- Drop what a block's pages hold. -/
def pagesDrop (s : State) (b : Nat) : State := { s with flash := { s.flash with pages := s.flash.pages.filter fun e => e.1 / 2 ^ 32 != b } }

/-- A block is erased once more. -/
def blkErased (s : State) (b : Nat) : State :=
  let v := blkGet s b
  blkPut (pagesDrop { s with life := tset 0 s.life 152 (tget 0 s.life 152 + 1) } b) b { v with erases := v.erases + 1, valid := false, reads := 0 }

/-- Program a unit into its block, data pages first and its mark last; a block that holds released pages is erased before. -/
def fUnitWrite (s : State) (u : FUnit) (body : Bytes) : State :=
  let s := if s.flash.pages.any fun e => e.1 / 2 ^ 32 == u.blk then blkErased s u.blk else s
  let s := { s with flash := { s.flash with pages := (fUnitImage s.gt u body).foldl (fun t e => tset fpage0 t e.1 e.2) s.flash.pages } }
  blkPut s u.blk { blkGet s u.blk with valid := true, progAt := powNs s, reads := 0 }

/-- The SEQ and body of a unit that is intact: its mark decodes, its data pages decode, the digest holds. -/
def fUnitRead (s : State) (u : FUnit) : Option (Nat × Bytes) :=
  match pageRead (pgKey u.blk u.pages) (pageGet s (pgKey u.blk u.pages)) with
  | none => none
  | some m =>
    if leAt m 0 4 ≠ 0x4B52414D ∨ leAt m 6 2 ≠ u.pages then none
    else match (List.range u.pages).mapM fun i => pageRead (pgKey u.blk i) (pageGet s (pgKey u.blk i)) with
      | none => none
      | some ds =>
        let body := ds.flatten.take (leAt m 16 8)
        if digest64 body = slice m 32 64 then some (leAt m 8 8, body) else none

/-- Is this the unit of a kind, index and copy? -/
def fUnitIs (kind idx copy : Nat) (u : FUnit) : Bool := u.kind == kind && u.idx == idx && u.copy == copy

/-- What an intact unit of the MAP holds. -/
def fUnitOf (s : State) (kind idx copy : Nat) : Option (Nat × Bytes) := (s.flash.units.find? (fUnitIs kind idx copy)).bind (fUnitRead s)

/-- Place a unit in a free block; the one it takes the place of is released. Answers both. -/
def fUnitPlace (s : State) (kind idx copy seq : Nat) (body : Bytes) : State × FUnit × List FUnit :=
  let u : FUnit := { kind := kind, idx := idx, copy := copy, seq := seq, blk := blkFree s, pages := fUnitPages body }
  let s := fUnitWrite s u body
  let old := s.flash.units.filter (fUnitIs kind idx copy)
  let s := { s with flash := { s.flash with units := (s.flash.units.filter fun x => !fUnitIs kind idx copy x) ++ [u] } }
  (old.foldl (fun s x => blkPut s x.blk { blkGet s x.blk with valid := false }) s, u, old)

/-! ### The system journal and its checkpoints (R342) -/

/-- A journal entry: 1 allocation, 2 release, 3 retirement of a unit's block (its layout: log entry 148). -/
def jEntry (op : Nat) (u : FUnit) : Bytes :=
  padTo 64 (leBytes 1 op ++ leBytes 1 u.kind ++ leBytes 1 u.copy ++ leBytes 1 0 ++ leBytes 4 u.idx ++ leBytes 8 u.seq ++ leBytes 8 u.blk ++
    leBytes 8 u.pages)

/-- The unit that a journal entry names. -/
def jUnit (e : Bytes) : FUnit :=
  { kind := byteAt e 1, idx := leAt e 4 4, copy := byteAt e 2, seq := leAt e 8 8, blk := leAt e 16 8, pages := leAt e 24 8 }

/-- The MAP as data: an allocation for each unit but the checkpoints themselves. -/
def mapBody (units : List FUnit) : Bytes := (units.filter fun u => u.kind != 6 && u.kind != 7).flatMap (jEntry 1)

/-- Bad blocks, lowest first. -/
def badBlocks (s : State) : List Nat := (s.flash.blocks.filter fun e => e.2.bad).map fun e => e.1

/-- The bad-block table as data. -/
def bbtBody (bad : List Nat) : Bytes := bad.flatMap (leBytes 8)

/-- Which copy of a two-copy structure is to be rewritten: the one with the lower SEQ. -/
def lowerCopy (s : State) (n : Nat) : Nat :=
  let q := fun i => match fUnitOf s n 0 i with | some c => c.1 + 1 | none => 0
  if q 0 ≤ q 1 then 0 else 1

/-- A checkpoint of MAP and bad-block table at the SEQ of the last batch; the batches before it are released. -/
def checkpoint (s : State) : State :=
  let q := s.flash.nextBatch - 1
  let s := (fUnitPlace s 6 0 (lowerCopy s 6) q (bbtBody (badBlocks s))).1
  let s := (fUnitPlace s 7 0 (lowerCopy s 7) q (mapBody s.flash.units)).1
  let s := s.flash.journal.foldl (fun s u => blkPut s u.blk { blkGet s u.blk with valid := false }) s
  { s with flash := { s.flash with journal := [] } }

/-- Write a batch of journal entries; after every 1,024 batches a checkpoint. -/
def batchWrite (s : State) (es : List Bytes) : State :=
  if es.isEmpty then s else
  let u : FUnit := { kind := 0x40, idx := 0, copy := 0, seq := s.flash.nextBatch, blk := blkFree s, pages := fUnitPages es.flatten }
  let s := fUnitWrite s u es.flatten
  let s := { s with flash := { s.flash with journal := s.flash.journal ++ [u], nextBatch := s.flash.nextBatch + 1 } }
  if s.flash.journal.length ≥ 1024 then checkpoint s else s

/-- Write a unit, and journal it. -/
def fUnitPut (s : State) (kind idx copy seq : Nat) (body : Bytes) : State :=
  let (s, u, old) := fUnitPlace s kind idx copy seq body
  batchWrite s (jEntry 1 u :: old.map (jEntry 2))

/-- Release a unit, and journal it. -/
def fUnitDrop (s : State) (kind idx copy : Nat) : State :=
  let old := s.flash.units.filter (fUnitIs kind idx copy)
  let s := { s with flash := { s.flash with units := s.flash.units.filter fun x => !fUnitIs kind idx copy x } }
  batchWrite (old.foldl (fun s x => blkPut s x.blk { blkGet s x.blk with valid := false }) s) (old.map (jEntry 2))

/-- The commit units that a scan finds: of every block the unit that codeword 0 of its first page names, if it is intact. -/
def fUnitsScan (s : State) : List FUnit :=
  (((s.flash.pages.map fun e => e.1 / 2 ^ 32).eraseDups).filterMap fun b =>
    let m := cwInfo ((pageGet s (pgKey b 0)).cws.getD 0 [])
    let n := (s.flash.pages.filter fun e => e.1 / 2 ^ 32 == b).length
    let u : FUnit := { kind := byteAt m 0, idx := leAt m 2 2, copy := byteAt m 1, seq := leAt m 8 8, blk := b, pages := n - 1 }
    if (fUnitRead s u).isSome then some u else none)

/-- Of the units of one kind, index and copy, the one with the highest SEQ. -/
def fUnitsNewest (l : List FUnit) : List FUnit :=
  l.filter fun u => l.all fun x => !fUnitIs u.kind u.idx u.copy x || decide (x.seq ≤ u.seq)

/-- Apply a journal entry to the MAP's units and the bad blocks. -/
def jApply (a : List FUnit × List Nat) (e : Bytes) : List FUnit × List Nat :=
  let u := jUnit e
  match byteAt e 0 with
  | 1 => ((a.1.filter fun x => !fUnitIs u.kind u.idx u.copy x) ++ [u], a.2)
  | 2 => (a.1.filter fun x => x != u, a.2)
  | 3 => (a.1, (a.2.filter fun b => b != u.blk) ++ [u.blk])
  | _ => a

/-- 64-byte entries of a body. -/
def jEntries (b : Bytes) : List Bytes := (List.range (b.length / 64)).map fun i => slice b (64 * i) 64

/-- Replay the batches in SEQ order from `q` on, up to the first that has no intact unit; `n` bounds how many. -/
def jReplay (s : State) (scan : List FUnit) : Nat → Nat → List FUnit × List Nat → List FUnit × List Nat
  | 0, _, a => a
  | n + 1, q, a =>
    match (scan.find? fun u => u.kind == 0x40 && u.seq == q).bind (fUnitRead s) with
    | some b => jReplay s scan n (q + 1) ((jEntries b.2).foldl jApply a)
    | none => a

/-! ### Blocks that fail or are refreshed (R337, R338) -/

/-- A block becomes bad: recorded, counted (R337), and journalled while the flash is mounted. -/
def blkRetire (s : State) (b cause : Nat) : State :=
  if (blkGet s b).bad then s else
  let s := blkPut s b { blkGet s b with bad := true, valid := false }
  let s := rgwb (bump s rFLS_RETIRED) rFLS_STATUS 0 true
  let s := smpEvent (lifeInc s 172) 0x13 (blkName b ++ leBytes 4 (b % 2 ^ 20) ++ leBytes 1 cause)
  if flsMounted s then batchWrite s [jEntry 3 { kind := 0, idx := 0, copy := 0, seq := 0, blk := b, pages := 0 }] else s

/-- The pages of block `b` are written to block `f`, and the units in it lie there from then on; `whole`: the data comes from the
manager's buffer, so that nothing of it is lost. -/
def blkMove (s : State) (b f : Nat) (whole : Bool) : State :=
  let mine := s.flash.pages.filter fun e => e.1 / 2 ^ 32 == b
  let move := fun (u : FUnit) => if u.blk = b then { u with blk := f } else u
  let moved := s.flash.units.filter fun u => u.blk == b
  let s := if s.flash.pages.any fun e => e.1 / 2 ^ 32 == f then blkErased s f else s
  let pages := mine.foldl (fun t e =>
    let k := pgKey f (e.1 % 2 ^ 32)
    let p := pageMove e.1 k e.2
    tset fpage0 t k (if whole then { p with lost := [] } else p)) s.flash.pages
  let s := { s with flash := { s.flash with pages := pages, units := s.flash.units.map move, journal := s.flash.journal.map move } }
  let s := blkPut s f { blkGet s f with valid := true, progAt := powNs s, reads := 0 }
  let s := batchWrite s (moved.flatMap fun u => [jEntry 1 (move u), jEntry 2 u])
  blkPut s b { blkGet s b with valid := false }

/-- Refresh of a block: its valid pages go to a free block, and it is erased, or retired when a page is unreadable (R337,
R338). -/
def blkRefresh (s : State) (b : Nat) (unreadable : Bool) : State :=
  let v := blkGet s b
  if !v.valid then (if unreadable then blkRetire s b 4 else s) else
  let s := bump (blkMove s b (blkFree s) false) rFLS_REFRESH
  if unreadable then blkRetire s b 4 else blkErased s b

/-- REFRESH_BITS as it acts. -/
def refreshBits (s : State) : Nat := clampN 1 100 (rgf s rFLS_CFG 7 0)

/-- RETRY_MAX as it acts: at most the levels that the parameter page counts (R336). -/
def retryMax (s : State) : Nat := min (rgf s rFLS_CFG 11 8) s.flash.levels

/-- FLASH_READ_COMPLETE of one codeword: `bits` corrected; `step` 0 to 2 the step of R336 that corrected it, 3 none. No refresh
starts while PWR_FAIL_N is asserted (R347). -/
def flashRead (s : State) (b page cw bitsN step : Nat) : State :=
  let s := if step ≥ 1 ∧ retryMax s > 0 then bump s rFLS_RETRY_READS else s
  let s := if step ≥ 2 then bump s rFLS_SOFT_READS else s
  let s := if step < 3 ∧ (bitsN > 0 ∨ step > 0) then bump s rFLS_CORR else s
  let v := blkGet s b
  let s := blkPut s b { v with reads := v.reads + 1 }
  let s := if step ≥ 3 then
      let k := pgKey b page
      let p := pageGet s k
      let s := if p.cws.isEmpty then s else
        { s with flash := { s.flash with pages := tset fpage0 s.flash.pages k { p with lost := p.lost ++ [cw % 4] } } }
      smpEvent (rgwb (bump s rFLS_UE) rFLS_STATUS 1 true) 0x14 (blkName b ++ leBytes 2 b ++ leBytes 2 page ++ leBytes 1 cw)
    else s
  let disturb := max 1 (rgf s rFLS_DISTURB 15 0) * 1000
  if s.pwr.fail then (if step ≥ 3 then blkRetire s b 4 else s)
  else if step ≥ 1 ∨ bitsN > refreshBits s ∨ v.reads + 1 ≥ disturb then blkRefresh s b (decide (step ≥ 3)) else s

/-- `n` pages of 16 KiB written, for MIB_WRITTEN: LIFE's key 161 holds the pages not yet counted as a MiB. -/
def lifePages (s : State) (n : Nat) : State :=
  let k := tget 0 s.life 161 + n
  { s with life := tset 0 (tmod 0 s.life 160 (· + k / 64)) 161 (k % 64) }

/-- The flash is worn: free good blocks below 1% of good blocks (R339). -/
def flsWorn (s : State) : Bool :=
  let bad := (s.flash.blocks.filter fun e => e.2.bad).length
  let used := (s.flash.blocks.filter fun e => e.2.valid && !e.2.bad).length
  let good := Config.flashBlocks - bad
  decide (100 * (good - used) < good)

/-- A worn flash: the Sampler log gives up its oldest block (R339). -/
def logYields (s : State) : State :=
  if flsMounted s && flsWorn s then { s with smp := { s.smp with log := s.smp.log.drop (max 1 s.flash.blockPages) } } else s

/-- PROGRAM_COMPLETE: the block holds the unit's pages; a failed program rewrites them elsewhere and retires the block. -/
def flashProgram (s : State) (b pages : Nat) (ok : Bool) : State :=
  let s := logYields (lifePages s pages)
  if ok then
    let v := blkGet s b
    blkPut s b { v with valid := true, progAt := if v.valid then v.progAt else powNs s }
  else
    let s := blkPut s b { blkGet s b with valid := true }
    blkRetire (blkMove s b (blkFree s) true) b 2

/-- Wear levelling (R339): the longest-unchanged data moves to the most-worn free block. -/
def wearLevel (s : State) : State :=
  let good := s.flash.blocks.filter fun e => !e.2.bad
  let hi := (good.map fun e => e.2.erases).foldl max 0
  let lo := if s.flash.blocks.length < Config.flashBlocks then 0 else (good.map fun e => e.2.erases).foldl min hi
  if !s.pwr.fail && decide (hi - lo > max 1 (rgf s rFLS_CFG 31 16)) then
    let victim := (good.filter fun e => e.2.valid).foldl (fun (a : Option (Nat × FBlock)) e =>
      match a with | some x => if e.2.progAt < x.2.progAt then some e else a | none => some e) none
    let target := (good.filter fun e => !e.2.valid).foldl (fun (a : Option (Nat × FBlock)) e =>
      match a with | some x => if e.2.erases > x.2.erases then some e else a | none => some e) none
    match victim, target with
    | some v, some t => blkMove s v.1 t.1 false
    | _, _ => s
  else s

/-- ERASE_COMPLETE. -/
def flashErase (s : State) (b : Nat) (ok : Bool) : State :=
  if ok then
    wearLevel (blkErased s b)
  else blkRetire s b 3

/-- One day in ns. -/
def dayNs : Nat := 86400000000000

/-- PATROL in ns; 0 acts as 1. -/
def patrolNs (s : State) : Nat := max 1 (rgf s rFLS_AGE 23 16) * dayNs

/-- FLASH_PATROL: a pass that is due, or that PATROL_NOW started, reads the valid pages: for each codeword, its block, page
and place in it, bits corrected and step. -/
def flashPatrol (s : State) (reads : List (Nat × Nat × Nat × Nat × Nat)) : State :=
  if !flsMounted s || s.pwr.fail || (!s.flash.patrolling && decide (powNs s < s.flash.patrolAt + patrolNs s)) then s
  else
    let s := { s with flash := { s.flash with patrolAt := powNs s, patrolling := false } }
    reads.foldl (fun s r => flashRead s r.1 r.2.1 r.2.2.1 r.2.2.2.1 r.2.2.2.2) s

/-- RETENTION_REFRESH: the block's oldest page has reached RETAIN days of powered time. -/
def retentionRefresh (s : State) (b : Nat) : State :=
  let v := blkGet s b
  if v.valid && !s.pwr.fail && decide (powNs s ≥ v.progAt + max 1 (rgf s rFLS_AGE 15 0) * dayNs) then blkRefresh s b false else s

/-! ### Structures (R341 to R346) -/

/-- Copies of structure `n` (Table FLS-3). -/
def copyCount (n : Nat) : Nat := if n ≤ 3 then 3 else if n ≤ 8 then 2 else 1

/-- Built-in default body: an empty repair map, zeros of the others (read zero-filled). -/
def copyDefault (n : Nat) : Bytes :=
  if n = 3 then
    List.replicate 20 0 ++ List.replicate 20 0xFF ++ List.replicate 20 0 ++
    ((List.range 64).flatMap fun _ => (List.range 64).map (BitVec.ofNat 8)) ++ List.replicate 4 0
  else []

/-- Fields of a three-copy structure as (offset, bytes) (R344). -/
def copyFields (n : Nat) : List (Nat × Nat) :=
  match n with
  | 1 => [(0, 8), (8, 1), (10, 2), (16, 64), (80, 1), (128, 29792)]
  | 2 => (0, 4) :: ((List.range 4).flatMap fun i => [(4 + 65 * i, 1), (5 + 65 * i, 64)]) ++ [(264, 32)]
  | 3 => ((List.range 4156).map fun i => (i, 1)) ++ [(4156, 2), (4158, 1)]
  | _ => []

/-- Unit kind of a structure. -/
def copyKind (n : Nat) : Nat := if n = 9 then 0x43 else n

/-- Copies of a structure that are intact, as many as it has. -/
def copiesOf (s : State) (n : Nat) : List (Option (Nat × Bytes)) := (List.range (copyCount n)).map (fUnitOf s (copyKind n) 0)

/-- Highest SEQ of a list of copies. -/
def maxSeq (l : List (Option (Nat × Bytes))) : Nat := (l.filterMap fun c => c.map fun x => x.1).foldl max 0

/-- Update a structure (R343): every copy of a three-copy one in turn, the copy with the lower SEQ of a two-copy one. -/
def flsUpdate (s : State) (n : Nat) (body : Bytes) : State :=
  let q := maxSeq (copiesOf s n) + 1
  if copyCount n = 2 then fUnitPut s n 0 (lowerCopy s n) q body
  else (List.range (copyCount n)).foldl (fun s i => fUnitPut s (copyKind n) 0 i q body) s

/-- Three copies voted field by field: the body and the fields that took their default. -/
def voteFields (n : Nat) (a b c : Bytes) : Bytes × List Nat :=
  let d := copyDefault n
  (copyFields n).foldl (fun (r : Bytes × List Nat) f =>
    let x := slice a f.1 f.2
    let y := slice b f.1 f.2
    let z := slice c f.1 f.2
    let pad := padTo (f.1 + f.2) r.1
    if x = y ∨ x = z then (splice pad f.1 x, r.2)
    else if y = z then (splice pad f.1 y, r.2)
    else (splice pad f.1 (slice d f.1 f.2), r.2 ++ [f.1])) ([], [])

/-- What resolution gives and reports: the body, a conflict, the SEQs found, defaulted field offsets, whether a scan rebuilt it. -/
structure Resolved where
  body : Bytes
  conflict : Bool
  seqs : List Nat
  defaults : List Nat
  rebuilt : Bool

/-- Resolve the intact copies of a structure (R345, Table FLS-4); `scan` is what a rebuild by scan gives, if the structure has
one. -/
def resolve (n : Nat) (l : List (Option (Nat × Bytes))) (scan : Option Bytes) : Resolved :=
  let seqs := l.filterMap fun c => c.map fun x => x.1
  let plain := fun (b : Bytes) => ({ body := b, conflict := false, seqs := seqs, defaults := [], rebuilt := false } : Resolved)
  let none_ : Resolved := { body := scan.getD (copyDefault n), conflict := false, seqs := seqs, defaults := [0], rebuilt := scan.isSome }
  match l.filterMap id with
  | [a, b, c] =>
    if a.2 = b.2 ∧ b.2 = c.2 then plain a.2
    else let (x, d) := voteFields n a.2 b.2 c.2; { plain x with defaults := d }
  | [a, b] =>
    if a.1 > b.1 then plain a.2
    else if b.1 > a.1 then plain b.2
    else if a.2 = b.2 then plain a.2
    else { none_ with conflict := true, defaults := [] }
  | [a] => plain a.2
  | _ => none_

/-- Report a resolution: a conflict, and each defaulted field. -/
def copyReport (s : State) (n : Nat) (r : Resolved) : State :=
  let s := if r.conflict then
      smpEvent (rgwb (bump s rFLS_CONFLICT) rFLS_STATUS 3 true) 0x11
        (leBytes 2 n ++ leBytes 3 (r.seqs.getD 0 0) ++ leBytes 3 (r.seqs.getD 1 0))
    else s
  r.defaults.foldl (fun s o => smpEvent (rgwb (bump s rFLS_DEFAULTED) rFLS_STATUS 2 true) 0x12 (leBytes 4 n ++ leBytes 4 o)) s

/-- Resolve a structure at mount, report, and rewrite the copies that are not intact or differ. -/
def mountCopy (s : State) (n : Nat) (scan : Option Bytes) : State :=
  let l := copiesOf s n
  let r := resolve n l scan
  let q := maxSeq l
  let s := copyReport s n r
  (List.range (copyCount n)).foldl (fun s i => match l.getD i none with
    | some x => if x.2 = r.body then s else fUnitPut s (copyKind n) 0 i (q + 1) r.body
    | none => fUnitPut s (copyKind n) 0 i (q + 1) r.body) s

/-- The resolved body of a structure once mounted. -/
def flsBody (s : State) (n : Nat) : Bytes :=
  match (copiesOf s n).filterMap id with
  | [] => copyDefault n
  | c :: r => (r.foldl (fun a b => if b.1 > a.1 then b else a) c).2

/-! ### Library, weave slots, captures (R340, R350, R384) -/

/-- Library entry `i`. -/
def libGet (s : State) (i : Nat) : Option Bytes := (fUnitOf s 0x41 i 0).map fun e => e.2

/-- Every library entry. -/
def libAll (s : State) : List (Nat × Bytes) :=
  (List.range 256).filterMap fun i => (libGet s i).map fun b => (i, b)

/-- SEQ of the next unit of a kind. -/
def kindSeq (s : State) (kind : Nat) : Nat := ((s.flash.units.filter fun u => u.kind == kind).map fun u => u.seq).foldl max 0 + 1

/-- LIBIDX as the library's units give it. -/
def libIndex (s : State) : Bytes := (List.range 256).map fun j => BitVec.ofNat 8 (b2n (libGet s j).isSome)

/-- Weave slot `k`: SEQ and image. -/
def weaveGet (s : State) (k : Nat) : Option (Nat × Bytes) := fUnitOf s 0x41 (256 + k) 0

/-- Capture slot `k`. -/
def capGet (s : State) (k : Nat) : Option Bytes := (fUnitOf s 0x42 k 0).map fun e => e.2

/-! ### Lifetime counters and captures (R349, R350) -/

/-- The LIFE image (Table FLS-6): the seconds of powered time stored at the mount, and those since PGOOD_AON rose. -/
def lifeImage (s : State) : Bytes :=
  let g := fun o => tget 0 s.life o
  leBytes 8 (g 0 + s.time.up / 1000000000) ++ leBytes 4 (g 8) ++ leBytes 4 (g 12) ++ leBytes 4 (g 16) ++ leBytes 4 (g 20) ++
  ((List.range 16).flatMap fun i => leBytes 4 (g (24 + 4 * i))) ++ ((List.range 16).flatMap fun i => leBytes 4 (g (88 + 4 * i))) ++
  leBytes 8 (g 152) ++ leBytes 8 (g 160) ++ leBytes 4 (g 168) ++ leBytes 4 (g 172) ++
  ((List.range 20).flatMap fun i => leBytes 4 (g (176 + 4 * i)))

/-- A stored LIFE image goes back into its fields at mount, to what has been counted since power-on. -/
def lifeLoad (s : State) (b : Bytes) : State :=
  let put := fun (t : Tab Nat) (o n : Nat) => tset 0 t o (leAt b o n + tget 0 t o)
  let t := put (put s.life 0 8) 8 4
  let t := [12, 16, 20, 168, 172].foldl (fun t o => put t o 4) t
  let t := (List.range 32).foldl (fun t i => put t (24 + 4 * i) 4) t
  let t := put (put t 152 8) 160 8
  { s with life := (List.range 20).foldl (fun t i => put t (176 + 4 * i) 4) t }

/-- LIFE_COMMIT: the counters are committed with a LIFE_SNAP record, while the flash is mounted. -/
def lifeCommit (s : State) : State :=
  if flsMounted s then smpEvent (flsUpdate s 5 (lifeImage s)) 0x15 (lifeImage s) else s

/-- Offset and size in bytes of an LPDDR5X region of Table WV-5. -/
def lpRegion (s : State) (r : Nat) : Nat × Nat := let e := tget (0, 0) s.wv.regions r; (e.1 * 65536, e.2 * 65536)

/-- Store bytes in the staging region at an offset, when they fit. -/
def stagingPut (s : State) (off : Nat) (b : Bytes) : State :=
  let (base, size) := lpRegion s 1
  if off + b.length ≤ size then memW s (lpBase + base + off) b else s

/-- CAPTURE_COPY: the oldest capture that waits goes to the next flash slot, once the warm start has ended. -/
def flashCapCopy (s : State) : State :=
  match s.flash.capWait with
  | [] => s
  | (n, a, len) :: rest =>
    if !flsMounted s || s.pwr.fail || s.boot.stage != 0x10 then s
    else
      let k := s.flash.nextCap % 16
      let s := { s with flash := { s.flash with capWait := rest, nextCap := (k + 1) % 16 } }
      let s := fUnitPut s 0x42 k 0 (kindSeq s 0x42) (memR s a len)
      smpEvent (lpCount s 0 a len) 0x17 (leBytes 4 n ++ leBytes 4 k)

/-- FLS_CMD (Table FLS-15). -/
def flsCommand (s : State) (op slot : Nat) : State :=
  let done := fun (s : State) (r : Nat) => rgw s rFLS_CMD_STATUS (fld r 28)
  let at_ := 64 * rg s rFLS_CMD_ARG
  match op with
  | 1 => done (stagingPut s at_ (lifeImage s)) 0
  | 2 => match capGet s slot with
    | some c => done (stagingPut s at_ c) 0
    | none => done s 1
  | 3 => done { s with flash := { s.flash with patrolling := true } } 0
  | _ => done s 5

/-- Computed FLS registers. -/
def flsRegRead (s : State) (o : Nat) : Option Nat :=
  match o with
  | 0x000 => some (rg s rFLS_STATUS - rgf s rFLS_STATUS 29 29 * 2 ^ 29 - rgf s rFLS_STATUS 26 26 * 2 ^ 26 +
      b2n (flsMounted s && flsWorn s) * 2 ^ 29 + b2n (smpFlushing s) * 2 ^ 26)
  | 0x014 =>
    let es := s.flash.blocks.map fun e => e.2.erases
    some (min 255 (100 * es.sum / max 1 (Config.flashBlocks * Config.flashEndurance)) * 2 ^ 24 + min 0xFFFFFF (es.foldl max 0))
  | 0x020 => some 0
  | _ => none

/-! ### The commands -/

/-- FLASH_READ_COMPLETE (R336). -/
def execFlashReadComplete (blk page cw bitsN step : Nat) (s : State) : Host.Outcome State Fault Refusal := .next (flashRead s blk page cw bitsN step)

/-- PROGRAM_COMPLETE (R337). -/
def execProgramComplete (blk pages : Nat) (ok : Bool) (s : State) : Host.Outcome State Fault Refusal := .next (flashProgram s blk pages ok)

/-- ERASE_COMPLETE (R337). -/
def execEraseComplete (blk : Nat) (ok : Bool) (s : State) : Host.Outcome State Fault Refusal := .next (flashErase s blk ok)

/-- FLASH_PATROL (R338). -/
def execFlashPatrol (reads : List (Nat × Nat × Nat × Nat × Nat)) (s : State) : Host.Outcome State Fault Refusal := .next (flashPatrol s reads)

/-- RETENTION_REFRESH (R338). -/
def execRetentionRefresh (blk : Nat) (s : State) : Host.Outcome State Fault Refusal := .next (retentionRefresh s blk)

/-- LIFE_COMMIT (R349). -/
def execLifeCommit (s : State) : Host.Outcome State Fault Refusal := .next (lifeCommit s)

/-- CAPTURE_COPY (R350). -/
def execCaptureCopy (s : State) : Host.Outcome State Fault Refusal := .next (flashCapCopy s)

/-- LIFE_FETCH (R349). -/
def execLifeFetch (s : State) : Host.Outcome State Fault Refusal := .next (flsCommand s 1 0)

/-- CAPTURE_FETCH (R350). -/
def execCaptureFetch (slot : Nat) (s : State) : Host.Outcome State Fault Refusal := .next (flsCommand s 2 slot)

/-- PATROL_NOW (R338). -/
def execPatrolNow (s : State) : Host.Outcome State Fault Refusal := .next (flsCommand s 3 0)

end Sys2Proof.Machine
end

