-- ==== Sys2Proof/Machine/Repair.lean ====
section
/-! DEFINITION. The repair map (Table FLS-5): the island's canonical copy, its changes and their commit (R16, R148, R173, R197,
R320, R325, R343, R392). -/

namespace Sys2Proof.Machine

/-- The canonical copy of the repair map. -/
def repairMap (s : State) : Bytes := if s.flt.repair.isEmpty then copyDefault 3 else s.flt.repair

/-- Byte `i` of it. -/
def repairAt (s : State) (i : Nat) : Nat := byteAt (repairMap s) i

/-- Replace byte `i`. -/
def repairSet (s : State) (i v : Nat) : State :=
  { s with flt := { s.flt with repair := splice (padTo 4160 (repairMap s)) i (leBytes 1 v) } }

/-- Commit the repair map to flash, while it is mounted (R343). -/
def repairCommit (s : State) : State := if flsMounted s then flsUpdate s 3 (slice (repairMap s) 0 4159) else s

/-- Offset of CUBE(t). -/
def repCube (t : Nat) : Nat := 20 + t
/-- Offset of LANES(t). -/
def repLanes (t : Nat) : Nat := 40 + t
/-- Offset of BANKMAP of logical bank `n`. -/
def repBank (n : Nat) : Nat := 60 + n

/-- Record a failed site: its failed cube when one is identified; a site with two failed cubes, or that fails otherwise, is retired
(R148, R320). -/
def repairSite (s : State) (t : Nat) (cube : Option Nat) : State :=
  match cube with
  | some k =>
    let old := repairAt s (repCube t)
    if old = 0xFF ∨ old = k % 32 then repairSet s (repCube t) (k % 32) else repairSet s t 1
  | none => repairSet s t 1

/-- Thresher lanes of a site that failed: LANES(t) (R173). -/
def repairLanes (s : State) (t lanes : Nat) : State :=
  if lanes % 256 = 0 then s else repairSet s (repLanes t) (repairAt s (repLanes t) ||| lanes % 256)

/-- The site's registers take what the repair map says of it (R148, R173). -/
def repairRegs (s : State) (t : Nat) : State :=
  let s := rgwf s (rTHR_STATUS t) 27 20 (repairAt s (repLanes t))
  let k := repairAt s (repCube t)
  if k = 0xFF then rgw (rgw s (rSHF_REPAIR t) 0) (rSHF_LATENCY t) 31
  else rgw (rgw s (rSHF_REPAIR t) (2 ^ 31 + k % 32 * 2 ^ 24)) (rSHF_LATENCY t) 32

end Sys2Proof.Machine
end

