-- ==== Sys2Proof/Machine/TierOps.lean ====
section
/-! DEFINITION. Banks of the bonded tier: groups, spares, fences, errors a bank finds, retirement, tier records (R175 to
R177, R194, R196 to R198, R455). -/

namespace Sys2Proof.Machine

/-! ### Groups -/

/-- The first byte of `n` at device address `a` that lies in a fenced bank. -/
def fencedAt (s : State) (a n : Nat) : Option Nat :=
  if n = 0 ∨ a + n ≤ tierBase ∨ lpBase ≤ a ∨ s.pwr.groups.all (fun g => g.2.fenced.isEmpty) then none
  else (List.range ((a + n - 1 - tierBase) / bankSize + 1 - (a - tierBase) / bankSize)).findSome? fun i =>
    let k := (a - tierBase) / bankSize + i
    if bankFenced s k then some (max a (bankA k)) else none

/-- What makes a read of `n` bytes at `a` fail its consumer: a fenced bank, or an uncorrectable codeword (R194, R197). -/
def devBad (s : State) (a n : Nat) : Option Nat := (fencedAt s a n).orElse fun _ => memBad s a n

/-- What makes a write of `n` bytes at `a` fail (R197, R455). -/
def devWBad (s : State) (a n : Nat) : Option Nat := (fencedAt s a n).orElse fun _ => memWBad s a n

/-- Physical bank of a logical bank (R176). -/
def physBank (s : State) (n : Nat) : Nat := (tget none (groupGet s (n / 64)).map (n % 64)).getD (n % 64)

/-- Spares of a group that serve no bank, take no copy and have not been retired themselves. -/
def freeSpares (v : Group) : List Nat :=
  [64, 65].filter fun k => !(v.map.any fun e => e.2 == some k) && !(v.copying.any fun e => e.2.1 == k) && !v.spent.contains k

/-- CE_LIMIT: 0 acts as 1. -/
def ceLimit (s : State) : Nat := max 1 (rgf s rBT_SCRUB 7 0)

/-- PERIOD of the patrol scrub in ns: 0 acts as 1. -/
def scrubPeriod (s : State) : Nat := max 1 (rgf s rBT_SCRUB 31 16) * 1000000000

/-! ### Records (R198) -/

/-- A tier record. -/
def tierRecord (s : State) (event group bank phys off : Nat) : State :=
  stage s 8 (rgf s rBT_CFG 5 0) (if 2 ≤ event ∧ event ≤ 5 then 6 else 4) 4
    (leBytes 1 event ++ leBytes 1 group ++ leBytes 1 bank ++ leBytes 1 phys ++ leBytes 4 off ++ leBytes 8 s.gt ++ leBytes 8 0)

/-- A tier record about a logical bank. -/
def bankRecord (s : State) (event n off : Nat) : State := tierRecord s event (n / 64) (n % 64) (physBank s n) off

/-! ### Retirement (R197) -/

/-- Report-queue cells that lie in a fenced bank and are free leave the pool (R197). -/
def cellsLeave (s : State) (n : Nat) : State :=
  if n < 4062 ∨ n ≥ 4094 then s
  else { s with rq := { s.rq with used := (List.range 16384).foldl (fun u i => tset false u ((n - 4062) * 16384 + i) true) s.rq.used } }

/-- A bank is to be retired: the copy to a free spare of its group starts, or without one the bank is fenced. `cls`
the fault class, `masked` whether the fault is. -/
def bankRetire (s : State) (n cls addr : Nat) (masked : Bool) : State :=
  let v := groupGet s (n / 64)
  if bankFenced s n || v.copying.any fun e => e.1 == n % 64 then s
  else match freeSpares v with
    | k :: _ =>
      faultDetect (groupPut s (n / 64) { v with copying := v.copying ++ [(n % 64, k, 0)] }) cls (unitCode 4 (n / 64)) (n / 1024) addr 7 0 masked false
    | [] =>
      let s := groupPut s (n / 64) { v with fenced := tset false v.fenced (n % 64) true }
      let s := epochAdvance (repairCommit (repairSet s (repBank n) (0x80 + physBank s n))) 4
      let s := faultInstant s cls (unitCode 4 (n / 64)) (n / 1024) addr 12 0 false false
      bankRecord (cellsLeave s n) 5 n 0

/-! ### Errors a bank finds (R194, R196) -/

/-- A correctable error in unit `u` of bank `n`: corrected and written back; at CE_LIMIT distinct units of one scrub
period the bank is retired. Periods are counted from Global Time 0 (log entry 27). -/
def bankCe (s : State) (n u : Nat) : State :=
  let g := n / 64
  let s := cinc (bump s rBT_CE) (cGroup g 1) 1
  let v := groupGet s g
  let per := s.gt / scrubPeriod s
  let old := (tget [] v.ceUnits (n % 64)).filter fun x => x / 32768 == per
  let new := if old.contains (per * 32768 + u) then old else old ++ [per * 32768 + u]
  let due := match tget none v.ceAt (n % 64) with | some t => decide (s.gt ≥ t + 1000000) | none => true
  let s := groupPut s g { v with ceUnits := tset [] v.ceUnits (n % 64) new,
                                 ceAt := if due then tset none v.ceAt (n % 64) (some s.gt) else v.ceAt }
  let s := if due then bankRecord s 1 n u else s
  let s := faultInstant s 6 (unitCode 4 g) (n / 1024) (bankA n + 64 * u) 1 0 (r5holds s) false
  if new.length ≥ ceLimit s then bankRetire s n 6 (bankA n + 64 * u) (r5holds s) else s

/-- An uncorrectable codeword at device address `a` is read in bank `n`: counted, recorded; the bank is retired unless
the codeword was carried raw (R455). -/
def bankUe (s : State) (n a : Nat) : State :=
  let s := bankRecord (bump s rBT_UE) 2 n ((a - bankA n) / 64)
  let s := faultUe s 18 (unitCode 4 (n / 64)) (n / 1024) a
  if tget false s.carried a then s else bankRetire s n 6 a false

/-- A read met what stands at device address `a` of the tier: an uncorrectable codeword is counted and recorded and its bank retired;
a fenced bank was reported when it was fenced. -/
def tierMiss (s : State) (a : Nat) : State := if (memBad s a 1).isSome then bankUe s (bankOf a) a else s

/-- A mismatch of bank `n`'s duplicate compare: the operation repeats; a recurring mismatch, or the third within 10 ms,
fails the BSE, and the bank is retired while a spare's BSE serves it. -/
def bseMismatch (s : State) (n : Nat) (recurs : Bool) : State :=
  let g := n / 64
  let s := bankRecord (bump (bump s rBT_BSE_CHECK) rBT_BSE_RETRY) 3 n 0
  let s := faultInstant s 5 (unitCode 4 g) (n / 1024) 0 2 0 (r5holds s) false
  let v := groupGet s g
  let old := (tget [] v.bse (n % 64)).filter fun t => decide (t + 10000000 > s.gt)
  let new := old ++ (if recurs then [s.gt, s.gt] else [s.gt])
  let fails := recurs || decide (new.length ≥ 3)
  let s := if recurs then bump s rBT_BSE_CHECK else s
  let s := groupPut s g { v with bse := tset [] v.bse (n % 64) new, bseOut := if fails then tset false v.bseOut (n % 64) true else v.bseOut }
  if fails then bankRetire s n 5 0 (r5holds s) else s

/-! ### Report-queue cells in the tier (R252) -/

/-- What the read of a queue's next record meets: the first of its cells, each with the link entry that leads on from it, that cannot
be read; the command's own hit strikes first. -/
def rqMeets (s : State) (q : Nat) : RqHit :=
  match rqNext s q with
  | none => .none
  | some r =>
    ((List.range r.cells.length).findSome? fun k =>
      let c := r.cells.getD k 0
      if (devBad s (rqCellAddr c) 64).isSome then some (RqHit.cell k)
      else if rqLinked s q r k && (devBad s (rqLinkAddr c) 4).isSome then some (RqHit.link k) else none).getD .none

/-- A host read of RQ_DATA(q): an uncorrectable error it finds is a fault of class 18, and the bank's retirement rules apply (R252,
R326). -/
def rqData (s : State) (q off len : Nat) (hit : RqHit) : Bytes × State :=
  if off = 0 ∧ 0 < len then
    let s := match rqUeAt s q hit with | some a => strike s a | none => s
    let h := rqMeets s q
    match rqUeAt s q h with
    | none => rqAperture s q off len .none
    | some a =>
      let (b, t) := rqAperture s q off len h
      (b, match devBad s a 4 with | some x => tierMiss t x | none => match devBad s a 64 with | some x => tierMiss t x | none => t)
  else rqAperture s q off len hit

/-- APERTURE_READ (R246 to R248): the bytes go to the host port's reply. -/
def execApertureRead (q off len : Nat) (hit : RqHit) (s : State) : Host.Outcome State Fault Refusal :=
  let (b, t) := rqData s (q % 64) off len hit
  .next { t with reply := b }

end Sys2Proof.Machine
end

