-- ==== Sys2Proof/Machine/Num.lean ====
section
/-! DEFINITION. Number formats, rounding and conversion (R109 to R118): values are exact dyadic numbers,
rounded once. -/

namespace Sys2Proof.Machine

/-- An exact value of a floating or integer format: NaN, an infinity, or (−1)^neg × m × 2^e. A zero
keeps its sign. -/
inductive FNum where
  | nan
  | inf (neg : Bool)
  | fin (neg : Bool) (m : Nat) (e : Int)
deriving DecidableEq, Repr

namespace FNum

/-- Negation. -/
def neg : FNum → FNum
  | .nan => .nan
  | .inf s => .inf (!s)
  | .fin s m e => .fin (!s) m e

/-- A NaN. -/
def isNan : FNum → Bool
  | .nan => true
  | _ => false

/-- NaN or an infinity (R124's non-finite). -/
def nonFinite : FNum → Bool
  | .fin _ _ _ => false
  | _ => true

/-- A zero of either sign. -/
def isZero : FNum → Bool
  | .fin _ m _ => m == 0
  | _ => false

/-- The sign bit. -/
def sgn : FNum → Bool
  | .nan => false
  | .inf s => s
  | .fin s _ _ => s

/-- Magnitude. -/
def abs : FNum → FNum
  | .nan => .nan
  | .inf _ => .inf false
  | .fin _ m e => .fin false m e

/-- An integer, exactly. -/
def ofInt (v : Int) : FNum := .fin (decide (v < 0)) v.natAbs 0

/-- A finite value's mantissa, signed, at exponent `e0 ≤ e`. -/
def scaled (e0 : Int) : FNum → Int
  | .fin s m e => let v : Int := ((m <<< (e - e0).toNat : Nat) : Int); if s then -v else v
  | _ => 0

/-- The exponent of a finite value (of its mantissa's last place). -/
def exp0 : FNum → Int
  | .fin _ _ e => e
  | _ => 0

/-- Exact sum; opposite infinities give NaN; an exact cancellation gives +0 (R117, R142). -/
def add : FNum → FNum → FNum
  | .nan, _ => .nan
  | _, .nan => .nan
  | .inf s, .inf t => if s = t then .inf s else .nan
  | .inf s, .fin _ _ _ => .inf s
  | .fin _ _ _, .inf t => .inf t
  | .fin s m e, .fin t n f =>
    if m = 0 ∧ n = 0 then .fin (s && t) 0 0
    else
      let e0 := if e < f then e else f
      let v := scaled e0 (.fin s m e) + scaled e0 (.fin t n f)
      if v = 0 then .fin false 0 0 else .fin (decide (v < 0)) v.natAbs e0

/-- Exact product; 0 × Inf is NaN (R117). -/
def mul : FNum → FNum → FNum
  | .nan, _ => .nan
  | _, .nan => .nan
  | .inf s, .inf t => .inf (s != t)
  | .inf s, .fin t n _ => if n = 0 then .nan else .inf (s != t)
  | .fin s m _, .inf t => if m = 0 then .nan else .inf (s != t)
  | .fin s m e, .fin t n f => .fin (s != t) (m * n) (e + f)

/-- The value compared as a real number: `a < b` (false when either is NaN; zeros are equal). -/
def lt : FNum → FNum → Bool
  | .nan, _ => false
  | _, .nan => false
  | .inf s, .inf t => s && !t
  | .inf s, .fin _ _ _ => s
  | .fin _ _ _, .inf t => !t
  | .fin s m e, .fin t n f =>
    let e0 := if e < f then e else f
    decide (scaled e0 (.fin s m e) < scaled e0 (.fin t n f))

end FNum

/-- Round the magnitude m × 2^e to a multiple of 2^lsb, to nearest, ties to even (R111). -/
def rneAt (m : Nat) (e lsb : Int) : Nat :=
  if lsb ≤ e then m <<< (e - lsb).toNat
  else
    let sh := (lsb - e).toNat
    let q := m >>> sh
    let r := m % 2 ^ sh
    let half := 2 ^ (sh - 1)
    if r > half ∨ (r = half ∧ q % 2 = 1) then q + 1 else q

/-- The exponent of the leading bit of m × 2^e. -/
def topExp (m : Nat) (e : Int) : Int := e + (m.log2 : Nat)

/-- Round to the nearest integer, ties to even (R111), of a finite value; 0 of the others. -/
def rneInt : FNum → Int
  | .fin s m e => let v : Int := (rneAt m e 0 : Nat); if s then -v else v
  | _ => 0

/-- Encode a float with `p` significant bits and 8 exponent bits, bias 127 (FP32: p 24; BF16: p 8), under
R111 to R113: subnormal results flush to zero of their sign, overflow gives ±Inf or saturates. -/
def encWide (p : Nat) (sat : Bool) (v : FNum) : Nat :=
  let sb (s : Bool) : Nat := b2n s <<< (p + 7)
  let infBits := 255 <<< (p - 1)
  match v with
  | .nan => infBits + (1 <<< (p - 2))
  | .inf s => sb s + (if sat then infBits - 1 else infBits)
  | .fin s m e =>
    if m = 0 then sb s
    else
      let lsb := topExp m e - (p - 1 : Nat)
      let q := rneAt m e lsb
      let E := topExp q lsb
      if E < -126 then sb s
      else if E > 127 then sb s + (if sat then infBits - 1 else infBits)
      else
        let frac := (if q = 2 ^ p then 2 ^ (p - 1) else q) - 2 ^ (p - 1)
        sb s + ((E + 127).toNat <<< (p - 1)) + frac

/-- Encode an FP8 format with `p` significant bits, least normal exponent `emin`, bias `bias`: subnormals
kept (R112); over `maxv` (encoded `maxb`) saturates when `sat`, else `infb` (R113). -/
def encFp8 (p : Nat) (emin bias : Int) (maxb infb nanb : Nat) (maxm : Nat) (maxe : Int) (sat : Bool)
    (v : FNum) : Nat :=
  let sb (s : Bool) : Nat := b2n s <<< 7
  match v with
  | .nan => nanb
  | .inf s => sb s + (if sat then maxb else infb)
  | .fin s m e =>
    if m = 0 then sb s
    else
      let t := topExp m e - (p - 1 : Nat)
      let lo := emin - (p - 1 : Nat)
      let lsb := if t < lo then lo else t
      let q := rneAt m e lsb
      if q = 0 then sb s
      else if FNum.lt (.fin false maxm maxe) (.fin false q lsb) then sb s + (if sat then maxb else infb)
      else
        let E := topExp q lsb
        if E < emin then sb s + q
        else
          let frac := (q <<< (p - 1)) >>> q.log2
          sb s + ((E + bias).toNat <<< (p - 1)) + (frac - 2 ^ (p - 1))

/-- Decode a float with `p` significant bits and 8 exponent bits; subnormals read as zero (R112). -/
def decWide (p : Nat) (v : Nat) : FNum :=
  let s := bit v (p + 7)
  let ex := bits v (p + 6) (p - 1)
  let fr := v % 2 ^ (p - 1)
  if ex = 255 then (if fr = 0 then .inf s else .nan)
  else if ex = 0 then .fin s 0 0
  else .fin s (2 ^ (p - 1) + fr) ((ex : Int) - 126 - (p : Int))

/-- FP32 to its value. -/
def decF32 (w : Nat) : FNum := decWide 24 w
/-- BF16 to its value. -/
def decBf16 (w : Nat) : FNum := decWide 8 w
/-- E4M3 to its value (R110). -/
def decE4m3 (v : Nat) : FNum :=
  let ex := bits v 6 3; let fr := bits v 2 0
  if ex = 15 ∧ fr = 7 then .nan
  else if ex = 0 then .fin (bit v 7) fr (-9)
  else .fin (bit v 7) (8 + fr) ((ex : Int) - 10)
/-- E5M2 to its value (R110). -/
def decE5m2 (v : Nat) : FNum :=
  let ex := bits v 6 2; let fr := bits v 1 0
  if ex = 31 then (if fr = 0 then .inf (bit v 7) else .nan)
  else if ex = 0 then .fin (bit v 7) fr (-16)
  else .fin (bit v 7) (4 + fr) ((ex : Int) - 17)

/-- A value to FP32. -/
def encF32 (v : FNum) : Nat := encWide 24 false v
/-- A value to BF16. -/
def encBf16 (v : FNum) : Nat := encWide 8 false v
/-- A value to E4M3: always saturates (R113). -/
def encE4m3 (v : FNum) : Nat := encFp8 4 (-6) 7 0x7E 0x7E 0x7F 448 0 true v
/-- A value to E5M2. -/
def encE5m2 (sat : Bool) (v : FNum) : Nat := encFp8 3 (-14) 15 0x7B 0x7C 0x7E 57344 0 sat v

/-- Element bits of a format code (Table NUM-1). -/
def fmtBits : Nat → Nat
  | 0 => 8 | 1 => 4 | 2 => 8 | 3 => 8 | 4 => 16 | 5 => 32 | 6 => 32 | 7 => 16 | _ => 0

/-- Decode an element of a format code. -/
def decFmt (f v : Nat) : FNum :=
  match f with
  | 0 => .ofInt (toSigned 8 v)
  | 1 => .ofInt (toSigned 4 v)
  | 2 => decE4m3 v
  | 3 => decE5m2 v
  | 4 => decBf16 v
  | 5 => decF32 v
  | 6 => .ofInt (toSigned 32 v)
  | _ => .ofInt (toSigned 16 v)

/-- A format code of Table NUM-1 that is a floating format. -/
def fmtFloat (f : Nat) : Bool := f == 2 || f == 3 || f == 4 || f == 5

/-- Convert to an integer of `w` bits: round, saturate; NaN gives 0 (R114). -/
def encInt (w : Nat) (v : FNum) : Nat :=
  let hi : Int := (2 ^ (w - 1) : Nat) - 1
  let lo : Int := -((2 ^ (w - 1) : Nat) : Int)
  match v with
  | .nan => 0
  | .inf s => ofSigned w (if s then lo else hi)
  | .fin _ _ _ =>
    let r := rneInt v
    ofSigned w (if r < lo then lo else if r > hi then hi else r)

/-- Convert a value to a destination format code (R111 to R114). -/
def encFmt (f : Nat) (sat : Bool) (v : FNum) : Nat :=
  match f with
  | 2 => encE4m3 v
  | 3 => encE5m2 sat v
  | 4 => encWide 8 sat v
  | 5 => encWide 24 sat v
  | _ => encInt (fmtBits f) v

/-- FP32 addition, one rounding (R111, R112). -/
def f32add (a b : Nat) : Nat := encF32 ((decF32 a).add (decF32 b))
/-- FP32 subtraction. -/
def f32sub (a b : Nat) : Nat := encF32 ((decF32 a).add (decF32 b).neg)
/-- FP32 multiplication. -/
def f32mul (a b : Nat) : Nat := encF32 ((decF32 a).mul (decF32 b))
/-- FP32 fused multiply-add: the exact product and sum, rounded once (R106 names a fused
operation of Table TIL-5; DEDUCED, log entry 8). -/
def f32fma (a b c : Nat) : Nat := encF32 (((decF32 a).mul (decF32 b)).add (decF32 c))

/-- FP32 max (`true`) or min (`false`); a NaN operand and zeros of different signs have no stated
result (log entry 8). -/
def f32max (mx : Bool) (a b : Nat) : Nat :=
  let x := decF32 a; let y := decF32 b
  if x.isNan || y.isNan || (x.isZero && y.isZero && (x.sgn != y.sgn)) then
    encF32 (decF32 (Config.vxMaxOpen mx (BitVec.ofNat 32 (encF32 x)) (BitVec.ofNat 32 (encF32 y))).toNat)
  else if FNum.lt x y then encF32 (if mx then y else x)
  else encF32 (if mx then x else y)

/-- The correctly rounded reciprocal (R118, R189): of a zero an infinity, of an infinity a zero. -/
def rcpExact : FNum → FNum
  | .nan => .nan
  | .inf s => .fin s 0 0
  | .fin s m e =>
    if m = 0 then .inf s
    else
      let k := m.log2 + 30
      .fin s (2 * (2 ^ k / m) + (if 2 ^ k % m = 0 then 0 else 1)) (-e - (k : Int) - 1)

/-- FP32 reciprocal, correctly rounded. -/
def f32rcp (a : Nat) : Nat := encF32 (rcpExact (decF32 a))

/-- FP32 of an integer, one rounding. -/
def f32ofInt (v : Int) : Nat := encF32 (.ofInt v)

/-- The exact product of two FP8 or BF16 operands, with the exceptions of R117 (above the FP32 range
becomes ±Inf, below 2^−126 becomes zero of its sign). -/
def prodR117 (a b : FNum) : FNum :=
  match a.mul b with
  | .fin s m e =>
    if m = 0 then .fin s 0 0
    else if topExp m e < -126 then .fin s 0 0
    else if topExp m e > 127 then .inf s
    else .fin s m e
  | v => v

/-- INT32 saturating addition of an exact integer (R116, R143): the sum and whether it saturated. -/
def satAdd32 (a p : Int) : Int × Bool :=
  let v := a + p
  if v > 2147483647 then (2147483647, true)
  else if v < -2147483648 then (-2147483648, true)
  else (v, false)

/-- The first form of R125: an activation code reconstructed. -/
def deqCode (q z : Int) (sa : Nat) : Nat := f32mul (f32ofInt (q - z)) sa

/-- The second form of R125: an integer accumulator dequantised. -/
def deqInt (acc z colsum : Int) (sa sw : Nat) (bias : Option Nat) : Nat :=
  let y := f32mul (f32mul (f32ofInt (acc - z * colsum)) sa) sw
  match bias with
  | some b => f32add y b
  | none => y

/-- The third form of R125: an FP32 accumulator of FP8 operands dequantised. -/
def deqFloat (f sa sw : Nat) (bias : Option Nat) : Nat :=
  let y := f32mul (f32mul f sa) sw
  match bias with
  | some b => f32add y b
  | none => y

/-- The canonical FP32 NaN (R110). -/
def nanF32 : Nat := 0x7FC00000
/-- The canonical BF16 NaN. -/
def nanBf16 : Nat := 0x7FC0

/-- ⌊log2 v⌋ scaled by 8 and floored: ⌊8 · log2 v⌋ for v ≥ 1 (DT8 of R56), by powers of v^8. -/
def log2x8 (v : Nat) : Nat := if v = 0 then 0 else (v ^ 8).log2

/-! ### Shapes of arrays and blocks -/

/-- Bytes of a row of `k` elements: rows start on 64-byte boundaries (R119, R139). -/
def rowBytes (k fmt : Nat) : Nat := cdiv (k * fmtBits fmt) 512 * 64

/-- Bytes of a data block with its header. -/
def blkBytes (k fmt : Nat) : Nat := 64 + 16 * rowBytes k fmt

/-- Bytes of the data blocks of `rows` rows. -/
def blocksBytes (rows k fmt : Nat) : Nat := cdiv rows 16 * 64 + rows * rowBytes k fmt

/-- Kt of a format combination (Table SHF-1). -/
def mmKt (a b : Nat) : Option Nat :=
  if a = 0 ∧ b = 0 then some 32
  else if a = 0 ∧ b = 1 then some 64
  else if (a = 2 ∨ a = 3) ∧ (b = 2 ∨ b = 3) then some 32
  else if a = 4 ∧ b = 4 then some 8
  else none

/-- An FP32 word without subnormals, its NaN canonical (R110, R112). -/
def normF32 (w : Nat) : Nat := encF32 (decF32 w)

/-- A BF16 word without subnormals, its NaN canonical (R110, R112). -/
def normBf16 (w : Nat) : Nat := encBf16 (decFmt 4 w)

end Sys2Proof.Machine
end

