-- ==== Sys2Proof/Machine/Layout.lean ====
section
/-! DEFINITION. Where the fixed structures of the tier lie: history regions, Granary tables, cells, link table, descriptor ring,
request journal, feature state (R62, R63, R175, R177, R219, R317, R380; log entry 32). Every bank gives the first free bytes to its
buckets of the two Granary tables, as R62 has them; the rest of a partition's banks, in ascending order, is its general home space,
whose lowest bytes the other structures take. -/

namespace Sys2Proof.Machine

/-! ### What the weave image sizes -/

/-- CELLS of the partition's part of the pool (R219): POOL × 256 MiB over four partitions of 256-byte cells. -/
def poolCells (s : State) : Nat := rgf s rGLB_CONFIG 15 12 * 262144

/-- SLOTS as it acts. -/
def jSlots (s : State) : Nat := clampN 4096 65536 (rgf s rFLT_JRNL 16 0)

/-- Configuration register of a table. -/
def grnCfg (p : Nat) (ep : Bool) : Nat := if ep then rGRN_EP_CFG p else rGRN_FLOW_CFG p

/-- WAY_LOG2 as it acts. -/
def wayLog2 (s : State) (p : Nat) (ep : Bool) : Nat := clampN 8 (if ep then 17 else 18) (rgf s (grnCfg p ep) 4 0)

/-- Bytes of feature state per entry: FS_STRIDE as it acts (Table GRN-6). -/
def fsStride (s : State) (p : Nat) : Nat := 64 * 2 ^ min 4 (rgf s (rGRN_FLOW_CFG p) 26 24)

/-- The history region of a bank: first and last byte offset (Table BT-12). -/
def histRegion (s : State) (bank : Nat) : Nat × Nat :=
  let b := rgf s rBT_HIST 12 8
  let n := min (rgf s rBT_HIST 5 0) (32 - b)
  let e := (b + n) * 65536
  (b * 65536, if bank ≥ 4062 then min e 0x100000 else e)

/-! ### Free bytes of a bank -/

/-- Bytes of bank `n` below the report queues' pool. -/
def bankCap (n : Nat) : Nat := if n ≥ 4062 then 0x100000 else bankSize

/-- Bytes of bank `n` that are neither history region nor report queues' pool. -/
def bankRoom (s : State) (n : Nat) : Nat := let h := histRegion s n; bankCap n - (h.2 - h.1)

/-- Bank offset of free byte `x` of bank `n`. -/
def freeOff (s : State) (n x : Nat) : Nat := let h := histRegion s n; if x < h.1 ∨ h.2 ≤ h.1 then x else x + (h.2 - h.1)

/-- Which free byte of bank `n` lies at bank offset `o`, if one does. -/
def offFree (s : State) (n o : Nat) : Option Nat :=
  let h := histRegion s n
  if bankCap n ≤ o then none
  else if o < h.1 ∨ h.2 ≤ h.1 then some o
  else if o < h.2 then none else some (o - (h.2 - h.1))

/-! ### Granary tables (R62) -/

/-- Bytes of every home bank that a table's buckets take: 2^W buckets of 512 bytes over the 256 banks of a way. -/
def tableSlice (s : State) (p : Nat) (ep : Bool) : Nat := 2 ^ (wayLog2 s p ep + 1)

/-- Bytes of every home bank that both tables take. -/
def tableSlices (s : State) (p : Nat) : Nat := tableSlice s p false + tableSlice s p true

/-- Home bank, as a logical bank, and bank offset of an entry (R62): bucket n of way i lies in home bank 256i + n mod 256, at
⌊n / 256⌋ × 512 of the bank's allocation for the table. -/
def entPlace (s : State) (p : Nat) (ep : Bool) (i : Nat) : Nat × Nat :=
  let w := wayLog2 s p ep
  let n := i / 8 % 2 ^ w
  let bank := 1024 * p + 256 * (i / 8 / 2 ^ w) + n % 256
  (bank, freeOff s bank ((if ep then tableSlice s p false else 0) + n / 256 * 512 + i % 8 * 64))

/-- Unit `u` of bank `n` is of a Granary table, and so under parity (R177). -/
def parityUnit (s : State) (n u : Nat) : Bool :=
  match offFree s n (64 * u) with
  | some x => decide (x < tableSlices s (n / 1024))
  | none => false

/-- The table and entry index whose 64 bytes are unit `u` of bank `n`, if that is a unit of a Granary table. -/
def unitEntry (s : State) (n u : Nat) : Option (Bool × Nat) :=
  let p := n / 1024
  match offFree s n (64 * u) with
  | none => none
  | some x =>
    if tableSlices s p ≤ x then none
    else
      let ep := decide (tableSlice s p false ≤ x)
      let o := if ep then x - tableSlice s p false else x
      some (ep, (n % 1024 / 256 * 2 ^ wayLog2 s p ep + (o / 512 * 256 + n % 256)) * 8 + o % 512 / 64)

/-! ### General home space -/

/-- Banks of partition `p` that hold no part of the report queues' pool. -/
def plainBanks (p : Nat) : Nat := if p = 3 then 990 else 1024

/-- Bytes of general home space in bank `n`. -/
def generalRoom (s : State) (n : Nat) : Nat := bankRoom s n - tableSlices s (n / 1024)

/-- First byte of general home space that lies in bank `n`. -/
def generalStart (s : State) (n : Nat) : Nat :=
  let m := plainBanks (n / 1024)
  let g := generalRoom s (1024 * (n / 1024))
  if n % 1024 < m then n % 1024 * g else m * g + (n % 1024 - m) * generalRoom s n

/-- Logical bank and bank offset of byte `y` of a partition's general home space. -/
def generalPlace (s : State) (p y : Nat) : Nat × Nat :=
  let m := plainBanks p
  let g := generalRoom s (1024 * p)
  let (n, x) := if y < m * g ∨ p ≠ 3 then (1024 * p + y / g, y % g)
    else (4062 + (y - m * g) / generalRoom s 4062, (y - m * g) % generalRoom s 4062)
  (n, freeOff s n (tableSlices s p + x))

/-- Device address of byte `y` of a partition's general home space. -/
def generalA (s : State) (p y : Nat) : Nat := let e := generalPlace s p y; bankA e.1 + e.2

/-- The byte of general home space at bank offset `o` of bank `n`, if one lies there. -/
def generalOf (s : State) (n o : Nat) : Option Nat :=
  match offFree s n o with
  | some x => if tableSlices s (n / 1024) ≤ x then some (generalStart s n + (x - tableSlices s (n / 1024))) else none
  | none => none

/-- General home space from byte `y` on as pieces of device memory; every boundary is a multiple of 512 bytes. -/
def generalPieces (s : State) (p : Nat) : Nat → Nat → Nat → List (Nat × Nat)
  | 0, _, _ => []
  | f + 1, y, n =>
    if n = 0 then [] else
    let k := min n (512 - y % 512)
    (generalA s p y, k) :: generalPieces s p f (y + k) (n - k)

/-! ### Structures of general home space (R63, R219, R317) -/

/-- Bytes of a partition's cells, link table, descriptor ring and request journal. -/
def tierPool (s : State) : Nat := poolCells s * 288 + 131072 * 32 + jSlots s * 2112

/-- First byte of descriptor ring entry `i`. -/
def ringAt (s : State) (i : Nat) : Nat := poolCells s * 288 + 32 * (i % 131072)

/-- First byte of journal slot `i`. -/
def journalAt (s : State) (i : Nat) : Nat := poolCells s * 288 + 131072 * 32 + 2112 * i

/-- FS_BASE (R63), in general home space. -/
def fsBase (s : State) : Nat := (tierPool s + 1023) / 1024 * 1024

/-- First byte of the feature state of flow entry `i`. -/
def fsAt (s : State) (p i : Nat) : Nat := fsBase s + i * fsStride s p

/-- Bytes of general home space that the fixed structures take. -/
def generalUsed (s : State) (p : Nat) : Nat := (fsAt s p (32 * 2 ^ wayLog2 s p false) + 65535) / 65536 * 65536

/-- Bytes of a partition's Granary tables and feature state (R60, R63). -/
def tierTables (s : State) (p : Nat) : Nat :=
  let w := wayLog2 s p false
  4 * 2 ^ w * 512 + 4 * 2 ^ wayLog2 s p true * 512 + 32 * 2 ^ w * fsStride s p

/-- Bank offset below which bank `n` is taken by fixed structures (its history region may lie below it). -/
def bankTaken (s : State) (n : Nat) : Nat :=
  let p := n / 1024
  let k := tableSlices s p + min (generalRoom s n) (generalUsed s p - generalStart s n)
  let h := histRegion s n
  if k ≤ h.1 ∨ h.2 ≤ h.1 then k else k + (h.2 - h.1)

/-! ### Cells (R219, R197) -/

/-- Device address of cell `c` of partition `p`. -/
def cellA (s : State) (p c : Nat) : Nat := generalA s p (256 * c)

/-- The uncorrectable codeword or fenced bank that a read of cells meets first. -/
def cellsBad (s : State) (p : Nat) (cs : List Nat) : Option Nat := cs.findSome? fun c => devBad s (cellA s p c) 256

/-- The uncorrectable codeword or fenced bank that a read of general home space from byte `y` on meets first. -/
def generalBad (s : State) (p y n : Nat) : Option Nat :=
  (generalPieces s p (n / 512 + 2) y n).findSome? fun e => devBad s e.1 e.2

/-- Read general home space from byte `y` on. -/
def generalR (s : State) (p y n : Nat) : Bytes := (generalPieces s p (n / 512 + 2) y n).flatMap fun e => memR s e.1 e.2

/-- Write pieces of device memory from consecutive bytes. -/
def piecesW : List (Nat × Nat) → Bytes → State → State
  | [], _, s => s
  | (a, n) :: r, b, s => piecesW r (b.drop n) (memW s a (b.take n))

/-- Write general home space from byte `y` on; the codewords covered read good from then on (R455). -/
def generalW (s : State) (p y : Nat) (b : Bytes) : State := piecesW (generalPieces s p (b.length / 512 + 2) y b.length) b s

end Sys2Proof.Machine
end

