-- ==== Sys2Proof/Machine/PacketOps.lean ====
section
/-! DEFINITION. Accessors of the packet path: frames and cells, sub-ports, Granary entries, action table,
ledger, queues (R33, R34, R205, R208, R219 to R222). -/

namespace Sys2Proof.Machine

/-! ### Partitions and sub-ports -/

/-- Partition of a front port. -/
def portPart (n : Nat) : Nat := n / 4

/-- Partition of a logical tile: four each in guarded mode, five in unguarded (R16, R18). -/
def tilePart (s : State) (l : Nat) : Nat := if unguarded s then l / 5 else l / 4

/-- First logical tile of a partition. -/
def firstTile (s : State) (p : Nat) : Nat := if unguarded s then 5 * p else 4 * p

/-- A logical tile's place in its partition. -/
def tilePlace (s : State) (l : Nat) : Nat := l - firstTile s (tilePart s l)

/-- The tile's braid stands (R20): places 0, 1 are braid 0; places 2, 3 are braid 1. -/
def braided (s : State) (l : Nat) : Bool :=
  let i := tilePlace s l
  i < 4 && bit (rgf s rGLB_CONFIG 23 16) (2 * tilePart s l + i / 2)

/-- The tile is the odd member of a standing braid. -/
def braidOdd (s : State) (l : Nat) : Bool := braided s l && tilePlace s l % 2 == 1

/-- BREAKOUT as it acts: 4 to 7 act as 0 (Table FP-8). -/
def breakout (s : State) (n : Nat) : Nat := let b := rgf s (rFP_CFG n) 26 24; if b ≥ 4 then 0 else b

/-- Sub-ports of a lane mode (Table FP-1). -/
def subCount (s : State) (n : Nat) : Nat := match breakout s n with | 0 => 1 | 1 => 2 | _ => 4

/-- Lanes of a sub-port at link up. -/
def lanesFull (s : State) (n : Nat) : Nat := match breakout s n with | 0 => 4 | 1 => 2 | _ => 1

/-- A sub-port at reset: down. -/
def sub0 : SubPort := { lanes := 0, seq := 0 }

/-- Sub-port PORT × 4 + SUB. -/
def subGet (s : State) (n m : Nat) : SubPort := tget sub0 s.subs (n * 4 + m)

/-- Store a sub-port. -/
def subPut (s : State) (n m : Nat) (v : SubPort) : State := { s with subs := tset sub0 s.subs (n * 4 + m) v }

/-- Current rate of a sub-port in Gb/s: its working lanes at 200, or 100 in mode 3 (R33, R35). -/
def subRate (s : State) (n m : Nat) : Nat := (subGet s n m).lanes * (if breakout s n = 3 then 100 else 200)

/-- MISMATCH of an odd port: the pair's BREAKOUT values, as they act, differ (R34). -/
def pairMismatch (s : State) (n : Nat) : Bool := n % 2 == 1 && breakout s n != breakout s (n - 1)

/-- The sub-port carries traffic: enabled, not held disabled by a mismatch, link up (log entry 20). -/
def linkUp (s : State) (n m : Nat) : Bool :=
  rgb s (rFP_CFG n) 31 && !pairMismatch s n && rgb s (rFP_STATUS n) (28 + m)

/-- The pair is tap-only: PAIR_MODE of its even port (R34, R58). -/
def tapOnly (s : State) (n : Nat) : Bool := rgf s (rFP_CFG (n / 2 * 2)) 28 27 != 0

/-- The partner port of a pair. -/
def partner (n : Nat) : Nat := if n % 2 = 0 then n + 1 else n - 1

/-- MAX_FRAME as it acts (Table FP-8). -/
def maxFrame (s : State) (n : Nat) : Nat := clampN 64 9600 (rgf s (rFP_CFG n) 13 0)

/-! ### Frames and cells -/

/-- Handle of a frame. -/
def frameKey (p first : Nat) : Nat := p * 2 ^ 24 + first

/-- The frame with handle `h`. -/
def frameGet (s : State) (h : Nat) : Option Frame := tget none s.frames h

/-- Store a frame. -/
def framePut (s : State) (h : Nat) (f : Frame) : State := { s with frames := tset none s.frames h (some f) }

/-- A traffic-manager slice at reset. -/
def tm0 : Tm :=
  { used := [], lost := [], queues := [], groups := [], ptrs := [], pols := [], lfsr := 1, pause := [], tx := [], sweepNo := 0 }

/-- Slice `p`. -/
def tmGet (s : State) (p : Nat) : Tm := tget tm0 s.tms p

/-- Store slice `p`. -/
def tmPut (s : State) (p : Nat) (v : Tm) : State := { s with tms := tset tm0 s.tms p v }

/-- Cells of partition `p` that lie in fenced banks: they are out of the pool (R197). -/
def cellsOut (s : State) (p : Nat) : List Nat :=
  s.pwr.groups.flatMap fun e =>
    if e.1 / 16 = p then
      e.2.fenced.flatMap fun b =>
        let n := 64 * e.1 + b.1
        ((List.range (generalRoom s n / 256)).map (generalStart s n / 256 + ·)).filter fun c => decide (c < poolCells s)
    else []

/-- Cells of partition `p` that are in use or out of the pool. -/
def cellsUsed (s : State) (p : Nat) : Tab Bool := rqMarkCells (tmGet s p).used (cellsOut s p) true

/-- Free cells of partition `p`. -/
def poolFree (s : State) (p : Nat) : Nat := poolCells s - (cellsUsed s p).length

/-- GUARD: values below 646 act as 646 (R220). -/
def guardCells (s : State) (p : Nat) : Nat := max 646 (rgf s (rTM_POOL_CFG p) 15 0)

/-- Take cells for a frame: the lowest-numbered free ones (log entry 14). -/
def cellsTake (s : State) (p n : Nat) : List Nat × State :=
  let t := tmGet s p
  let u := cellsUsed s p
  let cs := rqTake u (u.length + n) n 0
  (cs, tmPut s p { t with used := rqMarkCells t.used cs true })

/-- Return cells to the free list. -/
def cellsFree (s : State) (p : Nat) (cs : List Nat) : State :=
  let t := tmGet s p
  tmPut s p { t with used := rqMarkCells t.used cs false }

/-- The pipe at reset. -/
def pipe0 : Pipe := { dq := [], replay := [], bypass := false, out := none, headUsed := [], ringNext := 0 }

/-- Pipe `p`. -/
def pipeGet (s : State) (p : Nat) : Pipe := tget pipe0 s.pipes p

/-- Store pipe `p`. -/
def pipePut (s : State) (p : Nat) (v : Pipe) : State := { s with pipes := tset pipe0 s.pipes p v }

/-- A free slot of a pipe's head buffer: the lowest-numbered of 4,096 (R39; log entry 14). -/
def headFree (v : Pipe) : Option Nat :=
  if v.headUsed.length ≥ 4096 then none else (List.range (v.headUsed.length + 1)).find? fun i => !thas v.headUsed i

/-- Free a head-buffer slot, numbered pipe × 4,096 + HEAD_SLOT. -/
def headDrop (s : State) (n : Option Nat) : State :=
  match n with
  | some n =>
    let v := pipeGet s (n / 4096)
    pipePut s (n / 4096) { v with headUsed := tset false v.headUsed (n % 4096) false }
  | none => s

/-- Drop one reference to a frame's cells; at 0 they return to the free list, and the frame's head-buffer slot is free again
(R221; the time at which a slot is free again is the model's choice: DESIGN CHOICE, log entry 122). -/
def frameUnref (s : State) (h : Nat) : State :=
  match frameGet s h with
  | none => s
  | some f =>
    if f.refs ≤ 1 then
      let s := { s with frames := tset none s.frames h none }
      cellsFree (headDrop s f.headSlot) f.part f.cells
    else framePut s h { f with refs := f.refs - 1 }

/-- Add a reference. -/
def frameRef (s : State) (h : Nat) : State :=
  match frameGet s h with
  | none => s
  | some f => framePut s h { f with refs := f.refs + 1 }

/-! ### Granary entries -/

/-- VSTATE of a new entry. -/
def vstate0 : VState :=
  { kind := 0, nan := false, sampled := false, cls := 0, gen := 0, vgen := 0, lslot := none, score := 0, ctx := 0, conf := 0 }

/-- A share at reset: empty, LFSR 1, budgets full at the reset bursts (R71, R78). -/
def share0 : Share :=
  { flow := [], ep := [], marks := [], lfsr := 1, ins := 64, mov := 16, lastSup := none, passFlow := none, passEp := none }

/-- Share `p`. -/
def shareGet (s : State) (p : Nat) : Share := tget share0 s.shares p

/-- Store share `p`. -/
def sharePut (s : State) (p : Nat) (v : Share) : State := { s with shares := tset share0 s.shares p v }

/-- The entry at an index of a table (`ep`: the endpoint table). -/
def entGet (s : State) (p : Nat) (ep : Bool) (i : Nat) : Option GEnt :=
  tget none (if ep then (shareGet s p).ep else (shareGet s p).flow) i

/-- Store or remove an entry. -/
def entPut (s : State) (p : Nat) (ep : Bool) (i : Nat) (v : Option GEnt) : State :=
  let h := shareGet s p
  sharePut s p (if ep then { h with ep := tset none h.ep i v } else { h with flow := tset none h.flow i v })

/-- Change the VSTATE of a flow entry if it is still the entry `uid`; its two words get new parity bits (R64). -/
def entVs (s : State) (p i uid : Nat) (f : VState → VState) : State :=
  match entGet s p false i with
  | some e => if e.uid = uid then entPut s p false i (some { e with vs := f e.vs, par := e.par % 64 }) else s
  | none => s

/-! ### Action table, ledger, counters -/

/-- A verdict unit at reset. -/
def vd0 : Vd := { acts := [], ledger := [], flowCnt := [], qcCnt := [], samp := [], inq := [] }

/-- Verdict unit `p`. -/
def vdGet (s : State) (p : Nat) : Vd := tget vd0 s.vds p

/-- Store verdict unit `p`. -/
def vdPut (s : State) (p : Nat) (v : Vd) : State := { s with vds := tset vd0 s.vds p v }

/-- Word `i` of the action entry of class `k` (Table VD-3). -/
def actWord (s : State) (p k i : Nat) : Nat := (tget [] (vdGet s p).acts k).getD i 0

/-- Action bit of word 0. -/
def actBit (s : State) (p k b : Nat) : Bool := bit (actWord s p k 0) b

/-- QCLASS of class `k`. -/
def actQclass (s : State) (p k : Nat) : Nat := bits (actWord s p k 0) 15 8

/-- Charge a queue-class counter (R210): 32-bit frames, 64-bit bytes, saturating (log entry 21). -/
def qcCharge (s : State) (p k len : Nat) : State :=
  let v := vdGet s p
  let c := actQclass s p k
  vdPut s p { v with qcCnt := tmod (0, 0) v.qcCnt c fun e => (min (e.1 + 1) 0xFFFFFFFF, min (e.2 + len) (2 ^ 64 - 1)) }

/-- Move a flow counter by frames and bytes, up or down with a floor of zero (R211). -/
def flowCharge (s : State) (p k : Nat) (up : Bool) (frames bytes : Nat) : State :=
  let v := vdGet s p
  let i := bits (actWord s p k 2) 13 0
  vdPut s p { v with flowCnt := tmod (0, 0) v.flowCnt i fun e =>
    if up then (min (e.1 + frames) 0xFFFFFFFF, min (e.2 + bytes) (2 ^ 64 - 1)) else (e.1 - frames, e.2 - bytes) }

/-- Ledger slot `i`. -/
def slotGet (s : State) (p i : Nat) : Option LSlot := tget none (vdGet s p).ledger i

/-- Store or free a ledger slot. -/
def slotPut (s : State) (p i : Nat) (v : Option LSlot) : State :=
  let d := vdGet s p
  vdPut s p { d with ledger := tset none d.ledger i v }

/-- Free a resolved slot whose frames have all left (R210). -/
def slotSettle (s : State) (p i : Nat) : State :=
  match slotGet s p i with
  | some l => if !l.opened && l.qleft == 0 then slotPut s p i none else s
  | none => s

/-- Resolve a slot: its flow's LSLOT_V clears if the entry still exists; freed at QLEFT 0 (R210). -/
def slotResolve (s : State) (p i : Nat) : State :=
  match slotGet s p i with
  | none => s
  | some l =>
    let s := slotPut s p i (some { l with opened := false })
    let s := entVs s p l.entry l.uid fun v => if v.lslot = some i then { v with lslot := none } else v
    slotSettle s p i

/-- Resolve a slot without a final verdict: it keeps its charges, VD_STOOD counts it (R210). -/
def slotStood (s : State) (p i : Nat) : State :=
  match slotGet s p i with
  | some l => if l.opened then bump (slotResolve s p i) (rVD_STOOD p) else s
  | none => s

/-- A frame of a slot has left its queue: QLEFT falls (R210). -/
def slotLeft (s : State) (p i : Nat) : State :=
  match slotGet s p i with
  | some l => slotSettle (slotPut s p i (some { l with qleft := l.qleft - 1 })) p i
  | none => s

end Sys2Proof.Machine
end

