-- ==== Sys2Proof/Machine/PeerOps.lean ====
section
/-! DEFINITION. Peer links, sending side: topology, routes, flits, credits, replay buffer (R269 to R274,
R276, R284 to R286). -/

namespace Sys2Proof.Machine

/-! ### Fabric (R273, R276) -/

/-- DEV_ID. -/
def devId (s : State) : Nat := rgf s rPL_CFG 21 16

/-- TOPO as it acts, EN aside: 3 acts as 0. -/
def topoField (s : State) : Nat := let t := rgf s rPL_CFG 30 29; if t = 3 then 0 else t

/-- NX as it acts. -/
def plNx (s : State) : Nat :=
  if topoField s = 2 then clampN 2 8 (rgf s rPL_CFG 13 8) else clampN 2 32 (rgf s rPL_CFG 13 8)

/-- NY as it acts. -/
def plNy (s : State) : Nat := clampN 2 8 (rgf s rPL_CFG 3 0)

/-- Devices of the fabric. -/
def fabricSize (s : State) : Nat :=
  match topoField s with | 1 => plNx s | 2 => plNx s * plNy s | _ => 0

/-- EN as it acts: an ID at or beyond the fabric size acts as EN 0 (Table PL-8). -/
def plEnabled (s : State) : Bool := rgb s rPL_CFG 31 && (topoField s == 0 || decide (devId s < fabricSize s))

/-- The topology in force: 0 none, 1 ring, 2 torus. -/
def topo (s : State) : Nat := if plEnabled s then topoField s else 0

/-- A link at reset: down, 32 credits a pool once up. -/
def plink0 : PLink :=
  { up := false, miswire := false, retraining := false, lanes := 0, neighbour := 0, txSeq := 0, rxSeq := 4095,
    nak := false, replay := [], replays := [], credits := [], owed := [], part := [], out := [], prog := [], sent := [], line := [] }

/-- Link `l`. -/
def linkGet (s : State) (l : Nat) : PLink := tget plink0 s.pl.links l

/-- Store a link. -/
def linkPut (s : State) (l : Nat) (v : PLink) : State :=
  { s with pl := { s.pl with links := tset plink0 s.pl.links l v } }

/-- A device never heard. -/
def peer0 : Peer := { live := false, last := 0, stable := 0, seqs := [], heard := false, down := 0, mismatch := false }

/-- What is known of device `d`. -/
def peerGet (s : State) (d : Nat) : Peer := tget peer0 s.pl.peers d

/-- Store a device's liveness. -/
def peerPut (s : State) (d : Nat) (v : Peer) : State :=
  { s with pl := { s.pl with peers := tset peer0 s.pl.peers d v } }

/-- A link of this device carries messages. -/
def linkUsable (s : State) (l : Nat) : Bool := let v := linkGet s l; v.up && !v.miswire

/-- Device `d` is live here; this device always is. -/
def devLive (s : State) (d : Nat) : Bool := d == devId s || (peerGet s d).live

/-- Link `l` of device `d` is down as far as this device knows (R284, R285). -/
def linkDown (s : State) (d l : Nat) : Bool :=
  if d = devId s then !linkUsable s l else bit (peerGet s d).down l

/-! ### Routes (R274, R285) -/

/-- A ring hop from device `d` in a direction has both rails down. -/
def ringHopDown (s : State) (plus : Bool) (d : Nat) : Bool :=
  if plus then linkDown s d 0 && linkDown s d 1 else linkDown s d 2 && linkDown s d 3

/-- Every hop of a ring path of `k` hops is open. -/
def ringOpen (s : State) (plus : Bool) (n : Nat) : Nat → Nat → Bool
  | 0, _ => true
  | k + 1, d => !ringHopDown s plus d && ringOpen s plus n k (if plus then (d + 1) % n else (d + n - 1) % n)

/-- Every hop of a torus path along one dimension is open: `l` the link, `step` the next device. -/
def torusOpen (s : State) (l : Nat) (step : Nat → Nat) : Nat → Nat → Bool
  | 0, _ => true
  | k + 1, d => !linkDown s d l && torusOpen s l step k (step d)

/-- The link and virtual channel by which a message leaves for `dst`, if there is a route. -/
def route (s : State) (dst num vc : Nat) : Option (Nat × Nat) :=
  let i := devId s
  match topo s with
  | 1 =>
    let n := plNx s
    let d := (dst + n - i % n) % n
    let plus0 := decide (d ≤ n - d)
    let openP := ringOpen s true n d i
    let openM := ringOpen s false n (n - d) i
    let dir := if plus0 then (if openP then some true else if openM then some false else none)
      else (if openM then some false else if openP then some true else none)
    match dir with
    | none => none
    | some plus =>
      let base := if plus then 0 else 2
      let rail := num % 2
      let l := if linkUsable s (base + rail) then base + rail else base + (1 - rail)
      let wrap := if plus then i + 1 == n else i == 0
      some (l, if wrap then 1 else vc)
  | 2 =>
    let nx := plNx s
    let ny := plNy s
    let x := i % nx
    let y := i / nx
    let dx := (dst % nx + nx - x) % nx
    let dy := (dst / nx + ny - y % ny) % ny
    if dx ≠ 0 then
      let openP := torusOpen s 0 (fun d => d / nx * nx + (d % nx + 1) % nx) dx i
      let openM := torusOpen s 2 (fun d => d / nx * nx + (d % nx + nx - 1) % nx) (nx - dx) i
      let plus0 := decide (dx ≤ nx - dx)
      let dir := if plus0 then (if openP then some true else if openM then some false else none)
        else (if openM then some false else if openP then some true else none)
      match dir with
      | none => none
      | some plus =>
        let wrap := if plus then x + 1 == nx else x == 0
        some (if plus then 0 else 2, if wrap then 1 else vc)
    else
      let openP := torusOpen s 1 (fun d => d % nx + nx * ((d / nx + 1) % ny)) dy i
      let openM := torusOpen s 3 (fun d => d % nx + nx * ((d / nx + ny - 1) % ny)) (ny - dy) i
      let plus0 := decide (dy ≤ ny - dy)
      let dir := if plus0 then (if openP then some true else if openM then some false else none)
        else (if openM then some false else if openP then some true else none)
      match dir with
      | none => none
      | some plus =>
        let wrap := if plus then y + 1 == ny else y == 0
        some (if plus then 1 else 3, if wrap then 1 else vc)
  | _ => none

/-- Link `l` of this device is a wrap link (R274). -/
def wrapLink (s : State) (l : Nat) : Bool :=
  let i := devId s
  let nx := plNx s
  if topo s = 1 then (if l < 2 then i + 1 == nx else i == 0)
  else match l with | 0 => i % nx + 1 == nx | 2 => i % nx == 0 | 1 => i / nx + 1 == plNy s | _ => i / nx == 0

/-- The virtual channel of a message to `dst` that arrived on link `l`, before it leaves: in a torus it is VC 0 again when
the message turns from x into y (R274); a wrap link it then crosses puts it on VC 1. -/
def turnVc (s : State) (l dst vc : Nat) : Nat :=
  if topo s = 2 ∧ l % 2 = 0 ∧ dst % plNx s = devId s % plNx s then 0 else vc

/-! ### Flits (R269, R270, R272) -/

/-- Credit pool of a message: 2 × class + VC, class 0 REQ, 1 RSP, 2 HEAD, 3 LOAD and LIVE. -/
def poolOf (kind vc : Nat) : Nat := 2 * (min 3 (kind - 1)) + vc

/-- Credits a link holds in a pool. -/
def credits (v : PLink) (pool : Nat) : Nat := tget 32 v.credits pool

/-- A flit without its CRC field filled by `crc` (Table PL-1). -/
def flitBytes (kind vc : Nat) (first last rev : Bool) (dpart dst src seq : Nat) (nak : Bool) (ack cpool ccount num : Nat)
    (payload : Bytes) : Bytes :=
  let h := leBytes 1 (kind * 16 + vc * 8 + b2n first * 4 + b2n last * 2 + b2n rev) ++ leBytes 1 (dpart * 64 + dst) ++
    leBytes 1 src ++ leBytes 1 payload.length ++ leBytes 2 seq ++ leBytes 2 (b2n nak * 32768 + ack) ++
    leBytes 2 (cpool * 4096 + ccount) ++ leBytes 4 num ++ leBytes 2 0
  let b := padTo 252 (h ++ payload)
  b ++ leBytes 4 (crc32 b).toNat

/-- Credits owed to the neighbour: the pool with the most, and how many. -/
def owedPick (v : PLink) : Nat × Nat :=
  v.owed.foldl (fun a e => if e.2 > a.2 then (e.1, min 255 e.2) else a) (0, 0)

/-- Flits of a message. -/
def msgFlits (m : Msg) : Nat := max 1 (cdiv m.bytes.length 236)

/-- Send flit `i` of a queued message: SEQ, replay buffer, one credit of its pool, what is owed to the neighbour, the TX count. With
its last flit the message leaves the queue and waits to be acknowledged (R270, R272). -/
def sendFlit (s : State) (l : Nat) (m : Msg) (i : Nat) : State :=
  let v := linkGet s l
  let pool := poolOf m.kind m.vc
  let last := decide (msgFlits m ≤ i + 1)
  let o := owedPick v
  let f := flitBytes m.kind m.vc (i == 0) last m.rev m.dpart m.dst m.src v.txSeq v.nak v.rxSeq o.1 o.2 m.num
    ((m.bytes.drop (236 * i)).take 236)
  let s := linkPut s l { v with txSeq := (v.txSeq + 1) % 4096, replay := v.replay ++ [f],
                                credits := tset 32 v.credits pool (credits v pool - 1), owed := tmod 0 v.owed o.1 (· - o.2),
                                out := if last then v.out.erase m else v.out, prog := tset 0 v.prog pool (if last then 0 else i + 1),
                                sent := if last then v.sent ++ [(m, v.txSeq)] else v.sent, line := f }
  cinc (bumpDiv s (rPL_L_TX_FLITS l) 1 1024) (cLink l 0) 1

/-- The next flit of queued message `m` may go: the link is up, `m` is the oldest of its pool, whose messages go one after the other,
the pool has a credit and the replay buffer room: no more than 512 flits are ever unacknowledged (R270, R272, R273). -/
def flitReady (v : PLink) (m : Msg) : Bool :=
  let pool := poolOf m.kind m.vc
  v.up && !v.retraining && (!v.miswire || m.kind == 5) && decide (1 ≤ credits v pool) && decide (v.replay.length < 512) &&
  (v.out.find? fun x => poolOf x.kind x.vc == pool) == some m

/-- Send queued flits while one may go. -/
def linkPump (l : Nat) : Nat → State → State
  | 0, s => s
  | n + 1, s =>
    let v := linkGet s l
    match v.out.find? (flitReady v) with
    | none => s
    | some m => linkPump l n (sendFlit s l m (tget 0 v.prog (poolOf m.kind m.vc)))

/-- Flits of the messages that wait on a link. -/
def linkFlits (v : PLink) : Nat := (v.out.map msgFlits).sum

/-- Send all that can go out of a link. -/
def linkDrain (s : State) (l : Nat) : State := linkPump l (linkFlits (linkGet s l)) s

/-- Flits of REQ and HEAD messages in the outbound queue of a link, which holds 4,096 (R288). What finds it full waits behind it
(DESIGN CHOICE, log entry 117). -/
def linkQueued (v : PLink) : Nat :=
  min 4096 (((v.out.filter fun m => m.kind == 1 || m.kind == 3).map msgFlits).sum - (([0, 1, 4, 5] : List Nat).map (tget 0 v.prog)).sum)

/-- PL_FWDQ.HIGH: 0 acts as 1. -/
def fwdqHigh (s : State) : Nat := max 1 (rgf s rPL_FWDQ 11 0)

/-- Message `m` on its way out is one of context `c`'s from partition `p`: a forwarded request, or the head of a frame of a class
that TIL_BIND binds to the context. -/
def msgOfCtx (s : State) (p c : Nat) (m : Msg) : Bool :=
  let w := leAt m.bytes 0 4
  (m.kind == 1 || m.kind == 3) && m.via.isNone && bits w 15 14 == p &&
  (if bit (byteAt m.bytes 7) 7 then
     let b := rg s (rTIL_BIND p (byteAt m.bytes 6))
     bit b 31 && bits b 30 26 * 1024 + bits b 25 16 == c
   else match tget none s.pl.fwd (p * 16384 + bits w 13 0) with
     | some e => e.ctx == c
     | none => false)

/-- An outbound queue at or above PL_FWDQ.HIGH holds a message of context `c` of partition `p` (R288). -/
def fwdWaits (s : State) (p c : Nat) : Bool :=
  (List.range 4).any fun l => let v := linkGet s l; decide (linkQueued v ≥ fwdqHigh s) && v.out.any (msgOfCtx s p c)

/-- Queue a message on a link and send what can go. -/
def linkQueue (s : State) (l : Nat) (m : Msg) : State :=
  let v := linkGet s l
  linkDrain (linkPut s l { v with out := v.out ++ [m] }) l

/-- A slot with nothing to send: an IDLE flit with the last SEQ, ACK, NAK and the credits owed (R269, R270, R272). -/
def idleSlot (s : State) (l : Nat) : State :=
  let v := linkGet s l
  if !v.up || v.retraining then s else
  let o := owedPick v
  linkPut s l { v with owed := tmod 0 v.owed o.1 (· - o.2),
                       line := flitBytes 0 0 false false false 0 0 (devId s) ((v.txSeq + 4095) % 4096) v.nak v.rxSeq o.1 o.2 0 [] }

/-- A flit sent again: the ACK, NAK and credits of this moment (R270, R272). -/
def flitAgain (v : PLink) (o : Nat × Nat) (f : Bytes) : Bytes :=
  let b := splice (f.take 252) 6 (leBytes 2 (b2n v.nak * 32768 + v.rxSeq) ++ leBytes 2 (o.1 * 4096 + o.2))
  b ++ leBytes 4 (crc32 b).toNat

/-- Send every unacknowledged flit again, from ACK + 1 (R270, R271). -/
def replayAll (s : State) (l : Nat) : State :=
  let v := linkGet s l
  match v.replay with
  | [] => s
  | f :: rest =>
    let o := owedPick v
    let r := flitAgain v o f :: rest.map (flitAgain v (0, 0))
    let s := linkPut s l { v with replay := r, owed := tmod 0 v.owed o.1 (· - o.2), line := r.getLastD [] }
    cinc (bumpDiv s (rPL_L_TX_FLITS l) r.length 1024) (cLink l 0) r.length

/-- Originate a message: it takes the next MSG number (R283) and the route's link; without a route it is
discarded and counted (R285). Answers the link taken. -/
def plSend (s : State) (kind dst dpart : Nat) (b : Bytes) : Option Nat × State :=
  let num := s.pl.msg
  let s := { s with pl := { s.pl with msg := (num + 1) % 2 ^ 32 } }
  match route s dst num 0 with
  | none => (none, bump s rPL_UNROUTABLE)
  | some (l, vc) => (some l, linkQueue s l ⟨kind, dst, dpart, devId s, num, false, vc, none, 0, b⟩)

/-- Message header of Table PL-3. -/
def msgHdr (opart fent fply cls : Nat) (noreq : Bool) (trig gt length subport : Nat) : Bytes :=
  leBytes 4 (opart * 2 ^ 14 + fent) ++ leBytes 2 fply ++ leBytes 1 cls ++ leBytes 1 (b2n noreq * 128 + trig % 32) ++
  leBytes 8 gt ++ leBytes 2 length ++ leBytes 1 subport ++ leBytes 13 0

/-! ### Owners (R276, R286) -/

/-- The first live device at or after `d`, wrapping over the fabric. -/
def firstLive (s : State) (n : Nat) : Nat → Nat → Nat
  | 0, d => d
  | k + 1, d => if devLive s d then d else firstLive s n k ((d + 1) % n)

/-- Owner device and partition of a flow key. -/
def ownerOf (s : State) (key : Bytes) : Nat × Nat :=
  let h := (crc32c (BitVec.ofNat 32 (rg s rPL_OWN_SEED)) key).toNat % 256
  let w := rg s (rPL_OWNER h)
  let n := fabricSize s
  let d := bits w 5 0
  if topo s = 0 ∨ d ≥ n then (devId s, bits w 7 6)
  else (firstLive s n n d, bits w 7 6)

/-- Forwarding mode of a class: 3 acts as 0 (R277). -/
def fwdMode (s : State) (k : Nat) : Nat :=
  let m := bits (rg s (rPL_FWD (k / 16))) (2 * (k % 16) + 1) (2 * (k % 16))
  if m = 3 then 0 else m

/-! ### Forward table (R281, R282) -/

/-- Key of forward-table entry `i` of partition `p`. -/
def fwdKey (p i : Nat) : Nat := p * 16384 + i

/-- FPLY of a device at a partition. -/
def fplyGet (s : State) (p d : Nat) : Nat := tget 0 s.pl.fply (p * 64 + d)

/-- A free forward-table entry of a partition: the lowest-numbered (log entry 14). -/
def fwdFree (s : State) (p : Nat) : Option Nat :=
  let used := (s.pl.fwd.filter fun e => e.1 / 16384 == p).map fun e => e.1 % 16384
  if used.length ≥ 16384 then none else (List.range (used.length + 1)).find? fun i => !used.contains i

/-- Store or free a forward-table entry. -/
def fwdPut (s : State) (p i : Nat) (v : Option Fwd) : State :=
  { s with pl := { s.pl with fwd := tset none s.pl.fwd (fwdKey p i) v } }

end Sys2Proof.Machine
end

