-- ==== Sys2Proof/Machine/Traffic.lean ====
section
/-! DEFINITION. The traffic manager: policers, AQM, admission, shapers, the scheduler, egress edits, PFC and
sampling (R219 to R238). -/

namespace Sys2Proof.Machine

/-! ### Policers (R226, R227) -/

/-- A policer at reset: disabled. -/
def pol0 : Policer := { cfg := 0xD0000000, rate2 := 0, cbs := 0, ebs := 0, c := 0, e := 0, last := 0 }

/-- Policer `i` of partition `p`. -/
def polGet (s : State) (p i : Nat) : Policer := tget pol0 (tmGet s p).pols i

/-- Store a policer. -/
def polPut (s : State) (p i : Nat) (v : Policer) : State :=
  let t := tmGet s p
  tmPut s p { t with pols := tset pol0 t.pols i v }

/-- MODE of a policer. -/
def polMode (v : Policer) : Nat := bits v.cfg 31 30

/-- The buckets with the tokens gained up to `now`; in MODE 0 what overflows C feeds E. -/
def polRefill (v : Policer) (now : Nat) : Policer :=
  let dt := now - v.last
  let gc := dt * bits v.cfg 23 0 * 8
  let capC := v.cbs * 1000000
  let capE := v.ebs * 1000000
  let c := min (v.c + gc) capC
  if polMode v = 0 then { v with c := c, e := min (v.e + (v.c + gc - capC)) (max v.e capE), last := now }
  else { v with c := c, e := min (v.e + dt * v.rate2 * 8) capE, last := now }

/-- Charge a frame of `len` bytes with a pre-colour: colour (0 green, 1 yellow, 2 red), bytes deducted,
policer after (Table TM-2). -/
def polCharge (v : Policer) (now pre len : Nat) : Nat × Nat × Policer :=
  let v := polRefill v now
  let b := len * 1000000
  match polMode v with
  | 3 => (0, 0, v)
  | 1 =>
    if pre = 2 ∨ v.e < b then (2, 0, v)
    else if pre = 0 ∧ v.c ≥ b then (0, len, { v with e := v.e - b, c := v.c - b })
    else (1, len, { v with e := v.e - b })
  | _ =>
    if pre = 0 ∧ v.c ≥ b then (0, len, { v with c := v.c - b })
    else if pre ≠ 2 ∧ v.e ≥ b then (1, len, { v with e := v.e - b })
    else (2, 0, v)

/-- Refund of MBYTES under re-class (Table TM-3). -/
def polRefund (v : Policer) (now bytes : Nat) : Policer :=
  let v := polRefill v now
  let b := bytes * 1000000
  let capC := v.cbs * 1000000
  let capE := v.ebs * 1000000
  match polMode v with
  | 3 => v
  | 1 => { v with e := min (v.e + b) capE, c := min (v.c + b) capC }
  | _ => { v with c := min (v.c + b) capC, e := min (v.e + (v.c + b - capC)) (max v.e capE) }

/-- Charge of MBYTES under re-class, floored at 0 (Table TM-3). -/
def polRecharge (v : Policer) (now bytes : Nat) : Policer :=
  let v := polRefill v now
  let b := bytes * 1000000
  match polMode v with
  | 3 => v
  | 1 => { v with e := v.e - b, c := v.c - b }
  | _ => { v with c := v.c - b, e := v.e - (b - v.c) }

/-- A write to a policer's configuration: each bucket full (R226). -/
def polFill (v : Policer) (now : Nat) : Policer := { v with c := v.cbs * 1000000, e := v.ebs * 1000000, last := now }

/-- Pre-colour: green for a colour-blind policer, else TM_CMAP at byte 0 of field slot 61 (R226). -/
def preColour (s : State) (p : Nat) (v : Policer) (slot61 : Nat) : Nat :=
  if bit v.cfg 29 then
    let c := bits (rg s (rTM_CMAP p (slot61 / 16))) (2 * (slot61 % 16) + 1) (2 * (slot61 % 16))
    if c ≥ 2 then 2 else c
  else 0

/-! ### Queues, groups, shapers (R222, R232, R233) -/

/-- A queue at reset: LIMIT 16,384, unshaped, tokens full (log entry 22). -/
def q0 : TmQueue :=
  { cfg := 24, limit := 16384, shaper := 0x80000000, burst := 256, tokens := 16384000000, tokAt := 0, dc := 0,
    fresh := true, drops := 0, ents := [], deqAt := 0 }

/-- A group at reset. -/
def g0 : TmGroup :=
  { cfg := 0x4000, shaper := 0x80000000, burst := 256, tokens := 16384000000, tokAt := 0, dc := 0, fresh := true, ptr := 0 }

/-- Queue `q` of partition `p`. -/
def qGet (s : State) (p q : Nat) : TmQueue := tget q0 (tmGet s p).queues q

/-- Store a queue. -/
def qPut (s : State) (p q : Nat) (v : TmQueue) : State :=
  let t := tmGet s p
  tmPut s p { t with queues := tset q0 t.queues q v }

/-- Group `g` of partition `p`. -/
def gGet (s : State) (p g : Nat) : TmGroup := tget g0 (tmGet s p).groups g

/-- Store a group. -/
def gPut (s : State) (p g : Nat) (v : TmGroup) : State :=
  let t := tmGet s p
  tmPut s p { t with groups := tset g0 t.groups g v }

/-- Cells queued. -/
def qCells (v : TmQueue) : Nat := (v.ents.map fun e => e.cells).sum

/-- RATE of a shaper word as it acts. -/
def shRate (w : Nat) : Nat := min 12500000 (bits w 23 0)

/-- Tokens of a shaper now (R233). -/
def shTokens (shaper burst : Nat) (tokens : Int) (tokAt now : Nat) : Int :=
  let cap : Int := ((if burst = 0 then 1 else burst) * 64000000 : Nat)
  let t := tokens + ((shRate shaper * 8 * (now - tokAt) : Nat) : Int)
  if t > cap then cap else t

/-- The shaper allows: RATE 0, or tokens above 0. -/
def shAllows (shaper burst : Nat) (tokens : Int) (tokAt now : Nat) : Bool :=
  shRate shaper == 0 || decide (shTokens shaper burst tokens tokAt now > 0)

/-- Tokens after a configuration write (R233). -/
def shFill (shaper burst : Nat) : Int :=
  if bit shaper 31 then ((if burst = 0 then 1 else burst) * 64000000 : Nat) else 0

/-- QUANTUM in bytes: 0 acts as 1, above 16,384 as 16,384, in 64-byte units. -/
def quantum (cfg : Nat) : Nat := 64 * clampN 1 16384 (bits cfg 14 0)

/-- QCOUNT of port `n`. -/
def qCount (s : State) (n : Nat) : Nat := 1024 * 2 ^ rgf s (rTM_PORT_CFG (portPart n) (n % 4)) 27 26

/-- QBASE of port `n`. -/
def qBase (s : State) (n : Nat) : Nat := 1024 * rgf s (rTM_PORT_CFG (portPart n) (n % 4)) 23 20

/-- First queue and size of a sub-port's sub-block (R222). -/
def subBlock (s : State) (n m : Nat) : Nat × Nat :=
  let k := qCount s n / subCount s n
  (qBase s n + m * k, k)

/-- First group and number of groups of a sub-port. -/
def subGroups (s : State) (n m : Nat) : Nat × Nat :=
  let k := qCount s n / (4 * subCount s n)
  (qBase s n / 4 + m * k, k)

/-- The group of a queue of sub-port (n, m). -/
def groupOf (s : State) (n m q : Nat) : Nat :=
  let (b, k) := subGroups s n m
  b + bits (qGet s (portPart n) q).cfg 30 20 % k

/-- The sub-port that owns queue `q` of partition `p`. -/
def queueSub (s : State) (p q : Nat) : Nat × Nat :=
  let n := ((List.range 4).map fun i => 4 * p + i).find? fun n => decide (qBase s n ≤ q ∧ q < qBase s n + qCount s n)
  match n with
  | some n => (n, (q - qBase s n) / (qCount s n / subCount s n))
  | none => (4 * p, 0)

/-- The mirror queue of a sub-port: the last of its sub-block (R223). -/
def mirrorQueue (s : State) (n m : Nat) : Nat := let (b, k) := subBlock s n m; b + k - 1

/-- Queue selection (R223): class `k`'s QCLASS through TM_QCMAP, spread by the entry index. -/
def queueSelect (s : State) (n m k entry : Nat) : Nat :=
  let p := portPart n
  let (b, size) := subBlock s n m
  let w := rg s (rTM_QCMAP p (actQclass s p k))
  b + (bits w 12 0 + entry % 2 ^ (min 8 (bits w 19 16))) % size

/-- When the pause ends that a decision at time `gt` observes: the last value that it may observe (R234). -/
def pauseEnd (gt : Nat) (l : List (Nat × Nat)) : Nat := (((l.filter fun e => decide (e.1 ≤ gt)).getLast?).map fun e => e.2).getD 0

/-- Is priority `pri` of sub-port (n, m) paused at the present time (R234). -/
def paused (s : State) (n m pri : Nat) : Bool :=
  decide (s.gt < pauseEnd s.gt (tget [] (tmGet s (portPart n)).pause ((n * 4 + m) * 8 + pri)))

/-- Priority of a queue: PRI of its group. -/
def queuePri (s : State) (n m q : Nat) : Nat := bits (gGet s (portPart n) (groupOf s n m q)).cfg 26 24

/-! ### Admission (R225, R228, R229) -/

/-- ECN field of the IP header of a frame: 0 when it has none. -/
def ecnOf (b : Bytes) (ipver ipoff : Nat) : Nat :=
  if ipver = 1 then byteAt b (ipoff + 1) % 4
  else if ipver = 2 then byteAt b (ipoff + 1) / 16 % 4
  else 0

/-- Does the AQM profile act on a queue of depth `d`; the LFSR advances only for the random test (R229). -/
def aqmActs (s : State) (p k d : Nat) : Bool × State :=
  let mn := rgf s (rTM_AQM_A p k) 21 0
  let mx := rgf s (rTM_AQM_B p k) 21 0
  let maxp := rgf s (rTM_AQM_B p k) 31 24
  if mx ≤ mn then (decide (d ≥ mn), s)
  else if d ≥ mx then (true, s)
  else if d < mn then (false, s)
  else
    let t := tmGet s p
    let l := lfsrNext t.lfsr
    (decide (l.toNat % 65536 < maxp * 256 * (d - mn) / (mx - mn)), tmPut s p { t with lfsr := l })

/-- A frame dropped in the traffic manager: counted in the partition's counter of all causes. -/
def tmDropped (s : State) (p : Nat) : State := cinc s (cPart p 16) 1

/-- A drop at a queue, steps 5 and 6: TM_Q_DROPS. -/
def queueDrop (s : State) (p q : Nat) : State :=
  let v := qGet s p q
  tmDropped (qPut s p q { v with drops := min 0xFFFFFFFF (v.drops + 1) }) p

/-- Steps 5 to 7 of Table TM-1 at queue `q` of sub-port (n, m): was the entry enqueued. -/
def admitAt (s : State) (n m q : Nat) (e : QEnt) (ecn : Nat) : Bool × State :=
  let p := portPart n
  let v := qGet s p q
  if !linkUp s n m then (false, queueDrop (bump s (rTM_DROP_LINK p)) p q)
  else if qCells v + e.cells > v.limit then (false, queueDrop (bump s (rTM_DROP_LIMIT p)) p q)
  else
    let k := bits v.cfg 19 15
    let (acts, s) := aqmActs s p k (qCells v)
    let ect := ecn == 1 || ecn == 2
    let mark := acts && ect && rgb s (rTM_AQM_A p k) 31
    if acts && !mark && rgb s (rTM_AQM_A p k) 30 then (false, queueDrop (bump s (rTM_DROP_WRED p)) p q)
    else
      let s := if mark then cinc (bump s (rTM_ECN_MARK p)) (cPart p 17) 1 else s
      let v := qGet s p q
      let s := qPut s p q { v with ents := v.ents ++ [{ e with enq := s.gt, ce := mark }] }
      (true, cinc s (cPart p 14) 1)

/-! ### Egress edits (R213, R230) -/

/-- Ones' complement sum of the 16-bit words of a header with its checksum field zero. -/
def ipSum (h : Bytes) : Nat :=
  let words := (List.range (h.length / 2)).map fun i => if i = 5 then 0 else beAt h (2 * i) 2
  let t := words.sum
  let t := t % 65536 + t / 65536
  let t := t % 65536 + t / 65536
  65535 - t

/-- Recompute the IPv4 header checksum. -/
def ipFix (b : Bytes) (off : Nat) : Bytes :=
  let n := 4 * (byteAt b off % 16)
  splice b (off + 10) (beBytes 2 (ipSum (slice b off n)))

/-- Write the ECN field CE to an ECT frame. -/
def setCe (b : Bytes) (ipver off : Nat) : Bytes :=
  let v := byteAt b (off + 1)
  if ipver = 1 then splice b (off + 1) [BitVec.ofNat 8 (v ||| 3)]
  else splice b (off + 1) [BitVec.ofNat 8 (v ||| 0x30)]

/-- Write the DSCP. -/
def setDscp (b : Bytes) (ipver off dscp : Nat) : Bytes :=
  if ipver = 1 then splice b (off + 1) [BitVec.ofNat 8 (dscp * 4 + byteAt b (off + 1) % 4)]
  else
    let tc := dscp * 4 + byteAt b (off + 1) / 16 % 4
    splice b off [BitVec.ofNat 8 (byteAt b off / 16 * 16 + tc / 16), BitVec.ofNat 8 (tc % 16 * 16 + byteAt b (off + 1) % 16)]

/-- The frame check sequence over a frame's bytes. -/
def fcs (b : Bytes) : Bytes := leBytes 4 (crc32 b).toNat

/-- Replace the last four bytes by the FCS of the rest. -/
def refcs (b : Bytes) : Bytes := let d := b.take (b.length - 4); d ++ fcs d

/-- The verdict tag inserted after the source address (R213). -/
def insertTag (b : Bytes) (etype tagw gen conf : Nat) : Bytes :=
  b.take 12 ++ beBytes 2 etype ++ beBytes 2 tagw ++ leBytes 2 gen ++ leBytes 2 conf ++ b.drop 12

/-- Does the tag fit the egress port's MAX_FRAME. -/
def tagFits (s : State) (n : Nat) (e : QEnt) : Bool := decide (e.length + 8 ≤ maxFrame s n)

/-- The edits at dequeue, in order: MARK, CE, tag, IPv4 checksum, FCS (R230); a copy is cut to its length. -/
def egressEdit (s : State) (n : Nat) (e : QEnt) (b : Bytes) : Bytes × State :=
  let p := portPart n
  let b := if e.length < b.length then b.take e.length else b
  let kind := if e.markKind = 3 then 0 else e.markKind
  let wantCe := e.mark && (kind == 0 || kind == 2)
  let wantDscp := e.mark && (kind == 1 || kind == 2)
  let ecn := ecnOf b e.ipver e.ipoff
  let s := if wantCe && ecn == 0 then bump s (rTM_MARK_NOT_ECT p) else s
  let b1 := if wantCe && (ecn == 1 || ecn == 2) then setCe b e.ipver e.ipoff else b
  let b2 := if wantDscp && e.ipver != 0 then setDscp b1 e.ipver e.ipoff e.dscp else b1
  let b3 := if e.ce && (ecn == 1 || ecn == 2) then setCe b2 e.ipver e.ipoff else b2
  let b4 := if e.ipver = 1 ∧ b3 ≠ b then ipFix b3 e.ipoff else b3
  if e.tag && !tagFits s n e then (refcs b4, bump s (rVD_TAG_SKIP p))
  else if e.tag then (refcs (insertTag b4 (rgf s (rVD_TAG p) 15 0) e.tagw e.gen e.conf), s)
  else (refcs b4, s)

/-- Cost of an entry: the bytes transmitted plus OVERHEAD (R231). -/
def entCost (s : State) (n : Nat) (e : QEnt) : Nat :=
  e.length + (if e.tag && tagFits s n e then 8 else 0) + rgf s (rTM_PORT_CFG (portPart n) (n % 4)) 7 0

/-! ### The scheduler (R231 to R233) -/

/-- Is a queue of sub-port (n, m) eligible. -/
def qEligible (s : State) (n m q : Nat) : Bool :=
  let v := qGet s (portPart n) q
  !v.ents.isEmpty && shAllows v.shaper v.burst v.tokens v.tokAt s.gt && !paused s n m (queuePri s n m q)

/-- Eligible queues of a sub-port in ascending order; of a tap-only sub-port only the mirror queue (R224). -/
def subEligible (s : State) (n m : Nat) : List Nat :=
  let (b, k) := subBlock s n m
  ((tmGet s (portPart n)).queues.map fun e => e.1).filter fun q =>
    decide (b ≤ q ∧ q < b + k) && (!tapOnly s n || q == b + k - 1) && qEligible s n m q

/-- Put a number into an ascending list. -/
def sortedInsert (x : Nat) : List Nat → List Nat
  | [] => [x]
  | y :: r => if x ≤ y then x :: y :: r else y :: sortedInsert x r

/-- Eligible groups of a priority, ascending. -/
def prioGroups (s : State) (n m pri : Nat) : List Nat :=
  let p := portPart n
  let gs := ((subEligible s n m).map (groupOf s n m)).eraseDups
  (gs.filter fun g =>
    let v := gGet s p g
    bits v.cfg 26 24 == pri && shAllows v.shaper v.burst v.tokens v.tokAt s.gt).foldr sortedInsert []

/-- First element at or after a pointer, wrapping. -/
def atOrAfter (l : List Nat) (ptr : Nat) : Option Nat :=
  match l.find? fun x => decide (x ≥ ptr) with
  | some x => some x
  | none => l.head?

/-- An empty queue, or a group with no frames, has dc 0 and is fresh (R232). -/
def settleDc (s : State) (n m q : Nat) : State :=
  let p := portPart n
  let v := qGet s p q
  if !v.ents.isEmpty then s else
  let s := qPut s p q { v with dc := 0, fresh := true }
  let g := groupOf s n m q
  let (b, k) := subBlock s n m
  let busy := (tmGet s p).queues.any fun e =>
    decide (b ≤ e.1 ∧ e.1 < b + k) && !e.2.ents.isEmpty && groupOf s n m e.1 == g
  if busy then s else
    let w := gGet s p g
    gPut s p g { w with dc := 0, fresh := true }

/-- First byte of general home space of the link-table entry of a frame's first cell. -/
def linkAt (s : State) (c : Nat) : Nat := poolCells s * 256 + 32 * c

/-- What a transmission read of queue `q` is struck by: a cell of the head's frame, or the link-table entry that names the entries
after it. -/
def txStrike (s : State) (p q : Nat) (hit : TxHit) : State :=
  match hit, ((qGet s p q).ents.head?.bind fun e => frameGet s e.frame) with
  | .cell, some f => strike s (cellA s p (f.cells.headD 0))
  | .link, some f => strike s (generalA s p (linkAt s (f.cells.headD 0)))
  | _, _ => s

/-- The link-table entry of a queue's head cannot be read: the entries after it are lost (R326). -/
def linkFault (s : State) (p q : Nat) : State :=
  match (qGet s p q).ents.head?.bind fun e => (frameGet s e.frame).bind fun f => generalBad s p (linkAt s (f.cells.headD 0)) 32 with
  | some a =>
    let v := qGet s p q
    let s := (v.ents.drop 1).foldl (fun s e =>
      let s := match e.slot with | some i => slotLeft s p i | none => s
      match frameGet s e.frame with
      | some f =>
        let t := tmGet s p
        let s := tmPut s p { t with lost := t.lost ++ (if f.refs ≤ 1 then f.cells else []) }
        if f.refs ≤ 1 then { s with frames := tset none s.frames e.frame none }
        else framePut s e.frame { f with refs := f.refs - 1 }
      | none => s) s
    let v := qGet s p q
    tierMiss (qPut s p q { v with ents := v.ents.take 1 }) a
  | none => s

/-- The island's PTP client has read every transmit stamp (R38): it reads while no command waits (log entry 146). -/
def stampsRead (s : State) : State := if s.flt.islHalted || s.stamps.isEmpty then s else { s with stamps := [] }

/-- The transmit stamp of an IEEE 1588 event message joins the port's 16-entry FIFO (R38); a stamp that finds
it full is lost (log entry 23). -/
def txStamp (s : State) (n h : Nat) : State :=
  match frameGet s h with
  | some f =>
    let l := tget [] s.stamps n
    if f.ptp && decide (l.length < 16) then { s with stamps := tset [] s.stamps n (l ++ [s.gt]) } else s
  | none => s

/-- Dequeue the head of queue `q`: accounting to the slot's class as it stands, or the tag's class (R210),
edits, and the frame to the MAC. -/
def dequeueHead (s : State) (n m q : Nat) (hit : TxHit) : State :=
  let p := portPart n
  let s := linkFault (txStrike s p q hit) p q
  let v := qGet s p q
  match v.ents with
  | [] => s
  | e :: rest =>
    let len := entCost s n e
    let g := groupOf s n m q
    let w := gGet s p g
    let qt := shTokens v.shaper v.burst v.tokens v.tokAt s.gt - (len : Int)  * 1000000
    let gt := shTokens w.shaper w.burst w.tokens w.tokAt s.gt - (len : Int) * 1000000
    let s := qPut s p q { v with ents := rest, dc := v.dc - len, tokens := qt, tokAt := s.gt, deqAt := s.gt }
    let s := gPut s p g { w with dc := w.dc - len, tokens := gt, tokAt := s.gt }
    let s := settleDc s n m q
    let cls := match e.slot with
      | some i => (match slotGet s p i with | some l => l.cls | none => e.tagw % 1024)
      | none => e.tagw % 1024
    let s := qcCharge s p cls e.length
    let s := match e.slot with | some i => slotLeft s p i | none => s
    let b := match frameGet s e.frame with | some f => f.bytes | none => []
    let s := txStamp s n e.frame
    let (b, s) := egressEdit s n e b
    let (b, s) := match (frameGet s e.frame).bind fun f => cellsBad s p f.cells with
      | some a => (b.take (b.length - 4) ++ (b.drop (b.length - 4)).map (~~~ ·), tierMiss (bump s rFLT_STOMP) a)
      | none => (b, s)
    let t := tmGet s p
    let k := n * 4 + m
    let s := tmPut s p { t with tx := tset [] t.tx k (tget [] t.tx k ++ [⟨b, some e.frame⟩]) }
    cinc (bump s (rTM_DEQ_FRAMES p)) (cPart p 15) 1

/-- The decision loop of R231 within one priority. -/
def schedPrio (n m pri : Nat) (hit : TxHit) : Nat → State → State × Bool
  | 0, s => (s, false)
  | fuel + 1, s =>
    let p := portPart n
    let pk := ((n % 4) * 4 + m) * 8 + pri
    match atOrAfter (prioGroups s n m pri) (tget 0 (tmGet s p).ptrs pk) with
    | none => (s, false)
    | some g =>
      let w := gGet s p g
      let s := gPut s p g (if w.fresh then { w with dc := w.dc + quantum w.cfg, fresh := false } else w)
      let qs := (subEligible s n m).filter fun q => groupOf s n m q == g
      match atOrAfter qs w.ptr with
      | none => (s, false)
      | some q =>
        let v := qGet s p q
        let v := if v.fresh then { v with dc := v.dc + quantum v.cfg, fresh := false } else v
        let s := qPut s p q v
        let w := gGet s p g
        let len := match v.ents with | e :: _ => entCost s n e | [] => 0
        if v.dc ≥ len ∧ w.dc ≥ len then (dequeueHead s n m q hit, true)
        else
          let s := if v.dc < len then gPut (qPut s p q { v with fresh := true }) p g { w with ptr := q + 1 } else s
          let w := gGet s p g
          let s := if w.dc < len then
              let s := gPut s p g { w with fresh := true }
              let t := tmGet s p
              tmPut s p { t with ptrs := tset 0 t.ptrs pk (g + 1) }
            else s
          schedPrio n m pri hit fuel s

/-- Bound on the loop's turns: each turn raises a deficit that a frame's cost bounds (R231). -/
def schedFuel (s : State) (n m : Nat) : Nat := 400 * (2 * (subEligible s n m).length + 1)

/-- SCHEDULER_DECISION: strict priority from 7 down, deficit round robin within (R231). -/
def schedule (s : State) (n m : Nat) (hit : TxHit) : State :=
  ([7, 6, 5, 4, 3, 2, 1, 0].foldl (fun (a : State × Bool) pri =>
    if a.2 || s.pwr.tripped then a else schedPrio n m pri hit (schedFuel a.1 n m) a.1) (s, false)).1

/-- DEQUEUE_END: the frame's transmission ends, its reference drops (R221). -/
def dequeueEnd (s : State) (n m : Nat) : State :=
  let p := portPart n
  let t := tmGet s p
  let k := n * 4 + m
  match tget [] t.tx k with
  | [] => s
  | x :: rest =>
    let s := tmPut s p { t with tx := tset [] t.tx k rest }
    let s := cinc (cinc s (cPort n 2) 1) (cPort n 3) x.bytes.length
    match x.frame with
    | some h => frameUnref s h
    | none => s

/-! ### Discards on a link going down (Table TM-7) -/

/-- Discard every frame queued on a sub-port: each counts in TM_DROP_LINK and decrements QLEFT, no class
charged. -/
def subFlush (s : State) (n m : Nat) : State :=
  let p := portPart n
  let (b, k) := subBlock s n m
  let qs := ((tmGet s p).queues.map fun e => e.1).filter fun q => decide (b ≤ q ∧ q < b + k)
  qs.foldl (fun s q =>
    let v := qGet s p q
    let s := v.ents.foldl (fun s e =>
      let s := tmDropped (bump s (rTM_DROP_LINK p)) p
      let s := match e.slot with | some i => slotLeft s p i | none => s
      frameUnref s e.frame) s
    settleDc (qPut s p q { qGet s p q with ents := [] }) n m q) s

/-! ### PFC (R234, R235) -/

/-- Set or end the pause timer of a priority: the new value counts from the frame's end and is observed by
decisions 20 ns later. -/
def pauseSet (s : State) (n m pri time : Nat) : State :=
  let p := portPart n
  let t := tmGet s p
  let k := (n * 4 + m) * 8 + pri
  let l := tget [] t.pause k
  let rate := subRate s n m
  let dur := if rate = 0 then 0 else cdiv (time * 512) rate
  let seen := ((l.filter fun e => decide (e.1 ≤ s.gt)).getLast?).toList
  tmPut s p { t with pause := tset [] t.pause k (seen ++ (l.filter fun e => decide (s.gt < e.1)) ++ [(s.gt + 20, s.gt + dur)]) }

/-- PAUSE_EXPIRY: a timer that has run out is cleared. -/
def pauseExpire (s : State) (n m pri : Nat) : State :=
  let p := portPart n
  let t := tmGet s p
  let k := (n * 4 + m) * 8 + pri
  if (tget [] t.pause k).all fun e => decide (e.1 ≤ s.gt ∧ e.2 ≤ s.gt) then tmPut s p { t with pause := tset [] t.pause k [] } else s

/-- Queue a PFC frame unchanged on the partner sub-port, ahead of every queued frame (R235). -/
def pfcRelay (s : State) (n m : Nat) (b : Bytes) : State :=
  let p := portPart n
  let o := partner n
  if rgb s (rTM_PORT_CFG p (n % 4)) 31 && !tapOnly s n && linkUp s o m then
    let t := tmGet s p
    let k := o * 4 + m
    bump (tmPut s p { t with tx := tset [] t.tx k (tget [] t.tx k ++ [⟨b, none⟩]) }) (rTM_PFC_RELAYED p)
  else s

/-! ### Depth and sojourn sampling (R236) -/

/-- Sojourn of a queue's head in ns, saturating. -/
def sojourn (s : State) (v : TmQueue) : Nat :=
  match v.ents with | e :: _ => min 0xFFFFFFFF (s.gt - e.enq) | [] => 0

/-- Queued LENGTH total. -/
def qBytes (v : TmQueue) : Nat := (v.ents.map fun e => e.length).sum

/-- A sample of queue `q` (Table TM-6). -/
def sampleRec (s : State) (p q : Nat) : Bytes :=
  let v := qGet s p q
  let (n, m) := queueSub s p q
  let g := gGet s p (groupOf s n m q)
  let flags := b2n (paused s n m (queuePri s n m q)) + 2 * b2n (!shAllows v.shaper v.burst v.tokens v.tokAt s.gt) +
    4 * b2n (!shAllows g.shaper g.burst g.tokens g.tokAt s.gt) + 8 * b2n (decide (qCells v ≥ v.limit))
  leBytes 2 (p * 16384 + q) ++ leBytes 1 flags ++ leBytes 1 0 ++ leBytes 4 (qCells v % 2 ^ 24) ++
  leBytes 4 (qBytes v) ++ leBytes 4 (sojourn s v)

/-- Write a record of 16 bytes to the slice's ring, or count it in TM_SRING_DROP when full without WRAP. A ring that is full goes on
at its first byte once WRAP is 1. -/
def sringPut (s : State) (p : Nat) (r : Bytes) : State :=
  let size := rg s (rTM_SRING_SIZE p) * 65536
  let wr := rg s (rTM_SRING_WR p) * 16
  let wrap := rgb s (rTM_SAMPLE p) 29
  let off := if wrap && decide (size ≤ wr) then 0 else wr
  if off ≥ size then bump s (rTM_SRING_DROP p)
  else
    let s := memW s (lpBase + rg s (rTM_SRING_BASE p) * 65536 + off) r
    rgw s (rTM_SRING_WR p) ((if off + 16 ≥ size ∧ wrap then 0 else off + 16) / 16)

/-- SAMPLE_SWEEP: the header, then a sample of every queue of the range, or of those holding frames. -/
def sampleSweep (s : State) (p : Nat) (late : Bool) : State :=
  if !rgb s (rTM_SAMPLE p) 31 then s else
  let first := rgf s (rTM_SAMPLE_RANGE p) 13 0
  let last := max first (rgf s (rTM_SAMPLE_RANGE p) 29 16)
  let t := tmGet s p
  let s := if late then bump s (rTM_SAMPLE_LATE p) else s
  let hdr := leBytes 2 (p * 16384 + first) ++ leBytes 1 128 ++ leBytes 1 0 ++ leBytes 4 t.sweepNo ++ leBytes 8 s.gt
  let s := sringPut (tmPut s p { t with sweepNo := (t.sweepNo + 1) % 2 ^ 32 }) p hdr
  let qs := if rgb s (rTM_SAMPLE p) 30 then
      (t.queues.filter fun e => !e.2.ents.isEmpty && decide (first ≤ e.1 ∧ e.1 ≤ last)).map fun e => e.1
    else (List.range (last + 1 - first)).map (· + first)
  qs.foldl (fun s q => sringPut s p (sampleRec s p q)) s

/-! ### Registers (R238) -/

/-- Computed TM registers, by offset; the state changes where the read clears (TM_Q_DROPS). -/
def tmRegRead (s : State) (p o : Nat) : Option (Nat × State) :=
  let q := rgf s (rTM_Q_SEL p) 13 0
  let g := rgf s (rTM_G_SEL p) 11 0
  let i := rgf s (rTM_POL_SEL p) 13 0
  let v := qGet s p q
  let w := gGet s p g
  let l := polGet s p i
  let (n, m) := queueSub s p q
  match o with
  | 0x000 => some (poolCells s, s)
  | 0x004 => some (poolFree s p, s)
  | 0x084 => some (v.cfg, s)
  | 0x088 => some (v.limit, s)
  | 0x08C => some (v.shaper, s)
  | 0x090 => some (v.burst, s)
  | 0x094 => some (fld (b2n (paused s n m (queuePri s n m q))) 31 +
      fld (b2n (!shAllows v.shaper v.burst v.tokens v.tokAt s.gt)) 30 + qCells v, s)
  | 0x098 => some (qBytes v % 2 ^ 32, s)
  | 0x09C => some (sojourn s v, s)
  | 0x0A0 => some (v.drops, qPut s p q { v with drops := 0 })
  | 0x0C4 => some (w.cfg, s)
  | 0x0C8 => some (w.shaper, s)
  | 0x0CC => some (w.burst, s)
  | 0x104 => some (l.cfg, s)
  | 0x108 => some (l.rate2, s)
  | 0x10C => some (l.cbs, s)
  | 0x110 => some (l.ebs, s)
  | 0x114 => some ((polRefill l s.gt).c / 1000000, s)
  | 0x118 => some ((polRefill l s.gt).e / 1000000, s)
  | _ => none

/-- POLICER_CFG_WRITE: store a word of a policer and fill its buckets (R226). Word 0 to 3: CFG, RATE2, CBS, EBS. -/
def policerWrite (s : State) (p i word v : Nat) : State :=
  let l := polGet s p i
  let l := match word with
    | 0 => { l with cfg := v &&& 0xF0FFFFFF }
    | 1 => { l with rate2 := v % 2 ^ 24 }
    | 2 => { l with cbs := v % 2 ^ 24 }
    | _ => { l with ebs := v % 2 ^ 24 }
  polPut s p i (polFill l s.gt)

/-- SHAPER_CFG_WRITE: store the shaper (word 0) or burst (word 1) of a queue or group and fill or empty its
tokens (R233). -/
def shaperWrite (s : State) (p : Nat) (group : Bool) (i word v : Nat) : State :=
  if group then
    let w := gGet s p i
    let w := if word = 0 then { w with shaper := v &&& 0x80FFFFFF } else { w with burst := v % 65536 }
    gPut s p i { w with tokens := shFill w.shaper w.burst, tokAt := s.gt }
  else
    let w := qGet s p i
    let w := if word = 0 then { w with shaper := v &&& 0x80FFFFFF } else { w with burst := v % 65536 }
    qPut s p i { w with tokens := shFill w.shaper w.burst, tokAt := s.gt }

/-- TM_AQM_SEED_WRITE: the register and the LFSR (R229). -/
def aqmSeedWrite (s : State) (p v : Nat) : State :=
  let s := rgw s (rTM_AQM_SEED p) v
  let t := tmGet s p
  tmPut s p { t with lfsr := lfsrSeed (BitVec.ofNat 32 v) }

/-- Writes to TM registers that are not plain storage, by offset (the live-field epoch is the caller's). -/
def tmRegWrite (s : State) (p o v : Nat) : Option State :=
  let q := rgf s (rTM_Q_SEL p) 13 0
  let g := rgf s (rTM_G_SEL p) 11 0
  let i := rgf s (rTM_POL_SEL p) 13 0
  let w := qGet s p q
  match o with
  | 0x024 => some (aqmSeedWrite s p v)
  | 0x084 =>
    let v := v &&& 0x7FFFFFFF
    some (qPut s p q { w with cfg := if w.ents.isEmpty then v else putBits v 30 20 (bits w.cfg 30 20) })
  | 0x088 => some (qPut s p q { w with limit := v % 2 ^ 22 })
  | 0x08C => some (shaperWrite s p false q 0 v)
  | 0x090 => some (shaperWrite s p false q 1 v)
  | 0x0C4 => some (gPut s p g { gGet s p g with cfg := v &&& 0x07007FFF })
  | 0x0C8 => some (shaperWrite s p true g 0 v)
  | 0x0CC => some (shaperWrite s p true g 1 v)
  | 0x104 => some (policerWrite s p i 0 v)
  | 0x108 => some (policerWrite s p i 1 v)
  | 0x10C => some (policerWrite s p i 2 v)
  | 0x110 => some (policerWrite s p i 3 v)
  | _ => none

/-- Cells a lost link or ring entry left unreachable return to the free list (R326). -/
def cellPoolReclaim (s : State) (p : Nat) : State :=
  let t := tmGet s p
  cellsFree (tmPut s p { t with lost := [] }) p t.lost

/-! ### The commands -/

/-- SCHEDULER_DECISION (R231). -/
def execSchedulerDecision (port sub : Nat) (hit : TxHit) (s : State) : Host.Outcome State Fault Refusal :=
  .next (schedule s port sub hit)

/-- DEQUEUE_END (R221). -/
def execDequeueEnd (port sub : Nat) (s : State) : Host.Outcome State Fault Refusal := .next (dequeueEnd s port sub)

/-- PAUSE_EXPIRY (R234). -/
def execPauseExpiry (port sub pri : Nat) (s : State) : Host.Outcome State Fault Refusal :=
  .next (pauseExpire s port sub pri)

/-- SAMPLE_SWEEP (R236). -/
def execSampleSweep (p : Nat) (late : Bool) (s : State) : Host.Outcome State Fault Refusal := .next (sampleSweep s p late)

/-- TM_AQM_SEED_WRITE (R229): a live field (R238). -/
def execTmAqmSeedWrite (p v : Nat) (s : State) : Host.Outcome State Fault Refusal :=
  .next (epochAdvance (aqmSeedWrite s p v) 3)

/-- POLICER_CFG_WRITE (R226). -/
def execPolicerCfgWrite (p i word v : Nat) (s : State) : Host.Outcome State Fault Refusal :=
  .next (epochAdvance (policerWrite s p i word v) 3)

/-- SHAPER_CFG_WRITE (R233). -/
def execShaperCfgWrite (p : Nat) (group : Bool) (i word v : Nat) (s : State) : Host.Outcome State Fault Refusal :=
  .next (epochAdvance (shaperWrite s p group i word v) 3)

/-- CELL_POOL_RECLAIM (R326). -/
def execCellPoolReclaim (p : Nat) (s : State) : Host.Outcome State Fault Refusal := .next (cellPoolReclaim s p)

end Sys2Proof.Machine
end

