-- ==== Sys2Proof/Machine/Verdict.lean ====
section
/-! DEFINITION. The verdict unit: verdicts, flow verdict state, actions, ledger, unpicking, mirrors, sampling
(R27 to R29, R201 to R218). -/

namespace Sys2Proof.Machine

/-! ### Contexts as the verdict unit sees them -/

/-- No model slot committed. -/
def slotImg0 : SlotImg :=
  { streamBase := 0, streamLen := 0, regionBase := 0, regionSize := 0, reqBase := 0, reqStride := 0, knotBase := 0,
    knotCount := 0, tierBase := 0, tierSize := 0, lpBase := 0, lpSize := 0, knots := [], gen := 0, maps := [] }

/-- A context at reset: FREE, host fields at their resets (Tables TIL-10 and TIL-14). -/
def ctx0 : Ctx :=
  { state := 0, active := 0, ply := 0, cfg := 0x00304001, bound := 800, defCls := 0, fault := 0, faultInfo := [],
    overlap := 0, img := slotImg0, pos := 0, admitted := 0, bufs := [], b := 0, n := 0, fresh := false,
    restoring := false, downAt := 0, restart := none, result := 0, toks := [] }

/-- Context with device number `c`. -/
def ctxGet (s : State) (c : Nat) : Ctx := tget ctx0 s.ctxs c

/-- Store a context. -/
def ctxPut (s : State) (c : Nat) (v : Ctx) : State := { s with ctxs := tset ctx0 s.ctxs c v }

/-- Outstanding requests of a context. -/
def outstanding (v : Ctx) : Nat := v.bufs.length

/-- HIGH_MARK, MAX_OUT, BATCH_MAX as they act: 0 acts as 1, above 64 as 64. -/
def mark64 (w : Nat) : Nat := clampN 1 64 w

/-- HIGH_MARK of a context. -/
def highMark (v : Ctx) : Nat := mark64 (bits v.cfg 22 16)

/-- Latency bound in ns: LAT_BOUND in 10 ns units, 0 acts as 1 (R27). -/
def latBound (v : Ctx) : Nat := 10 * max 1 (v.bound % 65536)

/-! ### Sampling (R215) -/

/-- Sampling state at reset. -/
def samp0 : Samp := { sx := 0, count := 0, quiet := 0, now := false, last := false }

/-- Sampling state of a context at partition `p`. -/
def sampGet (s : State) (p c : Nat) : Samp := tget samp0 (vdGet s p).samp c

/-- Store it. -/
def sampPut (s : State) (p c : Nat) (v : Samp) : State :=
  let d := vdGet s p
  vdPut s p { d with samp := tset samp0 d.samp c v }

/-- A demand input of Table VD-6 is active for a context in this window. -/
def demand (s : State) (p c : Nat) : State := sampPut s p c { sampGet s p c with now := true }

/-- One context's exponent at the end of a window. -/
def sampStep (smax recover : Nat) (demandNow : Bool) (v : Samp) : Samp :=
  if demandNow then { v with sx := min smax (v.sx + 1), quiet := 0, now := false, last := true }
  else if v.quiet + 1 ≥ recover then { v with sx := min smax (v.sx - 1), quiet := 0, now := false, last := false }
  else { v with sx := min smax v.sx, quiet := v.quiet + 1, now := false, last := false }

/-- Outstanding requests of an ACTIVE context stand at or above its HIGH_MARK (R89). -/
def atHighMark (s : State) (c : Nat) : Bool :=
  let x := ctxGet s c
  x.state == 1 && decide (outstanding x ≥ highMark x) && outstanding x != 0

/-- A score-port command in progress works on a critical group (R180). -/
def spHeld (s : State) (x : SbEnt) : Bool := x.groups.any fun g => (groupGet s g).crit

/-- A score-port command of context `c` waits on a critical group. -/
def scoreWaits (s : State) (c : Nat) : Bool :=
  s.tiles.any fun t => t.2.sb.any fun e => match e.2 with
    | some x => x.ctx == c && x.engine == 5 && x.todo.isSome && spHeld s x
    | none => false

/-- A demand input of Table VD-6 that is a level stands: the high mark, a score-port command that waits, or a forwarding queue of the
owner at or past its high mark with a message of the context's waiting (R180, R288). -/
def demandLevel (s : State) (p c : Nat) : Bool := atHighMark s c || scoreWaits s c || fwdWaits s p c

/-- SAMPLE_WINDOW_END: every context of the partition steps (R215). A level that still stands is active in the window that begins. -/
def sampleWindowEnd (s : State) (p : Nat) : State :=
  let smax := rgf s (rVD_SAMPLE p) 2 0
  let recover := max 1 (rgf s (rVD_SAMPLE p) 31 24)
  let cs := ((vdGet s p).samp.map fun e => e.1) ++
    (s.ctxs.filter fun e => tilePart s (e.1 / 1024) == p && !thas (vdGet s p).samp e.1).map fun e => e.1
  cs.foldl (fun s c =>
    let v := sampGet s p c
    let up := demandLevel s p c
    sampPut s p c { sampStep smax recover (v.now || up) v with now := up }) s

/-! ### Verdicts -/

/-- A verdict as it is formed (Table VD-1). -/
structure Verdict where
  prov : Bool
  nan : Bool
  late : Bool
  sampled : Bool
  early : Bool
  unpicked : Bool
  cls : Nat
  conf : Nat
  score : Nat
  gen : Nat
  ctx : Nat
  gt : Nat
deriving DecidableEq, Repr

/-- The default: provisional, LATE_DEFAULT, no generation, +0.0 (R202). -/
def lateVerdict (cls ctx gt : Nat) (sampled : Bool) : Verdict :=
  { prov := true, nan := false, late := true, sampled := sampled, early := false, unpicked := false, cls := cls, conf := 0, score := 0,
    gen := 0, ctx := ctx, gt := gt }

/-- The verdict of a result record (R92, R202). -/
def resultVerdict (r : Bytes) (gen ctx gt : Nat) (sampled : Bool) : Verdict :=
  let w := leAt r 6 2
  { prov := bit w 14, nan := bit w 15, late := false, sampled := sampled, early := bit w 14, unpicked := false, cls := w % 1024,
    conf := leAt r 4 2, score := leAt r 0 4, gen := gen, ctx := ctx, gt := gt }

/-- Word FLOW of verdict and unpick records: DEVICE, PART, ENTRY. -/
def flowWord (s : State) (p entry : Nat) : Nat := devId s * 2 ^ 26 + p * 2 ^ 24 + entry % 2 ^ 23

/-- Body of a verdict record from byte 8 (Table VD-1). -/
def verdictBody (s : State) (p entry : Nat) (v : Verdict) : Bytes :=
  leBytes 4 (flowWord s p entry) ++ leBytes 2 (v.ctx % 2 ^ 15) ++ leBytes 2 v.gen ++
  leBytes 2 (b2n v.prov * 32768 + b2n v.nan * 16384 + b2n v.late * 8192 + b2n v.unpicked * 4096 + b2n v.sampled * 2048 +
    b2n v.early * 1024 + v.cls % 1024) ++
  leBytes 2 v.conf ++ leBytes 4 v.score ++ leBytes 8 v.gt

/-- TAGW: flags and class of the verdict tag, bytes 2 and 3 as a number (R213). -/
def tagWord (v : Verdict) : Nat :=
  b2n v.prov * 32768 + b2n v.nan * 16384 + b2n v.late * 8192 + b2n v.sampled * 4096 + b2n v.early * 2048 + v.cls % 1024

/-- KIND and CLASS change with one advance of VGEN when either changes (Table VD-2). -/
def vsSet (v : VState) (kind cls : Nat) : VState :=
  if v.kind = kind ∧ v.cls = cls then v else { v with kind := kind, cls := cls, vgen := (v.vgen + 1) % 4096 }

/-- What a verdict does to VSTATE (R204): a final one sets KIND 3; a provisional one from a result KIND 2
unless KIND is 3; a LATE_DEFAULT one leaves KIND, CLASS, VGEN and what stands for the last result, and sets what
Table VD-2 gives as of the last verdict: NAN, SAMPLED and CTX. -/
def vsApply (v : VState) (x : Verdict) : VState :=
  let fill := fun (v : VState) =>
    { v with nan := x.nan, sampled := x.sampled, gen := x.gen, score := x.score, ctx := x.ctx, conf := x.conf }
  if x.late then { v with nan := x.nan, sampled := x.sampled, ctx := x.ctx }
  else if !x.prov then fill (vsSet v 3 x.cls)
  else if v.kind = 3 then v
  else fill (vsSet v 2 x.cls)

/-! ### Re-class (R211) -/

/-- Policer named by class `k`, when METER is set. -/
def actPolicer (s : State) (p k : Nat) : Option Nat :=
  if actBit s p k 26 then some (bits (actWord s p k 1) 13 0) else none

/-- A re-class of ledger slot `i` to class `b` by verdict `x`: flow counters, policers, the slot's class, the
unpick record (R211). -/
def reclass (s : State) (p i b : Nat) (final : Bool) (x : Verdict) : State :=
  match slotGet s p i with
  | none => s
  | some l =>
    let a := l.cls
    let s := if actBit s p a 25 then flowCharge s p a false l.pframes l.pbytes else s
    let s := if actBit s p b 25 then flowCharge s p b true l.pframes l.pbytes else s
    let s := match actPolicer s p a with
      | some k => polPut s p k (polRefund (polGet s p k) s.gt l.mbytes)
      | none => s
    let s := match actPolicer s p b with
      | some k => polPut s p k (polRecharge (polGet s p k) s.gt l.mbytes)
      | none => s
    let s := slotPut s p i (some { l with cls := b })
    let vgen := match entGet s p false l.entry with | some e => if e.uid = l.uid then e.vs.vgen else 0 | none => 0
    let sat := decide (l.pframes ≥ 0xFFFFFFFF ∨ l.pbytes ≥ 0xFFFFFFFF)
    let body := leBytes 4 (flowWord s p l.entry) ++ leBytes 2 (x.ctx % 2 ^ 15) ++
      leBytes 2 (b2n final * 32768 + b2n sat * 16384 + b % 1024) ++ leBytes 2 (a % 1024) ++ leBytes 2 vgen ++
      leBytes 4 l.pframes ++ leBytes 4 l.pbytes ++ leBytes 4 l.qleft ++ leBytes 8 s.gt ++ leBytes 2 x.gen ++ leBytes 6 0
    let s := if rgb s (rVD_CFG p) 31 then stage s p (rgf s (rVD_CFG p) 29 24) 5 2 body else s
    cinc (bump s (rVD_UNPICKS p)) (cPart p 9) 1

/-- The open slot of a flow entry. -/
def openSlot (s : State) (p entry uid : Nat) : Option Nat :=
  match entGet s p false entry with
  | some e => if e.uid = uid then e.vs.lslot else none
  | none => none

/-- The class of slot `i`. -/
def slotClass (s : State) (p i : Nat) : Nat := match slotGet s p i with | some l => l.cls | none => 0

/-- A free ledger slot: the lowest-numbered of 65,536 (log entry 14). -/
def slotFree (s : State) (p : Nat) : Option Nat :=
  let used := (vdGet s p).ledger.map fun e => e.1
  if used.length ≥ 65536 then none else (List.range (used.length + 1)).find? fun i => !used.contains i

/-- A frame under a provisional verdict joins its flow's slot: opened, or re-classed first to the frame's
class (R209). Answers the slot and whether a re-class happened. -/
def slotJoin (s : State) (p entry uid : Nat) (x : Verdict) : Option Nat × Bool × State :=
  match entGet s p false entry with
  | none => (none, false, s)
  | some e =>
    if e.uid ≠ uid then (none, false, s) else
    match e.vs.lslot with
    | some i => if slotClass s p i = x.cls then (some i, false, s) else (some i, true, reclass s p i x.cls false x)
    | none =>
      match slotFree s p with
      | none => (none, false, bump s (rVD_LEDGER_FULL p))
      | some i =>
        let s := slotPut s p i (some { entry := entry, uid := uid, cls := x.cls, opened := true, pframes := 0, pbytes := 0,
                                       mbytes := 0, qleft := 0, since := s.gt })
        (some i, false, entVs s p entry uid fun v => { v with lslot := some i })

/-- Count a frame in its slot's tallies (R208): `n` is 1 when the frame was charged to its class's flow counter, else 0. -/
def slotTally (s : State) (p i n len mb : Nat) (queued : Bool) : State :=
  match slotGet s p i with
  | some l => slotPut s p i (some { l with pframes := min 0xFFFFFFFF (l.pframes + n), pbytes := min 0xFFFFFFFF (l.pbytes + n * len),
                                           mbytes := l.mbytes + mb, qleft := l.qleft + b2n queued })
  | none => s

/-! ### Applying actions to a frame (R207, R214, R225) -/

/-- The queue entry of a frame under verdict `x`, with TAG and MARK of class `d` (Table TM-4). -/
def qentOf (s : State) (p h : Nat) (f : Frame) (x : Verdict) (d : Nat) (slot : Option Nat) (colour : Nat) : QEnt :=
  let w := actWord s p d 0
  { frame := h, enq := s.gt, cells := f.cells.length, length := f.length, slot := slot, colour := colour, tag := bit w 29,
    mark := bit w 28, markKind := bits w 3 2, ce := false, mirror := false, dscp := bits (actWord s p d 1) 31 26,
    ipver := f.ipver, ipoff := f.ipoff, tagw := tagWord x, gen := x.gen, conf := x.conf }

/-- Write 64-byte units into the capture region, wrapping. -/
def capWrite (s : State) (base size : Nat) : Nat → Bytes → Nat → State × Nat
  | 0, _, off => (s, off)
  | n + 1, b, off =>
    capWrite (memW s (base + off) (padTo 64 (b.take 64))) base size n (b.drop 64) (if off + 64 ≥ size then 0 else off + 64)

/-- A copy to the capture export region (R214): verdict record, 32 bytes, the frame bytes. A region that has filled with WRAP 0
goes on at its first byte once WRAP is 1. The four verdict units write the one region at the one next write offset, which each
partition's VD_CAP_WR shows (DEDUCED, log entry 116). The record's SEQ is a free value: the copy passes no report queue. -/
def captureCopy (s : State) (p : Nat) (f : Frame) (x : Verdict) (d entry len : Nat) : State :=
  let size := rg s (rVD_CAP_SIZE p) * 65536
  let wr := rg s (rVD_CAP_WR p) * 64
  let off := if rgb s (rVD_CAP_CFG p) 0 && decide (size ≤ wr) then 0 else wr
  let (seq, s) := drawFree s 32
  let info := leBytes 2 f.length ++ leBytes 1 (f.port * 4 + f.sub) ++ leBytes 1 0 ++ leBytes 2 len ++ leBytes 2 0 ++
    leBytes 8 f.gt ++ leBytes 16 0
  let b := rqBytes 1 (bits (actWord s p d 0) 24 22) seq (verdictBody s p entry x) ++ info ++ f.bytes.take len
  let units := cdiv b.length 64
  if decide (size = 0) || (!rgb s (rVD_CAP_CFG p) 0 && decide (off + 64 * units > size)) then bump s (rVD_CAP_DROP p)
  else
    let (s, o) := capWrite s (lpBase + rg s (rVD_CAP_BASE p) * 65536) size units b off
    let o := if !rgb s (rVD_CAP_CFG p) 0 && o == 0 then size else o
    (List.range 4).foldl (fun s q => rgw s (rVD_CAP_WR q) (o / 64)) s

/-- The mirrored copy of a frame under class `d`'s MIRROR (R214): admitted by itself at the mirror queue of
the session's sub-port, or written to the capture region. -/
def mirrorCopy (s : State) (p h : Nat) (f : Frame) (x : Verdict) (d entry : Nat) : State :=
  if !actBit s p d 30 then s else
  let r := rVD_MIRROR p (bits (actWord s p d 0) 7 4)
  if !rgb s r 31 then s else
  let tr := rgf s r 13 0
  let tr := if tr = 0 then f.length else min f.length (max 64 tr)
  if rgb s r 30 then captureCopy s p f x d entry tr
  else
    let sp := rgf s r 21 16
    let e := qentOf s p h f x d none 0
    let e := { e with mirror := true, length := tr, cells := cdiv tr 256 }
    let s := frameRef s h
    let (ok, s) := admitAt s (sp / 4) (sp % 4) (mirrorQueue s (sp / 4) (sp % 4)) e (ecnOf f.bytes f.ipver f.ipoff)
    if ok then s else frameUnref s h

/-- Admission of a frame (Table TM-1): was it enqueued, the bytes its policer deducted. `d` is the class that
gives MIRROR, TAG and MARK. -/
def admission (s : State) (p h : Nat) (f : Frame) (x : Verdict) (d : Nat) (slot : Option Nat) (entry : Nat) :
    Bool × Nat × State :=
  let k := x.cls
  if !x.prov && actBit s p k 31 then
    (false, 0, frameUnref (tmDropped (bump s (rTM_DROP_VERDICT p)) p) h)
  else
    let (col, mb, red, s) := match actPolicer s p k with
      | some i =>
        let v := polGet s p i
        let (c, m, v') := polCharge v s.gt (preColour s p v f.color) f.length
        (c, m, c == 2 && bit v.cfg 28, polPut s p i v')
      | none => (0, 0, false, s)
    if red && !x.prov then (false, mb, frameUnref (tmDropped (bump s (rTM_DROP_POLICE p)) p) h)
    else
      let s := if red then bump s (rTM_RED_WITHHELD p) else s
      if f.fromPeer || tapOnly s f.port then (false, mb, frameUnref s h)
      else
        let o := partner f.port
        let q := queueSelect s o f.sub k entry
        let (ok, s) := admitAt s o f.sub q (qentOf s p h f x d slot col) (ecnOf f.bytes f.ipver f.ipoff)
        (ok, mb, if ok then s else frameUnref s h)

/-- Apply a verdict's actions to a frame: mirror copies, COUNT, admission, slot tallies (R207, R225). -/
def applyFrame (s : State) (h : Nat) (x : Verdict) (dcls : Nat) (slot : Option Nat) (entry : Nat) : State :=
  match frameGet s h with
  | none => s
  | some f =>
    let p := f.part
    let f := { f with stage := .done, hold := none }
    let s := framePut s h f
    let d := if x.prov then dcls else x.cls
    let s := if x.prov && actBit s p x.cls 31 then bump s (rVD_DROP_WITHHELD p) else s
    let s := mirrorCopy s p h f x d entry
    let s := if actBit s p x.cls 25 then flowCharge s p x.cls true 1 f.length else s
    let (ok, mb, s) := admission s p h f x d slot entry
    match slot with
    | some i => slotTally s p i (b2n (actBit s p x.cls 25)) f.length mb ok
    | none => s

/-- The verdict unit forms a verdict for a flow entry (none: no entry, or it has gone), releasing a held frame
if one is named: VSTATE, ledger, the frame's slot, the record, the frame's actions, in that order (R201 to
R212). -/
def formVerdict (s : State) (p : Nat) (flow : Option (Nat × Nat)) (entry : Nat) (x : Verdict) (dcls : Nat)
    (frame : Option Nat) : State :=
  let before := match flow with
    | some (i, u) => (match entGet s p false i with | some e => if e.uid = u then some e.vs else none | none => none)
    | none => none
  let live := before.isSome
  let s := match flow with | some (i, u) => entVs s p i u (fun v => vsApply v x) | none => s
  -- ledger of the flow
  let slot := match flow with | some (i, u) => openSlot s p i u | none => none
  let changed := match before with
    | some v => !x.late && x.prov && v.kind != 3 && v.cls != x.cls
    | none => false
  let (unp, s) := match slot with
    | none => (false, s)
    | some i =>
      let a := slotClass s p i
      if !x.prov then
        let s := if a ≠ x.cls then reclass s p i x.cls true x else bump s (rVD_CONFIRMS p)
        (decide (a ≠ x.cls), slotResolve s p i)
      else if changed && a != x.cls then (true, reclass s p i x.cls false x)
      else (false, s)
  -- the held frame's slot
  let (fslot, unp2, s) := match frame, flow with
    | some _, some (i, u) => if x.prov && live then slotJoin s p i u x else (none, false, s)
    | _, _ => (none, false, s)
  -- the record and the counts
  let x := { x with unpicked := unp || unp2 }
  let d := if x.prov then dcls else x.cls
  let w := actWord s p d 0
  let s := if bit w 27 then
      stage s p (bits w 21 16) (bits w 24 22) 1 (verdictBody s p entry x)
    else s
  let s := cinc (bump s (rVD_VERDICTS p)) (cPart p (if x.prov then 7 else 6)) 1
  let s := if x.late then cinc (bump s (rVD_LATE_DEFAULT p)) (cPart p 8) 1 else s
  let s := if x.sampled then bump s (rVD_SAMPLED p) else s
  let s := if x.nan then bump s (rVD_NAN p) else s
  match frame with
  | some h => applyFrame s h x dcls fslot entry
  | none => s

/-- A frame that is not held proceeds under the flow's current verdict, or under its default class when KIND is
0, which sets KIND 1 (R29, R204); `smp`: it proceeds under R57 without a request while SX is above 0. -/
def proceedFlow (s : State) (h entry uid dcls ctx : Nat) (smp : Bool) : State :=
  match frameGet s h with
  | none => s
  | some f =>
    let p := f.part
    let s := entVs s p entry uid fun v => if v.kind = 0 then vsSet v 1 dcls else v
    match entGet s p false entry with
    | none => applyFrame s h { lateVerdict dcls ctx f.gt smp with late := false } dcls none entry
    | some e =>
      let v := e.vs
      let x : Verdict := { prov := v.kind != 3, nan := v.nan && v.kind != 1, late := false, sampled := smp || v.sampled,
                           early := v.kind == 2, unpicked := false, cls := v.cls, conf := v.conf, score := v.score, gen := v.gen, ctx := v.ctx,
                           gt := f.gt }
      if x.prov then
        let (slot, unp, s) := slotJoin s p entry uid x
        applyFrame s h { x with unpicked := unp } dcls slot entry
      else applyFrame s h x dcls none entry

/-- A frame proceeds under a default class without a ledger slot: bypassed, or of a flow that was not inserted
(R207). -/
def proceedDefault (s : State) (h dcls : Nat) : State :=
  match frameGet s h with
  | none => s
  | some f => applyFrame s h { lateVerdict dcls 0 f.gt false with late := false } dcls none 0

/-! ### Journal (R317) -/

/-- Key of journal slot `i` of partition `p`. -/
def jKey (p i : Nat) : Nat := p * 2 ^ 20 + i

/-- Journal slot. -/
def jGet (s : State) (p i : Nat) : Option JSlot := tget none s.jrnl (jKey p i)

/-- Store or free a journal slot. -/
def jPut (s : State) (p i : Nat) (v : Option JSlot) : State := { s with jrnl := tset none s.jrnl (jKey p i) v }

/-- Write a request to a free journal slot: its header and payload lie in the tier, and what is written reads good from then on (R317,
R455). -/
def jNew (s : State) (p i : Nat) (v : JSlot) : State := generalW (jPut s p i (some v)) p (journalAt s i) (slice (v.hdr ++ v.payload) 0 2112)

/-- A free journal slot: the lowest-numbered (log entry 14). -/
def jFree (s : State) (p : Nat) : Option Nat :=
  let used := (s.jrnl.filter fun e => e.1 / 2 ^ 20 == p).map fun e => e.1 % 2 ^ 20
  if used.length ≥ jSlots s then none else (List.range (used.length + 1)).find? fun i => !used.contains i

/-- The class that is the default of a context's frames (R206). -/
def ctxDefault (s : State) (c : Nat) : Nat := (ctxGet s c).defCls % 1024

/-- Send the RSP of a peer's request (R280). -/
def sendRsp (s : State) (peer : Nat × Nat × Nat × Nat) (rec : Bytes) (gen ply status ctx : Nat) : State :=
  let (opart, fent, fply, src) := peer
  let body := rec.take 16 ++ leBytes 2 gen ++ leBytes 2 ply ++ leBytes 1 status ++ leBytes 3 0 ++ leBytes 2 ctx ++ leBytes 6 0
  (plSend s 2 src opart (msgHdr opart fent fply 0 false 0 0 0 0 ++ body)).2

/-- What waits at the head of verdict unit `p` is applied: a result (R202) or a refusal; its journal slot is
freed (R317). A request of a peer is answered with an RSP and nothing else (R216, R280). -/
def vdTake (s : State) (p : Nat) (refusal : Bool) : State :=
  let v := vdGet s p
  match v.inq with
  | [] => s
  | i :: rest =>
    if i.refusal ≠ refusal then s else
    let s := vdPut s p { v with inq := rest }
    match jGet s p i.slot with
    | none => s
    | some j =>
      let s := jPut s p i.slot none
      match j.peer with
      | some peer =>
        if refusal then sendRsp s peer (leBytes 16 0) 0 i.ply 1 i.ctx
        else sendRsp s peer i.body i.gen i.ply 0 i.ctx
      | none =>
        let gt := leAt j.hdr 0 8
        let entry := leAt j.hdr 8 4
        let x := if refusal then lateVerdict (ctxDefault s i.ctx) i.ctx gt j.sampled
          else resultVerdict i.body i.gen i.ctx gt j.sampled
        formVerdict s p (j.uid.map fun u => (entry, u)) entry x (ctxDefault s j.ctx) j.frame

/-- Hand a result or refusal to the verdict unit of the partition whose share holds the entry. -/
def vdPush (s : State) (p : Nat) (i : VdIn) : State :=
  let v := vdGet s p
  vdPut s p { v with inq := v.inq ++ [i] }

/-- A request is refused: a refusal goes to the verdict unit (R89). -/
def refuse (s : State) (p slot ctx : Nat) : State :=
  vdPush s p { refusal := true, slot := slot, ctx := ctx, ply := (ctxGet s ctx).ply, gen := 0, body := [] }

/-- A result or refusal of journal slot `i` waits at verdict unit `p`. -/
def vdWaits (s : State) (p i : Nat) : Bool := (vdGet s p).inq.any fun v => v.slot == i

/-- LATENCY_BOUND_EXPIRY: a held frame whose bound has passed proceeds under its context's default with
LATE_DEFAULT (R27, R202). What has reached the verdict unit by then applies in its place (R28, Table VD-7). -/
def latencyExpiry (s : State) (h : Nat) : State :=
  match frameGet s h with
  | none => s
  | some f =>
    match f.hold with
    | none => s
    | some w =>
      let p := f.part
      if decide (s.gt < w.until_) || (!w.forwarded && vdWaits s p w.req) then s else
      let (smp, uid, entry, s) :=
        if w.forwarded then
          match tget none s.pl.fwd (fwdKey p w.req) with
          | some e => (e.sampled, e.uid, e.entry, fwdPut s p w.req (some { e with frame := none }))
          | none => (false, none, 0, s)
        else
          match jGet s p w.req with
          | some j => (j.sampled, j.uid, leAt j.hdr 8 4, jPut s p w.req (some { j with frame := none }))
          | none => (false, none, 0, s)
      formVerdict s p (uid.map fun u => (entry, u)) entry (lateVerdict w.defClass w.ctx f.gt smp) w.defClass (some h)

/-- A final result of flow identity `u` waits at verdict unit `p`. -/
def finalWaits (s : State) (p u : Nat) : Bool :=
  (vdGet s p).inq.any fun v => !v.refusal && !bit (leAt v.body 6 2) 14 &&
    (match jGet s p v.slot with | some j => j.peer.isNone && j.uid == some u | none => false)

/-- LEDGER_HOLD_EXPIRY: a slot open for HOLD is resolved as stood (R210), unless a final result of its flow has reached the
verdict unit: that applies (Table VD-7). -/
def ledgerHold (s : State) (p i : Nat) : State :=
  match slotGet s p i with
  | none => s
  | some l =>
    let hold := 1000 * max 1 (rgf s (rVD_LEDGER p) 31 16)
    if l.opened && decide (s.gt - l.since ≥ hold) && !finalWaits s p l.uid then slotStood s p i else s

/-! ### Registers (R218) -/

/-- Computed VD registers, by offset. -/
def vdRegRead (s : State) (p o : Nat) : Option (Nat × State) :=
  let v := vdGet s p
  let k := rgf s (rVD_ACT_SEL p) 9 0
  let w := rg s (rVD_CNT_SEL p)
  let cnt := if bit w 14 then tget (0, 0) v.qcCnt (w % 256) else tget (0, 0) v.flowCnt (bits w 13 0)
  match o with
  | 0x00C => some (v.ledger.length, s)
  | 0x018 => let x := sampGet s p (rgf s (rVD_CTX_SEL p) 14 0); some (fld (b2n x.last) 31 + x.sx, s)
  | 0x024 => some (actWord s p k 0, s)
  | 0x028 => some (actWord s p k 1, s)
  | 0x02C => some (actWord s p k 2, s)
  | 0x030 => some (actWord s p k 3, s)
  | 0x094 => some (cnt.1, s)
  | 0x098 => some (cnt.2 % 2 ^ 32, rgw s (rVD_CNT_BYTES_HI p) (cnt.2 / 2 ^ 32))
  | _ => none

/-- Bits of the action entry's words that hold fields (Table VD-3). -/
def actMask : List Nat := [0xFFFFFFFC, 0xFC003FFF, 0x00003FFF, 0]

/-- Store word `i` of an action entry. -/
def actWrite (s : State) (p k i v : Nat) : State :=
  let d := vdGet s p
  let old := tget [] d.acts k
  let ws := (List.range 4).map fun j => if j = i then v &&& actMask.getD i 0 else old.getD j 0
  vdPut s p { d with acts := tset [] d.acts k (if ws = [0, 0, 0, 0] then [] else ws) }

/-- Store part of the selected counter: 0 frames, 1 low bytes, 2 high bytes. -/
def vdCntWrite (s : State) (p part v : Nat) : State :=
  let d := vdGet s p
  let w := rg s (rVD_CNT_SEL p)
  let f := fun (e : Nat × Nat) => match part with
    | 0 => (v, e.2)
    | 1 => (e.1, e.2 / 2 ^ 32 * 2 ^ 32 + v)
    | _ => (e.1, v * 2 ^ 32 + e.2 % 2 ^ 32)
  if bit w 14 then vdPut s p { d with qcCnt := tmod (0, 0) d.qcCnt (w % 256) f }
  else vdPut s p { d with flowCnt := tmod (0, 0) d.flowCnt (bits w 13 0) f }

/-- Writes to VD registers that are not plain storage, by offset; the flag says whether the field is live. -/
def vdRegWrite (s : State) (p o v : Nat) : Option (State × Bool) :=
  let k := rgf s (rVD_ACT_SEL p) 9 0
  match o with
  | 0x024 => some (actWrite s p k 0 v, true)
  | 0x028 => some (actWrite s p k 1 v, true)
  | 0x02C => some (actWrite s p k 2 v, true)
  | 0x030 => some (actWrite s p k 3 v, true)
  | 0x094 => some (vdCntWrite s p 0 v, false)
  | 0x098 => some (vdCntWrite s p 1 v, false)
  | 0x09C => some (vdCntWrite s p 2 v, false)
  | _ => none

/-! ### The commands -/

/-- RESULT_RECORD (R202). -/
def execResultRecord (p : Nat) (s : State) : Host.Outcome State Fault Refusal := .next (vdTake s p false)

/-- REFUSAL_VERDICT (R202). -/
def execRefusalVerdict (p : Nat) (s : State) : Host.Outcome State Fault Refusal := .next (vdTake s p true)

/-- LATENCY_BOUND_EXPIRY (R27). -/
def execLatencyBoundExpiry (p cell : Nat) (s : State) : Host.Outcome State Fault Refusal :=
  .next (latencyExpiry s (frameKey p cell))

/-- LEDGER_HOLD_EXPIRY (R210). -/
def execLedgerHoldExpiry (p slot : Nat) (s : State) : Host.Outcome State Fault Refusal := .next (ledgerHold s p slot)

/-- SAMPLE_WINDOW_END (R215). -/
def execSampleWindowEnd (p : Nat) (s : State) : Host.Outcome State Fault Refusal := .next (sampleWindowEnd s p)

end Sys2Proof.Machine
end

