-- ==== Sys2Proof/Machine/Features.lean ====
section
/-! DEFINITION. The parse walk, flow key and class, feature state, vectors and tokens (R44 to R57, R454). -/

namespace Sys2Proof.Machine

/-! ### The walk (R44 to R48) -/

/-- What a walk yields: field slots (16 bytes each), status, key profile, the first 16 headers visited as (class, offset),
a node with END_FLOW was reached, nodes visited, the payload offset: the end of the terminal header (0 when the walk ends in
error). -/
structure Walk where
  slots : Tab Bytes
  status : Nat
  prof : Nat
  hdrs : List (Nat × Nat)
  endFlow : Bool
  visits : Nat
  pay : Nat
deriving DecidableEq, Repr

/-- Word `i` of parse node `n`. -/
def nodeWord (s : State) (n i : Nat) : Nat := (tget [] s.weave.nodes n).getD i 0

/-- The window at byte `o` of the header at frame offset `off` (R44). -/
def window (head : Bytes) (off o : Nat) : Nat := beAt head (off + o) 4

/-- One extractor of a node (R47). -/
def extract (head : Bytes) (off w : Nat) (slots : Tab Bytes) : Tab Bytes :=
  if bit w 31 then
    let n := if bits w 15 12 = 0 then 16 else bits w 15 12
    tset [] slots (bits w 29 24) (slice head (off + bits w 23 16) n ++ List.replicate (16 - n) 0)
  else slots

/-- Header length of a node; none: a computed length of 0 or above 255 (R45). -/
def headerLen (s : State) (head : Bytes) (n off : Nat) : Option Nat :=
  let w := nodeWord s n 1
  let width := bits w 18 14
  if width = 0 then some (bits (nodeWord s n 0) 15 8)
  else
    let v := (window head off (bits w 31 24) >>> bits w 23 19) % 2 ^ width * 2 ^ bits w 13 12 + bits w 8 0
    if v = 0 ∨ v > 255 then none else some v

/-- The first matching transition entry among `k` from `i` (R46). -/
def transFind (s : State) (sel : Nat) : Nat → Nat → Option Nat
  | 0, _ => none
  | k + 1, i =>
    if i ≥ 1024 then none else
    let (v, m, x) := tget (0, 0, 0) s.weave.trans i
    if bit x 31 && sel &&& m == v &&& m then some (x % 256) else transFind s sel k (i + 1)

/-- The next node after node `n` at offset `off` (R46). -/
def nextNode (s : State) (head : Bytes) (n off : Nat) : Nat :=
  let w := nodeWord s n 2
  let dflt := bits (nodeWord s n 0) 23 16
  let width := bits w 18 13
  if width = 0 then dflt
  else
    let sel := (window head off (bits w 31 24) >>> bits w 23 19) % 2 ^ min 32 width
    let t := nodeWord s n 3
    (transFind s sel (bits t 21 16) (bits t 31 22)).getD dflt

/-- The walk from node `n` at offset `off`, with visits left; `len` is the frame's length (R44, R48). A TERMINAL node whose own
header has a bad length, or ends past the frame or the head, ends the walk with that error (DEDUCED, log entry 123). -/
def walkFrom (s : State) (head : Bytes) (len : Nat) : Nat → Nat → Nat → Walk → Walk
  | 0, _, _, w => { w with status := 5, prof := 15 }
  | fuel + 1, n, off, w =>
    if !bit (nodeWord s n 0) 31 then { w with status := 3, prof := 15 } else
    let w0 := nodeWord s n 0
    let slots := [4, 5, 6, 7].foldl (fun t i => extract head off (nodeWord s n i) t) w.slots
    let w := { w with slots := slots, hdrs := (w.hdrs ++ [(bits w0 29 24, off)]).take 16, endFlow := w.endFlow || bit w0 3,
                      visits := w.visits + 1 }
    match headerLen s head n off with
    | none => { w with status := 4, prof := 15 }
    | some k =>
      let e := off + k
      if len ≤ 512 ∧ e > len then { w with status := 2, prof := 15 }
      else if len > 512 ∧ e > 512 then { w with status := 1, prof := 15 }
      else if bit w0 30 then { w with status := 0, prof := bits w0 7 4, pay := e }
      else walkFrom s head len fuel (nextNode s head n off) e w

/-- The walk of a frame: its head is the first 512 bytes; slot 63 holds the ingress sub-port (R47). -/
def walk (s : State) (b : Bytes) (len subport : Nat) : Walk :=
  let w := walkFrom s (b.take 512) len 256 0 0 { slots := [], status := 0, prof := 15, hdrs := [], endFlow := false, visits := 0, pay := 0 }
  { w with slots := tset [] w.slots 63 (leBytes 1 subport ++ List.replicate 15 0) }

/-- Field slot `i`. -/
def slotOf (w : Walk) (i : Nat) : Bytes := slice (tget [] w.slots i) 0 16

/-! ### Key and class (R49 to R51) -/

/-- Bytes an element of a key profile takes, reading slot `sl`. -/
def keyElem (w : Walk) (sl n : Nat) : Bytes := (slotOf w sl).take (clampN 1 16 n)

/-- Unsigned comparison of byte strings in order: `a > b`. -/
def bytesGt : Bytes → Bytes → Bool
  | [], _ => false
  | _ :: _, [] => true
  | a :: r, b :: t => if a = b then bytesGt r t else decide (a > b)

/-- Element `e` after elements `a` and `b` are exchanged. -/
def exchange (a b e : Nat) : Nat := if e = a then b else if e = b then a else e

/-- The flow key under profile `prof` with the direction bit; `sym` false ignores SYMMETRIC (R80). A swap exchanges the slots that the
elements of the first pair read, then those of the second; two pairs of the same elements are one (DEDUCED, log entry 120). -/
def formKey (s : State) (w : Walk) (prof : Nat) (sym : Bool) : Bytes × Bool :=
  let k := slice (tget [] s.weave.keyProfs prof) 0 48
  let len := 16 * (byteAt k 0 % 4 + 1)
  let n := min 16 (byteAt k 1)
  let slotNo := fun e => byteAt k (8 + 2 * e) % 64
  let cnt := fun e => byteAt k (9 + 2 * e)
  let a1 := byteAt k 2
  let b1 := byteAt k 3
  let a2 := byteAt k 4
  let b2 := byteAt k 5
  let el := fun e => keyElem w (slotNo e) (cnt e)
  let swap := sym && bit (byteAt k 0) 7 && bytesGt (el a1 ++ el a2) (el b1 ++ el b2)
  let same := (a1 == a2 && b1 == b2) || (a1 == b2 && b1 == a2)
  let src := fun e => slotNo (if !swap then e else if same then exchange a1 b1 e else exchange a1 b1 (exchange a2 b2 e))
  let body := (List.range n).flatMap fun e => keyElem w (src e) (cnt e)
  (slice (leBytes 1 prof ++ body) 0 len, swap)

/-- Does class-table entry `c` match (R51, Table WV-4). -/
def classMatch (c : Bytes) (w : Walk) (subport : Nat) : Bool :=
  let m := fun v i => v &&& byteAt c (i + 1) == byteAt c i &&& byteAt c (i + 1)
  bit (byteAt c 6) 7 && m subport 0 && m w.prof 2 && m w.status 4 &&
  (List.range 8).all fun i =>
    let v := byteAt (slotOf w (byteAt c (8 + 2 * i) % 64)) (byteAt c (9 + 2 * i) % 16)
    v &&& byteAt c (32 + i) == byteAt c (24 + i) &&& byteAt c (32 + i)

/-- The flow class: the first matching entry of 512, else 255. -/
def classOf (s : State) (w : Walk) (subport : Nat) : Nat :=
  match s.weave.classes.find? fun e => classMatch (slice e.2 0 48) w subport with
  | some e => byteAt e.2 40
  | none => 255

/-- IP version and offset for ECN (R230). -/
def ipHeader (s : State) (p : Nat) (w : Walk) (b : Bytes) : Nat × Nat :=
  let r := rg s (rTM_ECN_CLS p)
  let hit := fun (h : Nat × Nat) => (bit r 7 && h.1 == bits r 5 0) || (bit r 15 && h.1 == bits r 13 8)
  match w.hdrs.find? hit with
  | none => (0, 0)
  | some (_, off) =>
    let v := byteAt (b.take 512) off / 16
    if v = 4 then (1, off) else if v = 6 then (2, off) else (0, 0)

/-! ### Feature profiles (R52, R454, Table WV-4) -/

/-- A primitive of a profile. -/
structure Prim where
  kind : Nat
  src : Nat
  param : Nat
  flags : Nat
  subst : Nat
deriving DecidableEq, Repr

/-- The profile of a class: PROFMAP, or k mod 64 (R376). -/
def profileOf (s : State) (k : Nat) : Nat × Bytes :=
  let n := tget (k % 64) s.weave.profMap k % 64
  (n, slice (tget [] s.weave.featProfs n) 0 1280)

/-- Primitives of a profile. -/
def prims (f : Bytes) : List Prim :=
  (List.range (min 128 (byteAt f 0))).map fun j =>
    { kind := byteAt f (16 + 8 * j), src := byteAt f (17 + 8 * j), param := byteAt f (18 + 8 * j),
      flags := byteAt f (19 + 8 * j), subst := leAt f (20 + 8 * j) 2 }

/-- State bytes of a primitive (Table FP-5). -/
def primSize : Nat → Nat
  | 1 => 4 | 2 => 8 | 3 => 8 | 4 => 4 | 5 => 4 | 6 => 4 | 7 => 8 | 8 => 16 | 9 => 2 | 10 => 8 | _ => 0

/-- Offset of each primitive's state (R454). -/
def primOffs : List Prim → Nat → List (Prim × Nat)
  | [], _ => []
  | a :: r, o =>
    let z := primSize a.kind
    let o' := if z = 0 then o else cdiv o z * z
    (a, o') :: primOffs r (o' + z)

/-- Bytes of a profile's state. -/
def stateSize (f : Bytes) : Nat := 64 * clampN 1 16 (leAt f 8 8)

/-- Trigger enables. -/
def trigEn (f : Bytes) (i : Nat) : Bool := bit (byteAt f 1) (4 + i)

/-- Offset of the next tick in the state. -/
def tickOff (f : Bytes) : Nat := stateSize f - 8

/-- Offset of the NTH count. -/
def nthOff (f : Bytes) : Nat := if trigEn f 3 then stateSize f - 12 else stateSize f - 4

/-- What the feature engine reads of a packet: none of it exists with NO_FRAME. -/
structure Pkt where
  slots : Walk
  gt : Nat
  len : Nat
  dir : Bool
  subport : Nat
  first : Bool
deriving DecidableEq, Repr

/-- The value of a primitive's source (R52). -/
def source (k : Pkt) (a : Prim) : Nat :=
  match a.src with
  | 64 => k.len
  | 65 => k.gt
  | 66 => b2n k.dir
  | i => beNat ((slotOf k.slots (i % 64)).take (bits a.flags 6 4 + 1))

/-- One primitive's new state (Table FP-5). -/
def primUpdate (k : Pkt) (a : Prim) (st : Bytes) : Bytes :=
  let v := source k a
  let v32 := min v 0xFFFFFFFF
  let old := leNat st
  match a.kind with
  | 1 => leBytes 4 (min (old + 1) 0xFFFFFFFF)
  | 2 => leBytes 8 (min (old + v) (2 ^ 64 - 1))
  | 3 => leBytes 8 v
  | 4 => leBytes 4 (if k.first then v32 else min old v32)
  | 5 => leBytes 4 (if k.first then v32 else max old v32)
  | 6 =>
    let x : Int := (min (v * 65536) 0x7FFFFFFF : Nat)
    let s0 := toSigned 32 old
    leBytes 4 (ofSigned 32 (if k.first then x else s0 + (x - s0) / ((2 ^ clampN 1 15 a.param : Nat) : Int)))
  | 7 => leBytes 8 k.gt
  | 8 =>
    let i := min 7 (v + 1).log2
    splice st (2 * i) (leBytes 2 (min 65535 (leAt st (2 * i) 2 + 1)))
  | 9 => leBytes 2 (old ||| v % 65536)
  | 10 =>
    let m := 2 ^ clampN 8 32 a.param
    let e := leAt st 0 4
    let x := v % m
    let d := (x + m - e % m) % m
    leBytes 4 ((x + 1) % m) ++ leBytes 4 (if d = 0 then leAt st 4 4 else min (leAt st 4 4 + 1) 0xFFFFFFFF)
  | _ => st

/-- Update every primitive's state of a profile. -/
def stateUpdate (f : Bytes) (k : Pkt) (st : Bytes) : Bytes :=
  (primOffs (prims f) 0).foldl (fun st e =>
    let z := primSize e.1.kind
    if z = 0 then st else splice st e.2 (primUpdate k e.1 (slice st e.2 z))) st

/-- The code of a category map: exact match of the low 16 bits, else the OTHER code (R54). A source wider than the 16 bits of a
pair is compared by its low 16 bits (DESIGN CHOICE, log entry 124). -/
def catCode (s : State) (m v : Nat) : Nat :=
  let c := slice (tget [] s.weave.cats m) 0 1040
  let n := min 256 (leAt c 2 2)
  match (List.range n).find? fun i => leAt c (16 + 4 * i) 2 == v % 65536 with
  | some i => leAt c (18 + 4 * i) 2
  | none => leAt c 0 2

/-- Outputs of a primitive before formatting: an exact value, or missing. `st` is the state after the update,
`old` before it, `k` absent with NO_FRAME. -/
def primOut (s : State) (k : Option Pkt) (a : Prim) (old st : Bytes) : List (Option FNum) :=
  let n := fun (v : Nat) => some (FNum.ofInt (v : Int))
  match a.kind with
  | 1 => [n (leNat st)]
  | 2 => [n (leNat st)]
  | 3 => [n (leNat st)]
  | 4 => [n (leNat st)]
  | 5 => [n (leNat st)]
  | 6 => let v := toSigned 32 (leNat st); [some (.fin (decide (v < 0)) v.natAbs (-16))]
  | 7 => match k with
    | some k => if k.first then [none] else [n ((k.gt + 2 ^ 64 - leNat old) % 2 ^ 64 / 2 ^ (a.param % 16))]
    | none => [none]
  | 8 => (List.range 8).map fun i => n (leAt st (2 * i) 2)
  | 9 => [n (leNat st)]
  | 10 =>
    let d := match k with
      | some k =>
        let m := 2 ^ clampN 8 32 a.param
        n ((source k a % m + m - leAt old 0 4 % m) % m)
      | none => none
    [n (leAt st 4 4), d]
  | 11 =>
    let c := k.map fun k => catCode s (a.param % 16) (source k a)
    if bit a.flags 3 then (List.range 16).map fun i => c.bind fun c => n (b2n (c == i))
    else [c.bind n]
  | _ => []

/-- A feature in its format: INT16 takes the integer part and saturates; BF16 rounds to nearest even (R53). -/
def featFmt (bf : Bool) (v : FNum) : Nat :=
  if bf then encBf16 v
  else match v with
    | .fin sg m e =>
      let q : Nat := if e ≥ 0 then m * 2 ^ e.toNat else m / 2 ^ (-e).toNat
      let i : Int := if sg then -(q : Int) else q
      ofSigned 16 (if i > 32767 then 32767 else if i < -32768 then -32768 else i)
    | _ => 0

/-- Features of a primitive: outputs, then its indicator (R54). -/
def primFeats (s : State) (f : Bytes) (k : Option Pkt) (a : Prim) (old st : Bytes) : List Nat :=
  let bf := bit (byteAt f 1) 1 != bit a.flags 0
  let outs := primOut s k a old st
  let vals := outs.map fun o => match o with
    | some v => featFmt bf v
    | none => if bit a.flags 1 && bf then nanBf16 else a.subst
  if bit a.flags 2 && !outs.isEmpty then vals ++ [featFmt bf (FNum.ofInt (b2n (outs.any Option.isNone)))] else vals

/-- The vector: header, then the features in profile order (R56). -/
def vector (s : State) (f : Bytes) (prof : Nat) (k : Option Pkt) (gt entry trig : Nat) (old st : Bytes) : Bytes :=
  let fs := ((primOffs (prims f) 0).flatMap fun e =>
    primFeats s f k e.1 (slice old e.2 (primSize e.1.kind)) (slice st e.2 (primSize e.1.kind))).take 1024
  leBytes 8 gt ++ leBytes 4 entry ++ leBytes 2 fs.length ++ leBytes 1 prof ++ leBytes 1 trig ++ fs.flatMap (leBytes 2)

/-- The token: 64 bytes by the profile's template (R56). -/
def token (f : Bytes) (k : Option Pkt) (old : Bytes) : Bytes :=
  match k with
  | none => leBytes 64 0
  | some k =>
    let dt := match (primOffs (prims f) 0).find? fun e => e.1.kind == 7 with
      | some e => if k.first then 0 else min 255 (log2x8 ((k.gt + 2 ^ 64 - leAt old e.2 8) % 2 ^ 64 + 1))
      | none => 0
    (List.range 64).flatMap fun t =>
      let w := leAt f (1040 + 2 * t) 2
      leBytes 1 (match bits w 15 12 with
        | 1 => byteAt (slotOf k.slots (bits w 11 6)) (bits w 5 2)
        | 2 => dt
        | 3 => min 255 (k.len / 64)
        | 4 => b2n k.dir
        | 5 => k.subport
        | _ => 0)

/-- The payload of a request under a profile: token or vector. -/
def payload (s : State) (f : Bytes) (prof : Nat) (k : Option Pkt) (gt entry trig : Nat) (old st : Bytes) : Bytes :=
  if bit (byteAt f 1) 0 then token f k old else vector s f prof k gt entry trig old st

/-- The update of a packet and its triggers: new state, trigger bits, ticks passed over (R55). -/
def featureStep (f : Bytes) (k : Pkt) (endFlow : Bool) (st : Bytes) : Bytes × Nat × Nat :=
  let st1 := stateUpdate f k st
  let cnt := (leAt st1 (nthOff f) 4 + 1) % 2 ^ 32
  let st2 := if trigEn f 1 then splice st1 (nthOff f) (leBytes 4 cnt) else st1
  let nth := trigEn f 1 && cnt % max 2 (leAt f 2 2) == 0
  let t := 1000 * clampN 1 1000000 (leAt f 4 4)
  let tick := leAt st (tickOff f) 8
  let fired := trigEn f 3 && !k.first && decide (k.gt ≥ tick)
  let st3 := if trigEn f 3 && (k.first || fired) then splice st2 (tickOff f) (leBytes 8 ((k.gt / t + 1) * t)) else st2
  let skip := if fired then k.gt / t - tick / t else 0
  (st3, b2n (trigEn f 0) + 2 * b2n nth + 4 * b2n (trigEn f 2 && endFlow) + 8 * b2n fired, skip)

end Sys2Proof.Machine
end

