-- ==== Sys2Proof/Machine/Requests.lean ====
section
/-! DEFINITION. Fired triggers: binding, sampling, journal, the request queue, forwarding (R55, R57, R87, R88,
R215, R277 to R281, R317). -/

namespace Sys2Proof.Machine

/-- A logical tile with no site. -/
def tile0 : Tile := { site := none, rq := [], sb := [], rr := [], lastIssue := 0, form := none, run := none }

/-- Logical tile `l`. -/
def tileGet (s : State) (l : Nat) : Tile := tget tile0 s.tiles l

/-- Store a logical tile. -/
def tilePut (s : State) (l : Nat) (v : Tile) : State := { s with tiles := tset tile0 s.tiles l v }

/-- Site of a logical tile; 31 stands for none (its registers are then no site's). -/
def tileSite (s : State) (l : Nat) : Nat := (tileGet s l).site.getD 31

/-- The device context a class is bound to in partition `q`: none when the binding acts as VALID 0 (R87). -/
def binding (s : State) (q k : Nat) : Option Nat :=
  let w := rg s (rTIL_BIND q k)
  let l := bits w 30 26
  if bit w 31 && tilePart s l == q && (tileGet s l).site.isSome && !braidOdd s l then some (l * 1024 + bits w 25 16)
  else none

/-- DEFAULT_CLASS of a binding. -/
def bindDefault (s : State) (q k : Nat) : Nat := rg s (rTIL_BIND q k) % 1024

/-- The default class of a frame of class `k` that processes in partition `q` (R206), and its context. -/
def flowDefault (s : State) (q k : Nat) : Nat × Nat :=
  match binding s q k with
  | some c => (ctxDefault s c, c)
  | none => (bindDefault s q k, 0)

/-- The request header of Table TIL-2, PLY still zero. -/
def reqHeader (gt entry ctx part src : Nat) (fromPeer : Bool) (trig : Nat) (tok : Bool) (len cls id : Nat) : Bytes :=
  leBytes 8 gt ++ leBytes 4 entry ++
  leBytes 4 (ctx / 1024 * 2 ^ 27 + ctx % 1024 * 2 ^ 17 + part * 2 ^ 15 + src * 2 ^ 9 + b2n fromPeer * 256 + trig % 256) ++
  leBytes 4 (b2n tok * 2 ^ 31 + len % 4096 * 65536 + cls % 256) ++ leBytes 4 id ++ leBytes 8 0

/-- A fired trigger: where it was processed (`q`), the partition of its share (`p`), class, entry index and
identity, trigger bits, payload and its kind, stamp, its frame, the flow key. -/
structure Fired where
  q : Nat
  p : Nat
  cls : Nat
  entry : Nat
  uid : Option Nat
  trig : Nat
  tok : Bool
  load : Bytes
  gt : Nat
  frame : Option Nat
  key : Bytes
deriving DecidableEq, Repr

/-- Hold a frame for its verdict (R27). -/
def holdFrame (s : State) (h : Nat) (w : Hold) : State :=
  match frameGet s h with
  | some f => framePut s h { f with stage := .held, hold := some w }
  | none => s

/-- A trigger refused at once: its frame proceeds, and a verdict with LATE_DEFAULT is formed (R202). -/
def refuseFired (s : State) (r : Fired) (dcls ctx : Nat) (smp : Bool) : State :=
  formVerdict s r.p (r.uid.map fun u => (r.entry, u)) r.entry (lateVerdict dcls ctx r.gt smp) dcls r.frame

/-- Put a journalled request into the request queue of its logical tile; a full queue refuses it (R88, R89). -/
def enqueueReq (s : State) (p slot ctx : Nat) : State :=
  let l := ctx / 1024
  let t := tileGet s l
  if t.rq.length ≥ 4096 then
    refuse (cinc (bump s (rTIL_REQ_Q_FULL (tileSite s l))) (cTile l 10) 1) p slot ctx
  else tilePut s l { t with rq := t.rq ++ [⟨p, slot⟩] }

/-- Journal a request and send it to its context (R88, R317). At the expiry of its latency bound the frame proceeds under the default
class that stood when it was held, while a refusal takes the default class of the moment (R27; DESIGN CHOICE, log entry 139). -/
def sendLocal (s : State) (r : Fired) (ctx : Nat) (smp : Bool) : State :=
  match jFree s r.p with
  | none => refuseFired (bump s rFLT_JRNL_FULL) r (ctxDefault s ctx) ctx smp
  | some i =>
    let hdr := reqHeader r.gt r.entry ctx r.p (devId s) false r.trig r.tok r.load.length r.cls i
    let s := jNew s r.p i { admitted := false, order := 0, hdr := hdr, payload := r.load, frame := r.frame, uid := r.uid, ctx := ctx,
                            sampled := smp, peer := none }
    let s := cinc s (cPart r.q 4) 1
    let s := match r.frame with
      | some h => holdFrame s h { forwarded := false, req := i, until_ := r.gt + latBound (ctxGet s ctx), ctx := ctx,
                                  defClass := ctxDefault s ctx }
      | none => s
    enqueueReq s r.p i ctx

/-- Forward a trigger in REQUEST mode to its owner (R278, R281). -/
def sendForward (s : State) (r : Fired) (ctx dev dpart : Nat) (smp : Bool) : State :=
  match fwdFree s r.p with
  | none => refuseFired (bump s rPL_FWD_FULL) r (ctxDefault s ctx) ctx smp
  | some i =>
    let fply := fplyGet s r.p dev
    let s := fwdPut s r.p i (some { dev := dev, fply := fply, frame := r.frame, entry := r.entry, uid := r.uid, ctx := ctx,
                                    gt := r.gt, sampled := smp, since := s.gt })
    let hdr := reqHeader r.gt r.entry 0 r.p (devId s) false r.trig r.tok r.load.length r.cls i
    let (l, s) := plSend s 1 dev dpart (msgHdr r.p i fply r.cls false r.trig r.gt 0 0 ++ hdr ++ r.load)
    let s := cinc (cinc (bump s rPL_FWD_REQ) (cPart r.q 20) 1) (cPart r.q 4) 1
    let s := match l with
      | some l => if linkQueued (linkGet s l) ≥ fwdqHigh s then demand s r.q ctx else s
      | none => s
    match r.frame with
    | some h => holdFrame s h { forwarded := true, req := i, until_ := r.gt + latBound (ctxGet s ctx), ctx := ctx,
                                defClass := ctxDefault s ctx }
    | none => s

/-- Send a frame's head to its owner (R279): with a request (NOREQ 0) when `trig` is given; `fired`: the TRIG bits of a head without
one, whose trigger fired and was not sampled. -/
def sendHead (s : State) (q p h cls dev dpart ctx fired : Nat) (trig : Option (Nat × Nat × Option Nat × Bool)) : State :=
  match frameGet s h with
  | none => s
  | some f =>
    let noreq := fun (s : State) =>
      let l := (route s dev s.pl.msg 0).map fun e => e.1
      let busy := match l with | some l => decide (linkQueued (linkGet s l) ≥ fwdqHigh s) | none => false
      if busy then bump s rPL_HEAD_SKIP
      else
        let m := msgHdr p 0 (fplyGet s p dev) cls true fired f.gt f.length (f.port * 4 + f.sub) ++ f.bytes.take 512
        bump (plSend s 3 dev dpart m).2 rPL_FWD_HEAD
    match trig with
    | none => noreq s
    | some (bitsT, entry, uid, smp) =>
      match fwdFree s p with
      | none =>
        let s := noreq (bump s rPL_FWD_FULL)
        formVerdict s p (uid.map fun u => (entry, u)) entry (lateVerdict (ctxDefault s ctx) ctx f.gt smp) (ctxDefault s ctx) (some h)
      | some i =>
        let fply := fplyGet s p dev
        let s := fwdPut s p i (some { dev := dev, fply := fply, frame := some h, entry := entry, uid := uid, ctx := ctx,
                                      gt := f.gt, sampled := smp, since := s.gt })
        let m := msgHdr p i fply cls false bitsT f.gt f.length (f.port * 4 + f.sub) ++ f.bytes.take 512
        let (l, s) := plSend s 3 dev dpart m
        let s := cinc (bump s rPL_FWD_HEAD) (cPart q 20) 1
        let s := match l with
          | some l => if linkQueued (linkGet s l) ≥ fwdqHigh s then demand s q ctx else s
          | none => s
        holdFrame s h { forwarded := true, req := i, until_ := f.gt + latBound (ctxGet s ctx), ctx := ctx,
                        defClass := ctxDefault s ctx }

/-- The owner device and partition a class's flow is forwarded to, if it is forwarded at all (R277). -/
def forwardTo (s : State) (k : Nat) (key : Bytes) : Option (Nat × Nat) :=
  if fwdMode s k = 0 ∨ topo s = 0 then none
  else let (d, part) := ownerOf s key; if d = devId s then none else some (d, part)

/-- A trigger fires (R55): unbound, not sampled, forwarded, or sent to its context. -/
def fire (s : State) (r : Fired) : State :=
  let s := cinc s (cPart r.q 3) 1
  match binding s r.q r.cls with
  | none => refuseFired (bump s (rTIL_UNBOUND r.q)) r (bindDefault s r.q r.cls) 0 false
  | some c =>
    let v := sampGet s r.q c
    let smp := decide (v.sx > 0)
    let s := sampPut s r.q c { v with count := (v.count + 1) % 2 ^ 32 }
    let fwd := forwardTo s r.cls r.key
    if v.count % 2 ^ v.sx ≠ 0 then
      let s := cinc (bump s (rPIPE_SAMPLED_OUT r.q)) (cPart r.q 5) 1
      match r.frame with
      | none => s
      | some h =>
        let s := match fwd with
          | some (d, part) => if fwdMode s r.cls = 2 then sendHead s r.q r.p h r.cls d part c r.trig none else s
          | none => s
        proceedFlow s h r.entry (r.uid.getD 0) (ctxDefault s c) c true
    else
      match fwd with
      | none => sendLocal s r c smp
      | some (d, part) =>
        if fwdMode s r.cls = 1 then sendForward s r c d part smp
        else match r.frame with
          | some h => sendHead s r.q r.p h r.cls d part c r.trig (some (r.trig, r.entry, r.uid, smp))
          | none => s

end Sys2Proof.Machine
end

