-- ==== Sys2Proof/Machine/Granary.lean ====
section
/-! DEFINITION. The Granary: lookup, commit, eviction, aging, moves, parity, host commands (R59 to R84). -/

namespace Sys2Proof.Machine

/-! ### Geometry (R60, R63, R66) -/

/-- Table enabled. -/
def grnOn (s : State) (p : Nat) (ep : Bool) : Bool := rgb s (grnCfg p ep) 31

/-- Entry index of slot `sl` of bucket `n` of way `i` (R63). -/
def entIndex (w i n sl : Nat) : Nat := (i * 2 ^ w + n) * 8 + sl

/-- Entry indices of bucket `n` of way `i`, in slot order. -/
def bucketIdx (w i n : Nat) : List Nat := (List.range 8).map (entIndex w i n)

/-- Candidate bucket of a key in way `i` (R66). -/
def bucketOf (s : State) (p : Nat) (ep : Bool) (key : Bytes) (i : Nat) : Nat :=
  let seed := rg s (if ep then rGRN_EP_SEED p i else rGRN_FLOW_SEED p i)
  (crc32c (BitVec.ofNat 32 seed) key).toNat % 2 ^ wayLog2 s p ep

/-- KEY_SIZE, DIGEST and KEY of a key (R65). -/
def storedKey (key : Bytes) : Nat × Bool × Bytes :=
  let z := key.length / 16 - 1
  if key.length ≤ 32 then (z, false, slice key 0 40) else (z, true, shake256 40 key)

/-- A stored key matches (R65). -/
def keyMatch (e : GEnt) (k : Nat × Bool × Bytes) : Bool := e.ksize == k.1 && e.digest == k.2.1 && e.key == k.2.2

/-- µs of a stamp, modulo 2^40 (R74). -/
def grnTime (gt : Nat) : Nat := gt / 1000 % 2 ^ 40

/-- Age of an entry in µs (R74). -/
def entAge (s : State) (e : GEnt) : Nat := (grnTime s.gt + 2 ^ 40 - e.last) % 2 ^ 40

/-- An entry is expired (R74). -/
def entExpired (s : State) (p : Nat) (ep : Bool) (e : GEnt) : Bool :=
  let lim := min 2700000000 (rg s (if ep then rGRN_EP_AGE p else rGRN_FLOW_AGE p))
  lim != 0 && !e.static && !e.pinned && decide (entAge s e > lim * 32)

/-! ### Entry image (Tables GRN-1 and VD-2) -/

/-- Bytes of VSTATE. -/
def vsBytes (v : VState) : Bytes :=
  leBytes 4 (v.kind * 2 ^ 30 + b2n v.nan * 2 ^ 29 + b2n v.sampled * 2 ^ 28 + v.cls % 1024 * 65536 + v.gen % 65536) ++
  leBytes 4 (v.vgen * 2 ^ 20 + (match v.lslot with | some i => 65536 + i | none => 0)) ++
  leBytes 4 v.score ++ leBytes 2 (v.ctx % 2 ^ 15) ++ leBytes 2 v.conf

/-- The 64 bytes of an entry. -/
def entBytes (ep : Bool) (e : GEnt) : Bytes :=
  leBytes 8 (2 ^ 63 + b2n e.static * 2 ^ 62 + b2n e.pinned * 2 ^ 61 + b2n e.digest * 2 ^ 60 + e.ksize % 4 * 2 ^ 58 +
    e.cls % 256 * 2 ^ 50 + e.port % 128 * 2 ^ 43 + e.moves % 8 * 2 ^ 40 + e.last % 2 ^ 40) ++
  slice e.key 0 40 ++ (if ep then leBytes 5 e.first ++ leBytes 11 0 else vsBytes e.vs)

/-! ### Records and removal -/

/-- A GRANARY record (Table GRN-4). -/
def grnRecord (s : State) (p : Nat) (ep : Bool) (event detail index : Nat) (static pinned : Bool) (key8 : Bytes) : State :=
  stage s (4 + p) (rgf s (grnCfg p ep) 21 16) (if event = 1 then 6 else 4) 3
    (leBytes 1 event ++ leBytes 1 (b2n ep + 2 * b2n static + 4 * b2n pinned) ++ leBytes 1 p ++ leBytes 1 detail ++
     leBytes 4 index ++ leBytes 8 s.gt ++ slice key8 0 8)

/-- Resolve the open ledger slot of a flow entry that goes (R210). -/
def entStood (s : State) (p : Nat) (e : GEnt) : State :=
  match e.vs.lslot with | some i => slotStood s p i | none => s

/-- Feature state of a flow entry, at FS_BASE + index × stride (R63). -/
def fsGet (s : State) (p i n : Nat) : Bytes := generalR s p (fsAt s p i) n

/-- Store feature state, in whole 64-byte units of the tier. -/
def fsPut (s : State) (p i : Nat) (b : Bytes) : State := generalW s p (fsAt s p i) (slice b 0 (cdiv b.length 64 * 64))

/-- Remove an entry: its ledger slot stands resolved. -/
def entRemove (s : State) (p : Nat) (ep : Bool) (i : Nat) (e : GEnt) : State :=
  entPut (if ep then s else entStood s p e) p ep i none

/-- The EOF of a flow entry that is aged or evicted: with no frame, from its state as it stands (R55). `q` is
the partition whose pipe processes for the share. GT64 of its header is the present Global Time (DESIGN CHOICE, log entry 128), and
the entry's CLASS picks its feature profile (DESIGN CHOICE, log entry 129). No request is sent from feature state that cannot be
read (R7). -/
def entEof (s : State) (q p i : Nat) (e : GEnt) : State :=
  let (n, f) := profileOf s e.cls
  if trigEn f 2 then
    match generalBad s p (fsAt s p i) (stateSize f) with
    | some a => tierMiss s a
    | none =>
    let st := fsGet s p i (stateSize f)
    let trig := 4 + 16
    fire s { q := q, p := p, cls := e.cls, entry := i, uid := none, trig := trig, tok := bit (byteAt f 1) 0,
             load := payload s f n none s.gt i trig st st, gt := s.gt, frame := none, key := e.key }
  else s

/-- The flags and KEY8 of an entry as they are read: of a word whose parity fails nothing more is known, so what it gives is a
free value (R83; log entry 125). -/
def asRead (s : State) (e : GEnt) : Bool × Bool × Bytes × State :=
  let (st, pi, s) := if bit e.par 0 then let (x, s) := drawFree s 2; (bit x 0, bit x 1, s) else (e.static, e.pinned, s)
  let (k, s) := if bit e.par 1 then let (x, s) := drawFree s 64; (leBytes 8 x, s) else (slice e.key 0 8, s)
  (st, pi, k, s)

/-- An entry found with a parity error is invalidated: counted, recorded, a masked fault of class GRN_PARITY
that ends at once, no EOF (R79). -/
def parityKill (s : State) (p : Nat) (ep : Bool) (i : Nat) : State :=
  match entGet s p ep i with
  | none => s
  | some e =>
    let (st, pi, k, s) := asRead s e
    let s := entRemove s p ep i e
    let s := grnRecord (bump s (rGRN_PARITY p)) p ep 1 (e.par % 256) i st pi k
    faultInstant s 7 (unitCode 4 ((entPlace s p ep i).1 / 64)) p 0 1 1 (r5holds s) false

/-- The entry's bucket lies in a fenced bank: its entries are treated as not VALID (R79, R197). -/
def entFenced (s : State) (p : Nat) (ep : Bool) (x : Nat) : Bool :=
  s.pwr.groups.any (fun e => !e.2.fenced.isEmpty) && bankFenced s (entPlace s p ep x).1

/-- An array fault makes words of an entry fail their parity (R64). -/
def parityStrike (s : State) (p : Nat) (ep : Bool) (i words : Nat) : State :=
  match entGet s p ep i with
  | some e => entPut s p ep i (some { e with par := e.par ||| words % 256 })
  | none => s

/-- An operation reads entries: faults that strike them first, then the parity of every word is checked and an entry with an error
in any is invalidated (R79). -/
def parityCheck (s : State) (p : Nat) (ep : Bool) (par : List ParHit) (reads : List Nat) : State :=
  let s := par.foldl (fun s h => if h.ep == ep && reads.contains h.index then parityStrike s p ep h.index h.words else s) s
  reads.foldl (fun s i => match entGet s p ep i with
    | some e => if e.par ≠ 0 && !entFenced s p ep i then parityKill s p ep i else s
    | none => s) s

/-! ### Lookup (R67, R76) -/

/-- First slot of a bucket that holds a key. -/
def bucketFind (s : State) (p : Nat) (ep : Bool) (w i n : Nat) (k : Nat × Bool × Bytes) : Option Nat :=
  (bucketIdx w i n).find? fun x =>
    match entGet s p ep x with | some e => keyMatch e k && !entFenced s p ep x | none => false

/-- The ways of a lookup: 0 and 1, then 2 and 3; parity of what is read (R67, R79). -/
def probeWays (s : State) (p : Nat) (ep : Bool) (key : Bytes) (par : List ParHit) : Option Nat × State :=
  let w := wayLog2 s p ep
  let k := storedKey key
  let b := fun i => bucketOf s p ep key i
  let s := parityCheck s p ep par (bucketIdx w 0 (b 0) ++ bucketIdx w 1 (b 1))
  match (bucketFind s p ep w 0 (b 0) k).orElse fun _ => bucketFind s p ep w 1 (b 1) k with
  | some i => (some i, s)
  | none =>
    let s := parityCheck s p ep par (bucketIdx w 2 (b 2) ++ bucketIdx w 3 (b 3))
    ((bucketFind s p ep w 2 (b 2) k).orElse fun _ => bucketFind s p ep w 3 (b 3) k, s)

/-- A lookup: an expired hit is deleted as the scan would, fires EOF and counts in GRN_LATE_EXPIRE, and the lookup misses (R76).
`q`: the processing partition. -/
def lookup (s : State) (q p : Nat) (ep : Bool) (key : Bytes) (par : List ParHit) : Option Nat × State :=
  match probeWays s p ep key par with
  | (none, s) => (none, s)
  | (some i, s) =>
    match entGet s p ep i with
    | none => (none, s)
    | some e =>
      if entExpired s p ep e then
        let s := if ep then s else entEof s q p i e
        (none, bump (entRemove s p ep i e) (rGRN_LATE_EXPIRE p))
      else (some i, s)

/-! ### Insert and eviction (R70 to R73) -/

/-- A free slot among the candidate buckets: lowest way, lowest slot. -/
def freeSlot (s : State) (p : Nat) (ep : Bool) (key : Bytes) : Option Nat :=
  let w := wayLog2 s p ep
  ([0, 1, 2, 3].flatMap fun i => bucketIdx w i (bucketOf s p ep key i)).find? fun x =>
    (entGet s p ep x).isNone && !entFenced s p ep x

/-- Occupants that may be evicted, in way order then slot order. -/
def evictable (s : State) (p : Nat) (ep : Bool) (key : Bytes) : List Nat :=
  let w := wayLog2 s p ep
  ([0, 1, 2, 3].flatMap fun i => bucketIdx w i (bucketOf s p ep key i)).filter fun x =>
    match entGet s p ep x with | some e => !e.static && !e.pinned && !entFenced s p ep x | none => false

/-- The occupant of greatest age, ties to the first. -/
def oldest (s : State) (p : Nat) (ep : Bool) (l : List Nat) : Nat :=
  (l.foldl (fun (a : Nat × Nat) x =>
    match entGet s p ep x with
    | some e => if entAge s e + 1 > a.2 then (x, entAge s e + 1) else a
    | none => a) (0, 0)).1

/-- Evict one occupant of a full candidate set under EVICT; its EOF fires first; none when no occupant is
eligible (R72). -/
def evict (s : State) (q p : Nat) (ep : Bool) (key : Bytes) : Option Nat × State :=
  match evictable s p ep key with
  | [] => (none, s)
  | l =>
    let (v, s) := if rgb s (grnCfg p ep) 30 then (oldest s p ep l, s)
      else
        let h := shareGet s p
        let r := lfsrNext h.lfsr
        (l.getD (r.toNat % l.length) 0, sharePut s p { h with lfsr := r })
    match entGet s p ep v with
    | none => (none, s)
    | some e =>
      let s := if ep then s else entEof s q p v e
      (some v, cinc (bump (entRemove s p ep v e) (rGRN_EVICT p)) (cPart p 12) 1)

/-- The slot a new entry takes: free, or an evicted one's. -/
def slotForInsert (s : State) (q p : Nat) (ep : Bool) (key : Bytes) : Option Nat × State :=
  match freeSlot s p ep key with
  | some i => (some i, s)
  | none => evict s q p ep key

/-- A new entry (R70). -/
def newEntry (s : State) (key : Bytes) (cls port gt : Nat) : GEnt :=
  let (z, d, k) := storedKey key
  { uid := s.uids, static := false, pinned := false, digest := d, ksize := z, cls := cls, port := port, moves := 0,
    last := grnTime gt, first := grnTime gt, key := k, vs := vstate0, par := 0 }

/-- Write a new entry with zeroed feature state, whose units read good from then on (R70, R455). -/
def putEntry (s : State) (p : Nat) (ep : Bool) (i : Nat) (e : GEnt) : State :=
  let s := entPut { s with uids := s.uids + 1 } p ep i (some e)
  if ep then s else fsPut s p i (List.replicate (fsStride s p) 0)

/-- Insert budget of a partition as it acts (R71). -/
def insBurst (s : State) (p : Nat) : Nat := clampN 1 64 (rgf s (rGRN_INSERT p) 23 16)

/-- Move budget BURST as it acts. -/
def movBurst (s : State) (p : Nat) : Nat := max 1 (rgf s (rGRN_MOVE p) 23 16)

/-- A miss inserts under R70 to R73: no token defers it; no eligible occupant fails it, with a record. -/
def insertMiss (s : State) (q p : Nat) (ep : Bool) (key : Bytes) (cls port gt : Nat) : Option Nat × State :=
  let h := shareGet s p
  if h.ins = 0 then (none, cinc (bump s (rGRN_INSERT_DEFER p)) (cPart p 11) 1)
  else
    match slotForInsert s q p ep key with
    | (some i, s) =>
      let h := shareGet s p
      let s := sharePut s p { h with ins := h.ins - 1 }
      (some i, cinc (putEntry s p ep i (newEntry s key cls port gt)) (cPart p 10) 1)
    | (none, s) =>
      let w := wayLog2 s p ep
      (none, grnRecord (bump s (rGRN_INSERT_FAIL p)) p ep 3 0 (entIndex w 0 (bucketOf s p ep key 0) 0) false false
        (storedKey key).2.2)

/-- Port learning on a hit (R78): 0 no move, 1 applied, 2 suppressed. -/
def learnPort (s : State) (p : Nat) (ep : Bool) (i port : Nat) : Nat × State :=
  match entGet s p ep i with
  | none => (0, s)
  | some e =>
    if !rgb s (grnCfg p ep) 29 || e.port == port then (0, s)
    else
      let h := shareGet s p
      let hold := max 1 (rgf s (rGRN_MOVE p) 26 24)
      if !e.static && decide (e.moves < hold) && decide (h.mov > 0) && rgf s (rGRN_MOVE p) 15 0 != 0 then
        let s := entPut s p ep i (some { e with port := port, moves := min 7 (e.moves + 1) })
        let h := shareGet s p
        (1, bump (sharePut s p { h with mov := h.mov - 1 }) (rGRN_MOVES p))
      else
        let s := bump s (rGRN_MOVE_SUPPRESS p)
        let due := match h.lastSup with | some t => decide (s.gt - t > 1000000) | none => true
        if due then
          let h := shareGet s p
          let s := sharePut s p { h with lastSup := some s.gt }
          (2, grnRecord s p ep 2 port i e.static e.pinned e.key)
        else (2, s)

/-- The outcome of a table's commit for a descriptor: entry index, was it a hit, the move code. -/
structure Learned where
  index : Option Nat
  hit : Bool
  move : Nat
deriving DecidableEq, Repr

/-- Probe and learn one table for a descriptor (R67 to R78, R80). -/
def learn (s : State) (q p : Nat) (ep : Bool) (key : Bytes) (cls port gt : Nat) (par : List ParHit) : Learned × State :=
  match lookup s q p ep key par with
  | (some i, s) =>
    let (m, s) := learnPort s p ep i port
    let s := match entGet s p ep i with
      | some e => entPut s p ep i (some { e with last := grnTime gt })
      | none => s
    ({ index := some i, hit := true, move := m }, s)
  | (none, s) =>
    let (i, s) := insertMiss s q p ep key cls port gt
    ({ index := i, hit := false, move := 0 }, s)

/-- A sequence number is at or before a mark, within a window of 2^31 (R69). -/
def committed (mark : Option Nat) (seq : Nat) : Bool :=
  match mark with | none => false | some m => decide ((m + 2 ^ 32 - seq) % 2 ^ 32 < 2 ^ 31)

/-! ### Aging (R75) -/

/-- Pass of a table: its start and, by home bank, how many of its buckets the bank has visited. -/
def passGet (s : State) (p : Nat) (ep : Bool) : Option (Nat × Tab Nat) :=
  if ep then (shareGet s p).passEp else (shareGet s p).passFlow

/-- Store the pass. -/
def passPut (s : State) (p : Nat) (ep : Bool) (v : Option (Nat × Tab Nat)) : State :=
  let h := shareGet s p
  sharePut s p (if ep then { h with passEp := v } else { h with passFlow := v })

/-- Scan running over a table. -/
def scanOn (s : State) (p : Nat) (ep : Bool) : Bool := rgb s (rGRN_SCAN p) 0 && grnOn s p ep

/-- PERIOD of a pass in ns: 0 acts as 1 ms. -/
def scanPeriod (s : State) (p : Nat) : Nat := 1000000 * max 1 (rgf s (rGRN_SCAN p) 31 16)

/-- Buckets of a table in each home bank. -/
def bankBuckets (s : State) (p : Nat) (ep : Bool) : Nat := 2 ^ wayLog2 s p ep / 256

/-- A pass has ended: every home bank has visited each of its buckets. -/
def passEnded (s : State) (p : Nat) (ep : Bool) (t : Tab Nat) : Bool :=
  (List.range 1024).all fun h => decide (tget 0 t h ≥ bankBuckets s p ep)

/-- SCAN_PASS_START: the first pass at once, a later one PERIOD after the start of the one before, or when that
one ends. -/
def scanStart (s : State) (p : Nat) (ep : Bool) : State :=
  if !scanOn s p ep then s else
  match passGet s p ep with
  | none => passPut s p ep (some (s.gt, []))
  | some (t, v) =>
    if s.gt ≥ t + scanPeriod s p ∧ passEnded s p ep v then passPut s p ep (some (s.gt, [])) else s

/-- A lower way holds the same key (R67). -/
def shadowed (s : State) (p : Nat) (ep : Bool) (way : Nat) (e : GEnt) : Bool :=
  let t := if ep then (shareGet s p).ep else (shareGet s p).flow
  let w := wayLog2 s p ep
  t.any fun x => decide (x.1 / 8 / 2 ^ w < way) && match x.2 with
    | some y => y.ksize == e.ksize && y.digest == e.digest && y.key == e.key
    | none => false

/-- One entry visited by the scan: deleted when expired or shadowed, else MOVES falls by one. -/
def ageEntry (s : State) (q p : Nat) (ep : Bool) (way i : Nat) : State :=
  match entGet s p ep i with
  | none => s
  | some e =>
    if entExpired s p ep e || shadowed s p ep way e then
      let s := if ep then s else entEof s q p i e
      cinc (bump (entRemove s p ep i e) (rGRN_AGED p)) (cPart p 13) 1
    else if e.moves > 0 then entPut s p ep i (some { e with moves := e.moves - 1 })
    else s

/-- The partition whose pipe processes for partition `p`: its own, or the adopter while it is out (R81). -/
def procPart (s : State) (p : Nat) : Nat := if (pipeGet s p).out.isSome then (p + 1) % 4 else p

/-- The visit of bucket `n` of a way is due: the bucket is the next of its home bank, and its time has come. The first bucket of a
bank is visited at the start of the pass (DEDUCED, log entry 126). -/
def visitDue (s : State) (p : Nat) (ep : Bool) (way n : Nat) (t : Nat) (v : Tab Nat) : Bool :=
  way < 4 && decide (n < 2 ^ wayLog2 s p ep) && tget 0 v (256 * way + n % 256) == n / 256 &&
  decide (s.gt ≥ t + n / 256 * scanPeriod s p / bankBuckets s p ep)

/-- AGE: the scan visits the bucket that is next in its home bank (R75). -/
def ageBucket (s : State) (p : Nat) (ep : Bool) (way n : Nat) (par : List ParHit) : State :=
  if !scanOn s p ep then s else
  match passGet s p ep with
  | none => s
  | some (t, v) =>
    if !visitDue s p ep way n t v then s else
    let b := bucketIdx (wayLog2 s p ep) way n
    let s := passPut s p ep (some (t, tset 0 v (256 * way + n % 256) (n / 256 + 1)))
    let s := parityCheck s p ep par b
    b.foldl (fun s i => if entFenced s p ep i then s else ageEntry s (procPart s p) p ep way i) s

/-! ### Clearing -/

/-- Remove entries of a table: all, or those not STATIC; no EOF; open ledger slots stand resolved (R82, R84). -/
def tableClear (s : State) (p : Nat) (ep statics : Bool) : State :=
  let t := if ep then (shareGet s p).ep else (shareGet s p).flow
  t.foldl (fun s x => match x.2 with
    | some e => if e.static && !statics then s else entRemove s p ep x.1 e
    | none => s) s

/-- Every commit mark of a share at 0: sub-ports 0 to 63 and peer links 64 to 67. -/
def marksZero : Tab (Option Nat) := (List.range 68).map fun i => (i, some 0)

/-- The share cleared after an absence of 2^39 µs or more: entries that are not STATIC go, the commit marks are zeroed, one
STALE_CLEAR record, no EOF (R77). The one record goes to the flow table's RQ with table bit 0 (DESIGN CHOICE, log entry 127). -/
def staleClear (s : State) (p : Nat) : State :=
  let s := tableClear (tableClear s p false false) p true false
  let s := sharePut s p { shareGet s p with marks := marksZero }
  grnRecord s p false 4 0 0 false false []

/-- GRN_CFG_WRITE: EN from 0 to 1 starts the table empty with both budgets full (R84). -/
def grnEnable (s : State) (p : Nat) (ep : Bool) : State :=
  let s := tableClear s p ep true
  let h := shareGet s p
  passPut (sharePut s p { h with ins := insBurst s p, mov := movBurst s p }) p ep none

/-- A write of a table's configuration: WAY_LOG2 and FS_STRIDE stay while EN is 1; EN 0 to 1 starts it empty. -/
def grnCfgWrite (s : State) (p : Nat) (ep : Bool) (v : Nat) : State :=
  let a := grnCfg p ep
  let v := v &&& (if ep then 0xE03F001F else 0xE73F001F)
  let old := rg s a
  if bit old 31 then
    rgw s a (putBits (putBits v 4 0 (bits old 4 0)) 26 24 (bits old 26 24))
  else
    let s := rgw s a v
    if bit v 31 then grnEnable s p ep else s

/-- GRN_EVICT_SEED_WRITE: the register and the LFSR (R72). -/
def evictSeedWrite (s : State) (p v : Nat) : State :=
  let s := rgw s (rGRN_EVICT_SEED p) v
  sharePut s p { shareGet s p with lfsr := lfsrSeed (BitVec.ofNat 32 v) }

/-! ### Host commands (R82) -/

/-- The key a host command names: GRN_KEY bytes of its KEY_SIZE. -/
def hostKey (s : State) (p ksize : Nat) : Bytes :=
  ((List.range 16).flatMap fun i => leBytes 4 (rg s (rGRN_KEY p i))).take (16 * (ksize % 4 + 1))

/-- GRN_ENTRY as bytes. -/
def hostEntry (s : State) (p : Nat) : Bytes := (List.range 16).flatMap fun i => leBytes 4 (rg s (rGRN_ENTRY p i))

/-- GRN_CMD_STATUS after a command. -/
def grnStatus (s : State) (p result index : Nat) : State :=
  rgw s (rGRN_CMD_STATUS p) (fld result 28 + (if result = 0 then index else 0))

/-- Where a host command finds its key: the lookup's ways in order, parity checked, no expiry. -/
def hostFind (s : State) (p : Nat) (ep : Bool) (key : Bytes) (par : List ParHit) : Option Nat × State :=
  let w := wayLog2 s p ep
  let k := storedKey key
  let s := parityCheck s p ep par ([0, 1, 2, 3].flatMap fun i => bucketIdx w i (bucketOf s p ep key i))
  (([0, 1, 2, 3].filterMap fun i => bucketFind s p ep w i (bucketOf s p ep key i) k).head?, s)

/-- The Granary operations of Table GRN-3. -/
def grnCommand (s : State) (p op : Nat) (ep : Bool) (ksize : Nat) (statics : Bool) (par : List ParHit) : State :=
  if !grnOn s p ep then grnStatus s p 3 0
  else if op = 0 ∨ op > 6 then grnStatus s p 5 0
  else
    let key := hostKey s p ksize
    let img := hostEntry s p
    let w0 := leAt img 0 8
    let now := grnTime s.gt
    let setFields := fun (e : GEnt) =>
      { e with cls := bits w0 57 50, port := bits w0 49 43, static := bit w0 62, pinned := bit w0 61, last := now }
    if op = 6 then grnStatus (tableClear s p ep statics) p 0 0
    else
      match hostFind s p ep key (if op = 3 then par else []) with
      | (some i, s) =>
        match entGet s p ep i with
        | none => grnStatus s p 1 0
        | some e =>
          match op with
          | 1 => grnStatus (entPut s p ep i (some (setFields e))) p 0 i
          | 2 => grnStatus (entRemove s p ep i e) p 0 i
          | 3 =>
            let b := entBytes ep e
            let s := (List.range 16).foldl (fun s j => rgw s (rGRN_ENTRY p j) (leAt b (4 * j) 4)) s
            grnStatus s p 0 i
          | 4 => grnStatus (entPut s p ep i (some { e with pinned := true })) p 0 i
          | _ => grnStatus (entPut s p ep i (some { e with pinned := false })) p 0 i
      | (none, s) =>
        if op = 1 then
          match slotForInsert s (procPart s p) p ep key with
          | (some i, s) => grnStatus (putEntry s p ep i (setFields (newEntry s key 0 0 s.gt))) p 0 i
          | (none, s) => grnStatus s p 2 0
        else grnStatus s p 1 0

/-! ### Registers (R84) -/

/-- Computed GRN registers. -/
def grnRegRead (s : State) (p o : Nat) : Option Nat :=
  match o with
  | 0x048 => some (shareGet s p).flow.length
  | 0x04C => some (shareGet s p).ep.length
  | 0x080 => some 0
  | _ => none

/-- Writes to GRN registers that are not plain storage; the flag: a live field was written. -/
def grnRegWrite (s : State) (p o v : Nat) : Option (State × Bool) :=
  if o = 0x000 ∨ o = 0x004 then some (grnCfgWrite s p (o == 0x004) v, true)
  else if o = 0x044 then some (evictSeedWrite s p v, true)
  else if 0x010 ≤ o ∧ o < 0x020 ∧ grnOn s p false then some (s, false)
  else if 0x020 ≤ o ∧ o < 0x030 ∧ grnOn s p true then some (s, false)
  else if (o = 0x030 ∨ o = 0x034) ∧ grnOn s p true then some (s, false)
  else if o = 0x038 then
    let s := rgw s (rGRN_MOVE p) (v &&& 0x07FFFFFF)
    let h := shareGet s p
    some (sharePut s p { h with mov := min h.mov (movBurst s p) }, true)
  else if o = 0x03C then
    let s := rgw s (rGRN_INSERT p) (v &&& 0x00FF00FF)
    let h := shareGet s p
    some (sharePut s p { h with ins := min h.ins (insBurst s p) }, true)
  else if o = 0x080 then
    some (grnCommand s p (bits v 31 28) (bit v 27) (bits v 26 25) (bit v 24) [], false)
  else none

/-! ### The commands -/

/-- PROBE (R67, R76): the outcome goes to the pipe. -/
def execProbe (p : Nat) (ep : Bool) (key : Bytes) (par : List ParHit) (s : State) : Host.Outcome State Fault Refusal :=
  if grnOn s p ep then .next (lookup s (procPart s p) p ep key par).2 else .next s

/-- AGE (R75). -/
def execAge (p : Nat) (ep : Bool) (way bucket : Nat) (par : List ParHit) (s : State) : Host.Outcome State Fault Refusal :=
  .next (ageBucket s p ep way bucket par)

/-- SCAN_PASS_START (R75). -/
def execScanPassStart (p : Nat) (ep : Bool) (s : State) : Host.Outcome State Fault Refusal := .next (scanStart s p ep)

/-- INSERT_TOKEN_ACCRUE (R71). -/
def execInsertTokenAccrue (p : Nat) (s : State) : Host.Outcome State Fault Refusal :=
  let h := shareGet s p
  .next (sharePut s p { h with ins := min (insBurst s p) (h.ins + 1) })

/-- MOVE_TOKEN_ACCRUE (R78): RATE 0 accrues none. -/
def execMoveTokenAccrue (p : Nat) (s : State) : Host.Outcome State Fault Refusal :=
  let h := shareGet s p
  if rgf s (rGRN_MOVE p) 15 0 = 0 then .next s
  else .next (sharePut s p { h with mov := min (movBurst s p) (h.mov + 1) })

/-- INSERT (R82). -/
def execGrnInsert (p : Nat) (ep : Bool) (ksize : Nat) (s : State) : Host.Outcome State Fault Refusal :=
  .next (grnCommand s p 1 ep ksize false [])

/-- DELETE (R82). -/
def execGrnDelete (p : Nat) (ep : Bool) (ksize : Nat) (s : State) : Host.Outcome State Fault Refusal :=
  .next (grnCommand s p 2 ep ksize false [])

/-- READ (R82, R79). -/
def execGrnRead (p : Nat) (ep : Bool) (ksize : Nat) (par : List ParHit) (s : State) : Host.Outcome State Fault Refusal :=
  .next (grnCommand s p 3 ep ksize false par)

/-- PIN (R82). -/
def execGrnPin (p : Nat) (ep : Bool) (ksize : Nat) (s : State) : Host.Outcome State Fault Refusal :=
  .next (grnCommand s p 4 ep ksize false [])

/-- UNPIN (R82). -/
def execGrnUnpin (p : Nat) (ep : Bool) (ksize : Nat) (s : State) : Host.Outcome State Fault Refusal :=
  .next (grnCommand s p 5 ep ksize false [])

/-- FLUSH (R82). -/
def execGrnFlush (p : Nat) (ep statics : Bool) (s : State) : Host.Outcome State Fault Refusal :=
  .next (grnCommand s p 6 ep 0 statics [])

/-- GRN_CFG_WRITE (R84): EVICT and LEARN_PORT are live fields. -/
def execGrnCfgWrite (p : Nat) (ep : Bool) (v : Nat) (s : State) : Host.Outcome State Fault Refusal :=
  .next (epochAdvance (grnCfgWrite s p ep v) 3)

/-- GRN_EVICT_SEED_WRITE (R72, R84). -/
def execGrnEvictSeedWrite (p v : Nat) (s : State) : Host.Outcome State Fault Refusal :=
  .next (epochAdvance (evictSeedWrite s p v) 3)

end Sys2Proof.Machine
end

