-- ==== Sys2Proof/Machine/Intake.lean ====
section
/-! DEFINITION. Packet intake: the MACs, the hand-off of frames to the pipes, the pipes, lane failures (R6, R32 to
R42, R69, R80, R81, R220, R234, R277, R279). -/

namespace Sys2Proof.Machine

/-! ### The MAC (R36, R37, R39) -/

/-- The frame's FCS is good. -/
def fcsGood (b : Bytes) : Bool := b.drop (b.length - 4) == fcs (b.take (b.length - 4))

/-- The counter of the first check of R36 that a frame fails: 0 RS-FEC, 1 size, 2 FCS. -/
def macCheck (s : State) (n : Nat) (b : Bytes) (fecBad : Bool) : Option Nat :=
  if fecBad then some 0
  else if b.length < 64 ∨ b.length > maxFrame s n then some 1
  else if !fcsGood b then some 2
  else none

/-- Count a frame that failed a check (R36). -/
def macBad (s : State) (n k : Nat) : State :=
  match k with
  | 0 => cinc (bump s (rFP_RX_FEC_UNCORR n)) (cPort n 6) 1
  | 1 => bump s (rFP_RX_SIZE_ERR n)
  | _ => cinc (bump s (rFP_RX_FCS_ERR n)) (cPort n 4) 1

/-- Count a good frame. -/
def macGood (s : State) (n len : Nat) : State :=
  cinc (cinc (bump s (rFP_RX_FRAMES n)) (cPort n 0) 1) (cPort n 1) len

/-- An IEEE 802.1Qbb PFC frame, recognised by EtherType and opcode in its first 16 bytes, whatever its destination address (R37; that
the address is not looked at is the model's choice: DESIGN CHOICE, log entry 130). -/
def isPfc (b : Bytes) : Bool := beAt b 12 2 == 0x8808 && beAt b 14 2 == 0x0101

/-- A received PFC frame: counted by priority, pauses of honoured priorities, relay (R37, R234, R235). -/
def pfcReceive (s : State) (n m : Nat) (b : Bytes) (fecBad : Bool) : State :=
  match macCheck s n b fecBad with
  | some k => macBad s n k
  | none =>
    let en := beAt b 16 2
    let s := [0, 1, 2, 3, 4, 5, 6, 7].foldl (fun s i =>
      if bit en i then
        let s := cinc (bump s (rFP_PFC_RX n i)) (cPort n 7) 1
        if bit (rgf s (rFP_CFG n) 23 16) i then pauseSet s n m i (beAt b (18 + 2 * i) 2) else s
      else s) s
    pfcRelay s n m b

/-- The session that a sub-port's MAC diverts a frame to (R267). -/
def sessionOf (s : State) (n m : Nat) (b : Bytes) : Option Nat :=
  (s.sessions.find? fun e => match e.2 with
    | some v => v.port == n * 4 + m && v.etype == beAt b 12 2
    | none => false).map fun e => e.1

/-- Restart bypass from the depth of the queue (R32): from above 48 Ki until below 16 Ki. -/
def pipeMark (v : Pipe) : Pipe :=
  { v with bypass := if v.bypass then decide (v.dq.length ≥ 16384) else decide (v.dq.length > 49152) }

/-- A bypassed frame proceeds under its ingress port's BYPASS_CLASS, a head from a peer is released (R32; log entry 24); one whose end
status is awaited waits for it (R40). `q`: the pipe. -/
def bypassFrame (s : State) (q h : Nat) (f : Frame) : State :=
  if f.fromPeer then frameUnref (cinc (bump s (rPIPE_BYPASS_FRAMES q)) (cPart q 2) 1) h
  else if f.endPending then framePut s h { f with stage := .bypassed }
  else
    let s := cinc (bump s (rPIPE_BYPASS_FRAMES q)) (cPart q 2) 1
    proceedDefault s h (rgf s (rFP_CLASS f.port) 25 16)

/-- Hand a descriptor to the pipe that serves its partition: queued, or bypassed (R32, R39). -/
def pipeArrive (s : State) (h : Nat) (f : Frame) : State :=
  let q := procPart s f.part
  let v := pipeMark (pipeGet s q)
  let s := pipePut s q v
  if v.bypass || rgb s (rPIPE_CTRL q) 0 then bypassFrame s q h f
  else pipePut s q (pipeMark { v with dq := v.dq ++ [h] })

/-- The intake descriptor of a frame (Table FP-2); `steered`: a pipe other than its partition's own takes it. -/
def descBytes (f : Frame) (steered : Bool) : Bytes :=
  leBytes 8 f.gt ++ leBytes 4 (f.cells.headD 0 * 256 + f.cells.length) ++
  leBytes 4 (f.port % 16 * 2 ^ 28 + f.sub % 4 * 2 ^ 26 + b2n f.endPending * 2 ^ 25 + b2n f.ptp * 2 ^ 24 + f.length % 2 ^ 14) ++
  leBytes 4 (min f.bytes.length 512 * 2 ^ 16 + (match f.headSlot with | some n => n % 4096 | none => 0xFFFF)) ++
  leBytes 4 (f.srcDev * 2 ^ 26 + b2n f.fromPeer * 2 ^ 25 + b2n steered * 2 ^ 24 + f.part * 2 ^ 22) ++ leBytes 4 f.seq ++ leBytes 4 0

/-- Write the bytes of a frame into its cells, and their link-table entries; the rest of the last cell and the link-table entries, whose
layout the spec does not give, are zeros (DESIGN CHOICE, log entry 136). -/
def cellsWrite (p : Nat) : List Nat → Bytes → State → State
  | [], _, s => s
  | c :: r, b, s => cellsWrite p r (b.drop 256) (generalW (generalW s p (256 * c) (slice b 0 256)) p (linkAt s c) (List.replicate 32 0))

/-- Write an admitted frame into cells, its head into a slot of the head buffer of the pipe that will take it, when one is free, and
its descriptor into the ring of its partition (R39, R317). -/
def frameStore (s : State) (p : Nat) (f : Frame) : Nat × Frame × State :=
  let (cs, s) := cellsTake s p f.cells.length
  let s := cellsWrite p cs f.bytes s
  let v := pipeGet s p
  let s := pipePut s p { v with ringNext := (v.ringNext + 1) % 131072 }
  let q := procPart s p
  let w := pipeGet s q
  let slot := headFree w
  let s := match slot with | some n => pipePut s q { w with headUsed := tset false w.headUsed n true } | none => s
  let f := { f with cells := cs, headSlot := slot.map (q * 4096 + ·), ring := v.ringNext }
  let h := frameKey p (cs.headD 0)
  (h, f, framePut (generalW s p (ringAt s f.ring) (descBytes f (q != p))) h f)

/-- A frame that is not PFC and not diverted arrives at a sub-port (R36, R38, R39, R220). One that finds free cells at GUARD or fewer
counts in TM_DROP_INGRESS alone, whatever check of R36 it would fail (DESIGN CHOICE, log entry 131). -/
def frameArrive (s : State) (n m : Nat) (b : Bytes) (fecBad ptp : Bool) : State :=
  let p := portPart n
  if poolFree s p ≤ guardCells s p then cinc (bump s (rTM_DROP_INGRESS p)) (cPart p 16) 1
  else
    let long := decide (b.length > 512)
    match if long then none else macCheck s n b fecBad with
    | some k => macBad s n k
    | none =>
      let v := subGet s n m
      let s := subPut s n m { v with seq := (v.seq + 1) % 2 ^ 32 }
      let s := if long then s else macGood s n b.length
      let (h, f, s) := frameStore s p
        { part := p, cells := List.replicate (min 38 (cdiv b.length 256)) 0, refs := 1, bytes := b, gt := s.gt, port := n,
          sub := m, endPending := long, ptp := ptp, fecBad := fecBad, seq := v.seq, fromPeer := false, srcDev := 0,
          length := b.length, headSlot := none, ring := 0, stage := .queued, hold := none, entry := none, ipver := 0, ipoff := 0,
          color := 0, msgHdr := [], replayed := false, tables := none }
      pipeArrive s h f

/-- What a MAC does with a received frame: none of it while the sub-port does not carry traffic; a frame of a
load-channel session belongs to CHUNK_FRAME. -/
def macReceive (s : State) (n m : Nat) (b : Bytes) (fecBad ptp : Bool) : State :=
  if !(decide (n < 16) && decide (m < subCount s n) && linkUp s n m) || s.pwr.tripped then s
  else
  let s := arrivalNote s (portPart n)
  if isPfc b then pfcReceive s n m b fecBad
  else if (sessionOf s n m b).isSome then s
  else frameArrive s n m b fecBad ptp

/-! ### The pipe (R41, R42, R69, R80) -/

/-- A parsed descriptor: the walk, key, direction, class. -/
structure Parsed where
  walk : Walk
  key : Bytes
  dir : Bool
  cls : Nat
deriving DecidableEq, Repr

/-- Parse a frame: walk, key, class (R44 to R51). -/
def parse (s : State) (f : Frame) : Parsed :=
  let sp := f.port * 4 + f.sub
  let w := walk s f.bytes f.length sp
  let (k, d) := formKey s w w.prof true
  { walk := w, key := k, dir := d, cls := classOf s w sp }

/-- Counters of a parse (R41, R48). -/
def parseCount (s : State) (q : Nat) (w : Walk) : State :=
  let s := if w.status = 0 then s else bump s (rPIPE_PARSE_ERR q)
  bumpN s (rPIPE_RECIRC q) (cdiv (w.visits - 24) 24)

/-- The endpoint profile of a key profile; none: 15 (R80). -/
def epProfile (s : State) (p prof : Nat) : Option Nat :=
  let v := bits (rg s (rGRN_EP_MAP p (prof / 8))) (4 * (prof % 8) + 3) (4 * (prof % 8))
  if v = 15 then none else some v

/-- Ingress port as the Granary keeps it: sub-port, or 64 + partition for a head from a peer (R279). -/
def ingressPort (f : Frame) : Nat := if f.fromPeer then 64 + f.part else f.port * 4 + f.sub

/-- The key that a descriptor looks up in the endpoint table (R80): none where GRN_EP_MAP names no profile or the table is off. -/
def epKey (s : State) (f : Frame) (x : Parsed) : Option Bytes :=
  match epProfile s f.part x.walk.prof with
  | none => none
  | some k => if grnOn s f.part true then some (formKey s x.walk k false).1 else none

/-- Endpoint probe and learning, its result in slot 62 (R80). While the endpoint table is off slot 62 stays as the walk left it, and
PORT and MOVES read 0 for a key that ends with no entry (DESIGN CHOICE, log entry 132). -/
def epCommit (s : State) (q : Nat) (f : Frame) (x : Parsed) (par : List ParHit) : Walk × State :=
  match epKey s f x with
  | none => (x.walk, s)
  | some key =>
    let (r, s) := learn s q f.part true key x.cls (ingressPort f) f.gt par
    let e := match r.index with | some i => entGet s f.part true i | none => none
    let b := leBytes 1 (b2n r.hit) ++ leBytes 1 (match e with | some e => e.port | none => 0) ++ leBytes 1 r.move ++
      leBytes 1 (match e with | some e => e.moves | none => 0) ++ leBytes 12 0
    ({ x.walk with slots := tset [] x.walk.slots 62 b }, s)

/-- Answer a request of a peer that was never journalled as refused: RESULT and MODEL_GEN are zero, PLY and CTX those of its context
`c` where the binding names one, else zero (R280). -/
def peerRefuse (s : State) (peer : Nat × Nat × Nat × Nat) (c : Option Nat) : State :=
  match c with
  | some c => sendRsp s peer (leBytes 16 0) 0 (ctxGet s c).ply 1 c
  | none => sendRsp s peer (leBytes 16 0) 0 0 1 0

/-- Journal a request of a peer and send it to the binding of the partition that processes it (R278, R279). -/
def sendPeer (s : State) (q p cls entry : Nat) (uid : Option Nat) (trig : Nat) (tok : Bool) (load : Bytes) (gt : Nat)
    (peer : Nat × Nat × Nat × Nat) : State :=
  match binding s q cls with
  | none => peerRefuse (bump s (rTIL_UNBOUND q)) peer none
  | some c =>
    match jFree s p with
    | none => peerRefuse (bump s rFLT_JRNL_FULL) peer (some c)
    | some i =>
      let hdr := reqHeader gt entry c p peer.2.2.2 true trig tok load.length cls i
      let s := jNew s p i { admitted := false, order := 0, hdr := hdr, payload := load, frame := none, uid := uid, ctx := c,
                            sampled := false, peer := some peer }
      enqueueReq (cinc s (cPart q 4) 1) p i c

/-- The origin that the message header of a HEAD names: (OPART, FENT, FPLY, SRC). -/
def headPeer (f : Frame) : Nat × Nat × Nat × Nat :=
  let w := leAt f.msgHdr 0 4
  (bits w 15 14, bits w 13 0, leAt f.msgHdr 4 2 % 4096, f.srcDev)

/-- A frame whose flow has no entry proceeds under its class's default, or a head from a peer is answered and
released (R52, R207, R279). -/
def noEntry (s : State) (q h : Nat) (f : Frame) (cls : Nat) : State :=
  if f.fromPeer then
    let s := if bit (byteAt f.msgHdr 7) 7 then s else peerRefuse s (headPeer f) (binding s q cls)
    frameUnref s h
  else proceedDefault s h (flowDefault s q cls).1

/-- Advance the commit mark of a sub-port or peer link (R69). -/
def markSet (s : State) (p port seq : Nat) : State :=
  let v := shareGet s p
  sharePut s p { v with marks := tset none v.marks port (some seq) }

/-- The commit of a replayed descriptor was issued before (R69, R322): it is skipped, its request is in the journal, and the frame
proceeds. -/
def committedFrame (s : State) (q h : Nat) (f : Frame) (x : Parsed) : State :=
  if !grnOn s f.part false || f.fromPeer then (if f.fromPeer then frameUnref s h else noEntry s q h f x.cls) else
  match probeWays s f.part false x.key [] with
  | (none, s) => noEntry s q h f x.cls
  | (some i, s) =>
    let uid := match entGet s f.part false i with | some e => e.uid | none => 0
    let (dcls, ctx) := flowDefault s q x.cls
    proceedFlow (framePut s h { f with entry := some (i, uid) }) h i uid dcls ctx false

/-- The commit of a descriptor and what follows it: learning, feature state, triggers, request, or the frame
proceeds (R52, R55, R69, R277, R279). The endpoint table learns before the flow table (DESIGN CHOICE, log entry 133). A flow has its
first packet in the commit that inserts its entry, so a flow whose entry a host INSERT made has none (DESIGN CHOICE, log entry 134),
and on a hit the frame's own class picks the feature profile (DESIGN CHOICE, log entry 129). A feature-state unit that cannot be read
invalidates the entry, with no EOF, and the frame proceeds as one of a flow that could not be inserted (Table FLT-5; log entry 135). -/
def commitFrame (s : State) (q h : Nat) (f : Frame) (x : Parsed) (par : List ParHit) : State :=
  let p := f.part
  let s := cinc (parseCount s q x.walk) (cPart q 1) 1
  let (iv, io) := ipHeader s p x.walk f.bytes
  let f := { f with endPending := false, stage := .done, ipver := iv, ipoff := io, color := byteAt (slotOf x.walk 61) 0 }
  let s := framePut s h f
  if f.replayed && committed (tget none (shareGet s p).marks (ingressPort f)) f.seq then committedFrame s q h f x else
  let (w, s) := epCommit s q f x par
  let s := markSet s p (ingressPort f) f.seq
  if !grnOn s p false then noEntry s q h f x.cls else
  let (r, s) := learn s q p false x.key x.cls (ingressPort f) f.gt par
  match r.index with
  | none => noEntry s q h f x.cls
  | some i =>
    match (if r.hit then generalBad s p (fsAt s p i) (stateSize (profileOf s x.cls).2) else none) with
    | some a =>
      let s := match entGet s p false i with | some e => entRemove s p false i e | none => s
      noEntry (tierMiss s a) q h f x.cls
    | none =>
    let uid := match entGet s p false i with | some e => e.uid | none => 0
    let s := framePut s h { f with entry := some (i, uid) }
    let (n, pr) := profileOf s x.cls
    let k : Pkt := { slots := w, gt := f.gt, len := f.length, dir := x.dir, subport := f.port * 4 + f.sub, first := !r.hit }
    let old := fsGet s p i (stateSize pr)
    let (st, trig, skip) := featureStep pr k w.endFlow old
    let s := bumpN (fsPut s p i st) (rPIPE_TICK_SKIP q) skip
    let tok := bit (byteAt pr 1) 0
    if f.fromPeer then
      let t := byteAt f.msgHdr 7
      let s := if bit t 7 then s
        else sendPeer s q p x.cls i (some uid) (t % 32) tok (payload s pr n (some k) f.gt i (t % 32) old st) f.gt (headPeer f)
      frameUnref s h
    else if trig = 0 then
      let (dcls, ctx) := flowDefault s q x.cls
      let s := match forwardTo s x.cls x.key with
        | some (d, part) =>
          if fwdMode s x.cls = 2 && (binding s q x.cls).isSome then sendHead s q p h x.cls d part ctx 0 none else s
        | none => s
      proceedFlow s h i uid dcls ctx false
    else
      fire s { q := q, p := p, cls := x.cls, entry := i, uid := some uid, trig := trig, tok := tok,
               load := payload s pr n (some k) f.gt i trig old st, gt := f.gt, frame := some h, key := x.key }

/-- The state with the tables that a descriptor is processed under (R43). -/
def underTables (s : State) (f : Frame) : State := match f.tables with | some w => { s with weave := w } | none => s

/-- A descriptor of the same flow key or the same ingress sub-port that was taken earlier still waits for its end status, so this one
may not commit before it (R42). -/
def keyWaits (s : State) (h : Nat) (f : Frame) (x : Parsed) : Bool :=
  s.frames.any fun e => match e.2 with
    | some g => g.part == f.part && g.stage == .parsed && e.1 != h &&
        (ingressPort g == ingressPort f || (parse (underTables s g) g).key == x.key)
    | none => false

/-- Descriptors to be replayed come up as the queue of 64 Ki entries has room (R41, R322). -/
def pipeFill (v : Pipe) : Pipe :=
  let k := 65536 - v.dq.length
  pipeMark { v with dq := v.dq ++ v.replay.take k, replay := v.replay.drop k }

/-- The early probes of both tables, in parallel, for a descriptor whose end status is awaited: what they read is checked, and
nothing is learned (R40, R80). -/
def earlyProbe (s : State) (f : Frame) (x : Parsed) (par : List ParHit) : State :=
  let s := match epKey s f x with | some k => (probeWays s f.part true k par).2 | none => s
  if grnOn s f.part false then (probeWays s f.part false x.key par).2 else s

/-- The pipe reads the head of a frame that has no head-buffer slot from its cells (R39): the uncorrectable codeword it meets. -/
def headFetch (s : State) (q : Nat) (f : Frame) : Option Nat × State :=
  match f.headSlot with
  | some _ => (none, s)
  | none => (cellsBad s f.part (f.cells.take 2), bump s (rPIPE_HEAD_FETCH q))

/-- PIPE_DESCRIPTOR: the pipe takes the descriptor at the head of its queue. With END_PENDING it parses and
probes and keeps everything else for the end status (R40, R41). A head that cannot be read bypasses its frame (Table FLT-5). -/
def pipeTake (s : State) (q : Nat) (par : List ParHit) : State :=
  let v := pipeGet s q
  match (if s.pwr.tripped then [] else v.dq) with
  | [] => s
  | h :: rest =>
    match frameGet s h with
    | none => pipePut s q (pipeFill { v with dq := rest })
    | some f =>
      let x := parse s f
      if keyWaits s h f x then s else
      match headFetch (pipePut s q (pipeFill { v with dq := rest })) q f with
      | (some a, s) => bypassFrame (tierMiss s a) q h f
      | (none, s) =>
        if f.endPending then earlyProbe (framePut s h { f with stage := .parsed, tables := some s.weave }) f x par
        else commitFrame s q h f x par

/-- END_STATUS: the end status of an END_PENDING frame arrives (R40). -/
def endStatus (s : State) (h : Nat) : State :=
  match frameGet s h with
  | none => s
  | some f =>
    if !f.endPending then s else
    match macCheck s f.port f.bytes f.fecBad with
    | some k =>
      let q := procPart s f.part
      let v := pipeGet s q
      let s := pipePut s q (pipeFill { v with dq := v.dq.filter (· != h), replay := v.replay.filter (· != h) })
      macBad (frameUnref s h) f.port k
    | none =>
      let s := macGood s f.port f.length
      let f := { f with endPending := false }
      match f.stage with
      | .bypassed =>
        let q := procPart s f.part
        let s := framePut (cinc (bump s (rPIPE_BYPASS_FRAMES q)) (cPart q 2) 1) h f
        proceedDefault s h (rgf s (rFP_CLASS f.port) 25 16)
      | .parsed =>
        let t := underTables s f
        { commitFrame t (procPart s f.part) h f (parse t f) [] with weave := s.weave }
      | _ => framePut s h f

/-- The descriptor of a commit that went apart from its pipe's other work is not committed again (R69). -/
def commitApart (s : State) (p port seq : Nat) : State :=
  match s.frames.find? fun e => match e.2 with
      | some f => f.part == p && ingressPort f == port && f.seq == seq && (f.stage == .queued || f.stage == .parsed)
      | none => false with
  | some (h, some f) => framePut s h { f with replayed := true }
  | _ => s

/-- COMMIT: the bank-side commit of one descriptor apart from its pipe's other work: the entry updates and learning of both tables
and the feature state, wholly, and the commit mark; skipped at or before the mark (R69). `ep`: the endpoint key, where the
descriptor has one. -/
def bankCommit (s : State) (p : Nat) (key : Bytes) (ep : Option Bytes) (cls port gt seq : Nat) (st : Bytes) (par : List ParHit) :
    State :=
  if committed (tget none (shareGet s p).marks port) seq then s else
  let q := procPart s p
  let s := match ep with
    | some k => if grnOn s p true then (learn s q p true k cls port gt par).2 else s
    | none => s
  let s := if grnOn s p false then
      let (r, s) := learn s q p false key cls port gt par
      match r.index with | some i => fsPut s p i (st.take (fsStride s p)) | none => s
    else s
  commitApart (markSet s p port seq) p port seq

/-! ### Links (R35, R448) -/

/-- Take a sub-port down: its queued frames are discarded (Table TM-7). -/
def subDown (s : State) (n m : Nat) : State :=
  let s := rgwb (rgwb s (rFP_STATUS n) (28 + m) false) (rFP_STATUS n) (24 + m) false
  cinc (subFlush (subPut s n m { subGet s n m with lanes := 0 }) n m) (cPort n 8) 1

/-- LANE_FAIL: the sub-port restarts on half its lanes, DEGRADED; a 1-lane sub-port goes down (R35). The fault is
of class LINK: unmasked (Table FLT-4). -/
def laneFail (s : State) (n m : Nat) : State :=
  if !(decide (n < 16) && decide (m < subCount s n) && rgb s (rFP_STATUS n) (28 + m)) then s else
  let v := subGet s n m
  let s := if v.lanes ≤ 1 then subDown s n m
    else rgwb (subPut s n m { v with lanes := v.lanes / 2 }) (rFP_STATUS n) (24 + m) true
  faultInstant s 13 (unitCode 6 n) (portPart n) 0 12 0 false false

/-- A sub-port's link comes up with the lanes of its mode (R33); never without its SerDes reference (R441). -/
def fpLinkUp (s : State) (n m : Nat) : State :=
  if !(decide (n < 16) && decide (m < subCount s n) && rgb s (rFP_CFG n) 31 && !pairMismatch s n && !bit s.boot.noRef (n / 4)) then s else
  let s := subPut s n m { subGet s n m with lanes := lanesFull s n }
  rgwb (rgwb s (rFP_STATUS n) (28 + m) true) (rFP_STATUS n) (24 + m) false

/-! ### The commands -/

/-- FRAME_RECEIVE (R36). -/
def execFrameReceive (port sub : Nat) (bytes : Bytes) (fecBad ptp : Bool) (s : State) : Host.Outcome State Fault Refusal :=
  .next (macReceive s port sub bytes fecBad ptp)

/-- PFC_FRAME_RECEIVE (R234): a frame that is not PFC is no event of this command. -/
def execPfcFrameReceive (port sub : Nat) (bytes : Bytes) (fecBad : Bool) (s : State) : Host.Outcome State Fault Refusal :=
  .next (if isPfc bytes then macReceive s port sub bytes fecBad false else s)

/-- END_STATUS (R40). -/
def execEndStatus (p cell : Nat) (s : State) : Host.Outcome State Fault Refusal := .next (endStatus s (frameKey p cell))

/-- PIPE_DESCRIPTOR (R41). -/
def execPipeDescriptor (p : Nat) (par : List ParHit) (s : State) : Host.Outcome State Fault Refusal := .next (pipeTake s p par)

/-- COMMIT (R69). -/
def execCommit (p : Nat) (key : Bytes) (ep : Option Bytes) (cls port gt seq : Nat) (fstate : Bytes) (par : List ParHit) (s : State) :
    Host.Outcome State Fault Refusal := .next (bankCommit s p key ep cls port gt seq fstate par)

/-- LANE_FAIL (R35). -/
def execLaneFail (port sub : Nat) (s : State) : Host.Outcome State Fault Refusal := .next (laneFail s port sub)

/-- FP_LINK_UP (R33). -/
def execFpLinkUp (port sub : Nat) (s : State) : Host.Outcome State Fault Refusal := .next (fpLinkUp s port sub)

end Sys2Proof.Machine
end

