-- ==== Sys2Proof/Machine/Contexts.lean ====
section
/-! DEFINITION. Contexts and their memory: operand spaces, context faults, teardown, restart, quiesce, slot commit
(R85, R86, R89, R94, R96, R100 to R104, R258, R261 to R265, R318, R330). -/

namespace Sys2Proof.Machine

/-! ### Model slots and MODEL records -/

/-- An EMPTY slot. -/
def mslot0 : ModelSlot :=
  { state := 0, img := slotImg0, copyAt := 0, copyLen := 0, digest := [], flags := 0, rq := 0, tag := 0, actions := [],
    kept := [], allocs := [], bufs := [], admitted := 0, armedAt := 0, forced := false }

/-- Slot `k` of context `c`. -/
def mslotGet (s : State) (c k : Nat) : ModelSlot := tget mslot0 s.slots (2 * c + k)

/-- Store a slot. -/
def mslotPut (s : State) (c k : Nat) (v : ModelSlot) : State := { s with slots := tset mslot0 s.slots (2 * c + k) v }

/-- A MODEL record (Table MDL-7): FAILED and FORCED at priority 5, others at 3. -/
def modelRecord (s : State) (rq event status tag c slot gen detail : Nat) (digest : Bytes) : State :=
  stage s 12 (rq % 64) (if event = 5 ∨ event = 6 then 5 else 3) 8
    (leBytes 1 event ++ leBytes 1 status ++ leBytes 2 tag ++ leBytes 2 c ++ leBytes 1 slot ++ leBytes 1 0 ++
     leBytes 2 gen ++ leBytes 2 0 ++ leBytes 4 detail ++ leBytes 8 s.gt ++ slice digest 0 64)

/-- Close a session: CHAN_CLOSED with the frames rejected; the secret goes with it (R267). -/
def sessionClose (s : State) (i rq tag : Nat) : State :=
  match tget none s.sessions i with
  | none => s
  | some v => modelRecord { s with sessions := tset none s.sessions i none } rq 9 0 tag 0 0 0 v.rejected []

/-- The command that waits for a session's chunks ends with a status; its LOADING slot is EMPTY again (R260, R267). -/
def waitFail (s : State) (i status detail : Nat) : State :=
  match tget none s.sessions i with
  | none => s
  | some v =>
    match v.waiting with
    | none => s
    | some b =>
      let c := leAt b 4 2
      let k := if byteAt b 0 = 1 ∧ (mslotGet s c 1).state = 1 then 1 else 0
      let s := { s with sessions := tset none s.sessions i (some { v with waiting := none }) }
      let s := if byteAt b 0 = 1 ∧ (mslotGet s c k).state = 1 then mslotPut s c k mslot0 else s
      mboxDone (modelRecord s (byteAt b 3) 5 status (leAt b 6 2) c k 0 detail []) (byteAt b 0) status (leAt b 6 2)

/-- The command that waits for a session ends with a status, and the session closes. -/
def sessionFail (s : State) (i status detail : Nat) : State :=
  match tget none s.sessions i with
  | none => s
  | some v =>
    match v.waiting with
    | none => s
    | some b => sessionClose (waitFail s i status detail) i (byteAt b 3 % 64) 0

/-! ### Spaces (R94, R105, R259) -/

/-- SRAM address of a logical tile as a device address: a braid's second 20 MiB lie in the odd member (R105). -/
def sramA (s : State) (l a : Nat) : Nat :=
  if braided s l && decide (a ≥ 20971520) then sramBase (tileSite s (l + 1)) + (a - 20971520)
  else sramBase (tileSite s l) + a

/-- Device address of operand address `a` of a space: SRAM byte address, or byte offset in the tier or LPDDR5X
window; a kept section lies where its storage is (R259). -/
def physA (s : State) (l : Nat) (v : SlotImg) (sp a : Nat) : Nat :=
  let o := if sp = 0 then a - v.regionBase else a
  let hit := v.maps.find? fun e => e.1 == sp && decide (e.2.1 ≤ o ∧ o < e.2.1 + e.2.2.1)
  match hit with
  | some (_, b, _, q) =>
    if sp = 0 then sramA s l (q + (o - b)) else if sp = 1 then tierBase + q + (o - b) else lpBase + q + (o - b)
  | none => if sp = 0 then sramA s l a else if sp = 1 then tierBase + v.tierBase + o else lpBase + v.lpBase + o

/-- The window of a space holds `n` bytes at `a`. -/
def inWin (v : SlotImg) (sp a n : Nat) : Bool :=
  match sp with
  | 0 => decide (v.regionBase ≤ a ∧ a + n ≤ v.regionBase + v.regionSize)
  | 1 => decide (a + n ≤ v.tierSize)
  | 2 => decide (a + n ≤ v.lpSize)
  | _ => false

/-- Neighbouring pieces that follow one another are one. -/
def joinPieces : List (Nat × Nat) → List (Nat × Nat)
  | [] => []
  | e :: r => match joinPieces r with
    | f :: t => if e.1 + e.2 = f.1 then (e.1, e.2 + f.2) :: t else e :: f :: t
    | [] => [e]

/-- One access of a space as contiguous pieces of device memory: (device address, bytes). -/
def pieces (s : State) (l : Nat) (v : SlotImg) (sp a n : Nat) : List (Nat × Nat) :=
  if v.maps.isEmpty && !(sp == 0 && decide (a < 20971520 ∧ a + n > 20971520)) then [(physA s l v sp a, n)]
  else joinPieces ((List.range n).map fun i => (physA s l v sp (a + i), 1))

/-- Read a space. -/
def spR (s : State) (l : Nat) (v : SlotImg) (sp a n : Nat) : Bytes :=
  (pieces s l v sp a n).flatMap fun e => memR s e.1 e.2

/-- A read of a space is counted where it meets LPDDR5X (Table OBS-2). -/
def spCount (s : State) (l : Nat) (v : SlotImg) (sp a n : Nat) : State :=
  (pieces s l v sp a n).foldl (fun s e => lpCount s 0 e.1 e.2) s

/-- Write a space. -/
def spW (s : State) (l : Nat) (v : SlotImg) (sp a : Nat) (b : Bytes) : State :=
  ((pieces s l v sp a b.length).foldl (fun (x : State × Bytes) e => (memW x.1 e.1 (x.2.take e.2), x.2.drop e.2)) (s, b)).1

/-- The first uncorrectable codeword, or byte of a fenced bank, that a read meets. -/
def spBad (s : State) (l : Nat) (v : SlotImg) (sp a n : Nat) : Option Nat :=
  if s.bad.isEmpty ∧ sp ≠ 1 then none else (pieces s l v sp a n).findSome? fun e => devBad s e.1 e.2

/-- The codeword or the fenced bank that makes a write fail (R197, R455). -/
def spWBad (s : State) (l : Nat) (v : SlotImg) (sp a n : Nat) : Option Nat :=
  if s.bad.isEmpty ∧ sp ≠ 1 then none else (pieces s l v sp a n).findSome? fun e => devWBad s e.1 e.2

/-! ### Knots (R96) -/

/-- Key of a knot of context `c`'s image. -/
def knotKey (l : Nat) (v : SlotImg) (o : Nat) : Nat := l * 8192 + (v.knotBase + o) % 8192

/-- Value of a knot. -/
def knotGet (s : State) (l : Nat) (v : SlotImg) (o : Nat) : Nat := tget 0 s.knots (knotKey l v o)

/-- Store a knot. -/
def knotPut (s : State) (l : Nat) (v : SlotImg) (o x : Nat) : State := { s with knots := tset 0 s.knots (knotKey l v o) x }

/-- The knots take the image's initial values. -/
def knotsInit (s : State) (l : Nat) (v : SlotImg) : State :=
  (List.range v.knotCount).foldl (fun s i => knotPut s l v i (v.knots.getD i 0)) s

/-! ### Context faults and teardown (R100, R101) -/

/-- A fault that a check, issue, execution or completion raises: Table TIL-7 code, device address or the bytes of
DETAIL. -/
structure CtxFlt where
  code : Nat
  detail : Bytes
deriving DecidableEq, Repr

/-- A fault with a device address in DETAIL. -/
def fltAt (code addr : Nat) : CtxFlt := ⟨code, leBytes 8 addr⟩

/-- Is a context's transfer still outstanding: scoreboard entries of it. -/
def sbHeld (s : State) (c : Nat) : Nat :=
  ((tileGet s (c / 1024)).sb.filter fun e => match e.2 with | some x => x.ctx == c | none => false).length

/-- Refuse a context's outstanding requests in admission order (R89). -/
def refuseBufs (s : State) (c : Nat) (bufs : Tab (Option RBuf)) : State :=
  let l := c / 1024
  let rs := bufs.filterMap fun e => e.2
  let key : RBuf → Nat := fun r => match jGet s r.part r.slot with | some j => j.order | none => 0
  let ins := fun (acc : List RBuf) (r : RBuf) => (acc.takeWhile fun x => decide (key x ≤ key r)) ++ r :: acc.dropWhile fun x => decide (key x ≤ key r)
  (rs.foldl ins []).foldl (fun s r =>
    refuse (cinc (bump s (rTIL_REFUSED (tileSite s l))) (cTile l 10) 1) r.part r.slot c) s

/-- A context's members leave every pass at once (R170). -/
def passLeave (s : State) (c : Nat) : State :=
  let l := c / 1024
  let t := tileGet s l
  let strip := fun (p : Pass) => { p with members := p.members.filter fun m => m.ctx != c }
  let gone := fun (o : Option Pass) => match o with
    | some p => let q := strip p; if q.members.isEmpty then none else some q
    | none => none
  let sb := t.sb.map fun e => match e.2 with
    | some x => if x.ctx = c then (e.1, some { x with inPass := false, todo := if x.inPass then none else x.todo, gone := x.gone || x.inPass }) else e
    | none => e
  let s := tilePut s l { t with form := gone t.form, run := gone t.run, sb := sb }
  if braided s l then
    let t := tileGet s (l + 1)
    tilePut s (l + 1) { t with form := gone t.form, run := gone t.run }
  else s

/-- The slots of a context that is torn down (R265): a load stops with CANCELLED, LOADED and ARMED slots are
emptied, an ARMED slot's requests refused; ACTIVE and DRAINING stay. -/
def slotsDown (s : State) (c : Nat) : State :=
  let s := (s.sessions.filterMap fun e => match e.2 with
      | some v => (match v.waiting with | some b => if byteAt b 0 = 1 ∧ leAt b 4 2 = c then some e.1 else none | none => none)
      | none => none).foldl (fun s i => sessionFail s i 10 0) s
  [0, 1].foldl (fun s k =>
    let m := mslotGet s c k
    if m.state = 2 then mslotPut s c k mslot0
    else if m.state = 3 then mslotPut (refuseBufs s c m.bufs) c k mslot0
    else s) s

/-- Teardown of an ACTIVE context (R101): QUIESCING, PLY advanced, unissued commands discarded, outstanding
requests refused. -/
def teardown (s : State) (c : Nat) : State :=
  let x := ctxGet s c
  let s := slotsDown (refuseBufs s c x.bufs) c
  let s := passLeave s c
  ctxPut s c { ctxGet s c with state := 2, ply := (x.ply + 1) % 4096, bufs := [], b := 0, n := 0, fresh := false, downAt := s.gt,
                               restart := none, restoring := false, toks := [] }

/-- A fault of a context (R100): the first is latched with its record and starts the teardown; later ones during
the teardown count in OVERLAP. -/
def ctxFault (s : State) (c unit : Nat) (f : CtxFlt) : State :=
  let x := ctxGet s c
  let l := c / 1024
  match x.state with
  | 1 =>
    let info := leBytes 2 (x.ply % 4096) ++ leBytes 1 (tileSite s l) ++ leBytes 1 unit ++ leBytes 8 s.gt ++ slice f.detail 0 8
    let s := cinc (bump s (rTIL_CTX_FAULTS (tileSite s l))) (cTile l 17) 1
    let s := teardown s c
    ctxPut s c { ctxGet s c with fault := f.code, faultInfo := info, overlap := 0 }
  | 2 => if x.fault = 0 then s else ctxPut s c { x with overlap := min 255 (x.overlap + 1) }
  | _ => s

/-! ### Restart (R318) -/

/-- Restart of an ACTIVE context: PLY advanced, ring to command 0, knots to their initial values; outstanding
requests stay, to be re-taken when the old transfers have returned if `retake`. -/
def ctxRestart (s : State) (c : Nat) (retake : Bool) : State :=
  let x := ctxGet s c
  if x.state ≠ 1 then s else
  let s := passLeave s c
  let s := knotsInit s (c / 1024) x.img
  ctxPut s c { ctxGet s c with ply := (x.ply + 1) % 4096, pos := 0, b := 0, n := 0, fresh := false, downAt := s.gt,
                               restart := some (retake || x.restart == some true) }

/-- Write an admitted request into its buffer (R88): header with PLY, payload, zeros to the next 64 bytes. -/
def bufWrite (s : State) (l : Nat) (v : SlotImg) (i ply : Nat) (j : JSlot) : State :=
  let h := splice j.hdr 24 (leBytes 2 (ply % 4096))
  let b := h ++ j.payload
  spW s l v 0 (v.reqBase + i * v.reqStride) (padTo (cdiv b.length 64 * 64) b)

/-- A fault whose recovery awaited this context's restart has ended when no other does (R316). -/
def waitDone (s : State) (c : Nat) : State :=
  let mine := s.flt.waits.filter fun w => w.2.2 == c
  let rest := s.flt.waits.filter fun w => w.2.2 != c
  let s := { s with flt := { s.flt with waits := rest } }
  mine.foldl (fun s w => if rest.any fun v => v.1 == w.1 && v.2.1 == w.2.1 then s else faultEnd s w.1 w.2.1 0) s

/-! ### Slot commit (R262 to R264) -/

/-- ACTIONS entries go to the partition's action table (R262). -/
def applyActions (s : State) (p : Nat) (l : List (Nat × List Nat)) : State :=
  l.foldl (fun s e =>
    let d := vdGet s p
    vdPut s p { d with acts := tset [] d.acts e.1 (if e.2 = [0, 0, 0, 0] then [] else e.2) }) s

/-- The ARMED slot becomes ACTIVE: generation, ring, knots, its admitted requests; the old slot drains. -/
def commitSlot (s : State) (c k : Nat) : State :=
  let m := mslotGet s c k
  let x := ctxGet s c
  let l := c / 1024
  let g := if tget 0 s.gens c ≥ 65535 then 1 else tget 0 s.gens c + 1
  let s := { s with gens := tset 0 s.gens c g }
  let old := mslotGet s c (1 - k)
  let s := if old.state = 4 then mslotPut s c (1 - k) { old with state := 5 } else s
  let img := { m.img with gen := g }
  let s := mslotPut s c k { m with state := 4, img := img, bufs := [], admitted := 0, forced := false }
  let s := knotsInit s l img
  let s := ctxPut s c { x with state := 1, active := k, img := img, pos := 0, admitted := m.admitted, bufs := m.bufs, b := 0, n := 0,
                               fresh := false, fault := 0, faultInfo := [], overlap := 0, restart := none, toks := [] }
  let s := if bit m.flags 1 then applyActions s (tilePart s l) m.actions else s
  modelRecord (epochAdvance s 5) m.rq (if m.forced then 6 else 3) 0 0 c k g 0 m.digest

/-- The slot of a context that is ARMED. -/
def armedSlot (s : State) (c : Nat) : Option Nat :=
  [0, 1].find? fun k => (mslotGet s c k).state == 3

/-- The end of a restart: TOKENS restored, ADMITTED requests taken again in their admission order (R318). -/
def restartEnd (s : State) (c : Nat) : State :=
  let x := ctxGet s c
  let l := c / 1024
  match x.restart with
  | none => s
  | some r =>
    if sbHeld s c ≠ 0 ∨ x.restoring then s else
    let s := x.toks.foldl (fun s e => memW s (tierBase + e.1) (leBytes 8 e.2)) s
    let s := if r then
        x.bufs.foldl (fun s e => match e.2 with
          | some b => (match jGet s b.part b.slot with
            | some j => faultRedisp (bufWrite s l x.img e.1 x.ply j) (tilePart s l)
            | none => s)
          | none => s) s
      else s
    let bufs := x.bufs.map fun e => (e.1, e.2.map fun b => { b with taken := false, nan := false })
    let s := waitDone (ctxPut s c { x with restart := none, bufs := bufs, toks := [] }) c
    match armedSlot s c with
    | some k => if (mslotGet s c k).forced then commitSlot s c k else s
    | none => s

/-! ### End of quiesce (R103) -/

/-- Release a torn-down context: FREE or FAULTED, its CTX_FAULT record; a slot armed meanwhile commits (R104). -/
def ctxRelease (s : State) (c : Nat) : State :=
  let x := ctxGet s c
  let s := if x.fault = 0 then s else
    stage s 9 (rgf s rFLT_CFG 25 20) 6 5 (leBytes 2 (c % 2 ^ 15) ++ leBytes 1 x.fault ++ leBytes 1 x.overlap ++ slice x.faultInfo 0 20)
  let s := ctxPut s c { x with state := if x.fault = 0 then 0 else 3 }
  let s := waitDone s c
  match armedSlot s c with
  | some k => commitSlot s c k
  | none => s

/-- QUIESCE_END: every transfer of the context has returned. -/
def quiesceEnd (s : State) (c : Nat) : State :=
  let x := ctxGet s c
  if sbHeld s c ≠ 0 then s
  else if x.state = 2 then ctxRelease s c
  else if x.restart.isSome then restartEnd s c
  else s

/-- Purge the context's entries from every queue that holds them: each counts in TIL_QUIESCE_PURGE (R103). -/
def purge (s : State) (c : Nat) : State :=
  let l := c / 1024
  let n := sbHeld s c
  let t := tileGet s l
  let s := tilePut s l { t with sb := t.sb.filter fun e => match e.2 with | some x => x.ctx != c | none => false }
  bumpN s (rTIL_QUIESCE_PURGE (tileSite s l)) n

/-- QUIESCE_TIMEOUT: 100 µs after the teardown or restart began. -/
def quiesceTimeout (s : State) (c : Nat) : State :=
  let x := ctxGet s c
  if (x.state = 2 ∨ x.restart.isSome) ∧ s.gt ≥ x.downAt + 100000 then quiesceEnd (purge s c) c else s

end Sys2Proof.Machine
end

