-- ==== Sys2Proof/Machine/Operands.lean ====
section
/-! DEFINITION. Command descriptors and operands: fields of Table TIL-3, the resolution of operand words, the checks of a
head command (R93 to R96, R100). -/

namespace Sys2Proof.Machine

/-- ENGINE of a command. -/
def cwEngine (w : List Nat) : Nat := bits (w.getD 0 0) 31 29
/-- OP. -/
def cwOp (w : List Nat) : Nat := bits (w.getD 0 0) 28 24
/-- ECLASS. -/
def cwClass (w : List Nat) : Nat := bits (w.getD 0 0) 23 21
/-- BATCH. -/
def cwBatch (w : List Nat) : Bool := bit (w.getD 0 0) 20
/-- FENCE. -/
def cwFence (w : List Nat) : Bool := bit (w.getD 0 0) 19
/-- EFLAGS. -/
def cwFlags (w : List Nat) : Nat := w.getD 0 0 % 2 ^ 19
/-- Operand word OPDi. -/
def cwOpd (w : List Nat) (i : Nat) : Nat := w.getD (4 + i) 0

/-- The eight words of 32 bytes. -/
def words8 (b : Bytes) : List Nat := (List.range 8).map fun i => leAt b (4 * i) 4

/-- Number of operations each engine defines (Tables TIL-4 to TIL-6, THR, BT-4); OPs from 0. -/
def engineOps : Nat → Nat
  | 0 => 4 | 1 => 1 | 2 => 2 | 3 => 10 | 4 => 5 | 5 => 5 | _ => 0

/-- An operand resolved: its space and address (SRAM address, or byte offset in the window), or the value of an
immediate. -/
structure Opd where
  sp : Nat
  a : Nat
deriving DecidableEq, Repr, Inhabited

/-- Resolve an operand word for BATCH iteration `j` (R94). -/
def opdOf (v : SlotImg) (b j w : Nat) : Opd :=
  let sp := bits w 31 30
  let off := w % 2 ^ 29
  match sp with
  | 0 => ⟨0, off + (if bit w 29 then (b + j) * v.reqStride else 0)⟩
  | 3 => ⟨3, w % 2 ^ 30⟩
  | n => ⟨n, off * 64⟩

/-- ADDR_RANGE at an operand; DETAIL is its device address, 0 of an immediate (Table FLT-8). -/
def rangeFault (s : State) (l : Nat) (v : SlotImg) (o : Opd) : CtxFlt := fltAt 3 (if o.sp = 3 then 0 else physA s l v o.sp o.a)

/-- The address of an operand lies in its region or window. -/
def opdIn (v : SlotImg) (o : Opd) (n : Nat) : Bool := inWin v o.sp o.a n

/-- The operands of an operation that are memory: (index, the spaces it accepts; REL ignored). An empty list of spaces
accepts every memory space. -/
def opdUses (e op : Nat) : List (Nat × List Nat × Bool) :=
  match e, op with
  | 0, 2 => [(0, [], false)]
  | 1, _ => [(0, [0], false), (1, [0], false), (2, [0], false), (3, [0], true)]
  | 2, 0 => [(0, [0], false), (1, [0], false), (2, [0], false), (3, [0], true)]
  | 2, 1 => [(0, [0], false), (1, [2], false), (2, [0], false), (3, [0], true)]
  | 3, 2 | 3, 3 | 3, 4 | 3, 8 | 3, 9 => [(0, [], false), (2, [], false)]
  | 3, _ => [(0, [], false), (1, [], false), (2, [], false)]
  | 4, 1 | 4, 2 => [(0, [], false), (1, [], false), (2, [], false)]
  | 4, 4 => [(1, [], false)]
  | 4, _ => [(0, [], false), (1, [], false)]
  | 5, 2 => [(0, [0], false), (1, [1], false), (3, [0], true)]
  | 5, 4 => [(0, [1], false), (1, [1], false), (3, [0], true)]
  | 5, _ => [(0, [0], false), (1, [1], false), (2, [0], false), (3, [0], true)]
  | _, _ => []

/-- EW copy has no second source. -/
def opdUsesOf (w : List Nat) : List (Nat × List Nat × Bool) :=
  if cwEngine w = 3 ∧ cwOp w = 0 ∧ cwFlags w % 16 = 5 then [(0, [], false), (2, [], false)]
  else opdUses (cwEngine w) (cwOp w)

/-- An operand word without its REL bit. -/
def noRel (w : Nat) : Nat := if bit w 29 then w - 2 ^ 29 else w

/-- Bytes of an array of `rs` rows. -/
def arrBytes (rs cs fmt : Nat) : Nat := rs * rowBytes cs fmt

/-- Format of EW's elements: FP32, or BF16 with EFLAGS bit 4 (log entry 8). -/
def ewFmt (f : Nat) : Nat := if bit f 4 then 4 else 5

/-- Bytes that a VX command reads or writes at operand `i`, as far as the command itself says (R106, R115, R122, R125, R189): of an
operand that its first block or header describes, that header. -/
def vxLen (w : List Nat) (i : Nat) : Nat :=
  let rs := bits (cwOpd w 3) 29 16
  let cs := cwOpd w 3 % 65536
  let f := cwFlags w
  match cwOp w, i with
  | 0, _ => arrBytes rs cs (ewFmt f)
  | 2, 2 => arrBytes rs 1 5
  | 5, 1 => 512
  | 5, _ => arrBytes rs cs 4
  | 6, 0 => arrBytes rs cs (f % 16)
  | 6, 1 => blocksBytes rs cs (if bits f 5 4 < 2 then 0 else bits f 5 4)
  | 6, _ => 256 * cdiv rs 16
  | 7, 0 => 64
  | 7, 1 => 256 * cdiv rs 16
  | 7, _ => arrBytes rs cs (f % 16)
  | 8, 0 => 64
  | 8, _ => arrBytes rs 64 (f % 16)
  | 9, 0 => arrBytes rs cs (f % 16)
  | 9, _ => arrBytes rs cs (bits f 7 4)
  | _, _ => arrBytes rs cs 5

/-- Bytes that a Mover command reads or writes at operand `i`, as far as the command itself says (R107; log entry 25). -/
def movLen (w : List Nat) (i : Nat) : Nat :=
  let n := cwOpd w 3 % 2 ^ 30
  let rs := bits (cwOpd w 3) 29 16
  let cs := cwOpd w 3 % 65536
  let fmt := if bit (cwFlags w) 0 then 7 else 0
  match cwOp w, i with
  | 1, 0 | 2, 1 => 64
  | 1, 2 | 2, 2 => 4 * n
  | 3, 0 => arrBytes rs cs fmt
  | 3, _ => arrBytes cs rs fmt
  | _, _ => 64 * n

/-- Bytes at operand `i` that the dispatcher checks at issue; the Sheaf, the Thresher and the score port check what their parameter
records describe (R137, R165, R182). -/
def opdLen (w : List Nat) (i : Nat) : Nat :=
  match cwEngine w with
  | 0 => 16
  | 3 => max 1 (vxLen w i)
  | 4 => max 1 (movLen w i)
  | _ => if i = 3 then 32 else 1

/-- ADDR_RANGE of the operands for iteration `j`: the first operand in a space it does not accept, or one of which a byte lies outside
its region or window (R94, R136, R163, R182). An immediate where VX or the Mover needs memory is BAD_OP (log entry 25). -/
def opdFault (s : State) (l : Nat) (v : SlotImg) (b j : Nat) (w : List Nat) : Option CtxFlt :=
  (opdUsesOf w).findSome? fun u =>
    let x := cwOpd w u.1
    let o := opdOf v b j (if u.2.2 then noRel x else x)
    if u.2.1.isEmpty && o.sp == 3 then some (fltAt 4 0)
    else if !u.2.1.isEmpty && !u.2.1.contains o.sp then some (rangeFault s l v o)
    else if opdIn v o (opdLen w u.1) then none
    else some (rangeFault s l v o)

/-- A format that the command names and its engine does not accept (R109, R132). -/
def headFmtBad (w : List Nat) : Bool :=
  let f := cwFlags w
  let dst := f % 16 != 4 && f % 16 != 5
  match cwEngine w, cwOp w with
  | 1, 0 => (mmKt (bits f 11 8) (bits f 7 4)).isNone
  | 3, 6 => dst && f % 16 != 7
  | 3, 7 | 3, 8 => dst
  | 3, 9 => decide (f % 16 > 7 ∨ bits f 7 4 > 7)
  | _, _ => false

/-- BAD_OP of a head command (R93, R109, Table TIL-4, and the shapes of VX and the Mover, log entry 25). -/
def headBad (w : List Nat) : Bool :=
  let e := cwEngine w
  let op := cwOp w
  decide (op ≥ engineOps e) ||
  (e == 0 && op == 3 && (decide (bits (cwOpd w 0) 31 30 ≠ 3) || decide (bits (cwOpd w 1) 31 30 ≠ 3) ||
    decide (bits (cwOpd w 0) 29 13 ≠ 0))) ||
  ((e == 3 || e == 4) && decide (bits (cwOpd w 3) 31 30 ≠ 3)) || headFmtBad w

/-- The knot a wait or signal word names, when enabled. -/
def knotOf (w : Nat) : Option Nat := if bit w 31 then some (bits w 28 16) else none

/-- KNOT_RANGE of a head command (R96; KSET under Table TIL-4). -/
def headKnot (v : SlotImg) (w : List Nat) : Bool :=
  ([1, 2, 3].any fun i => match knotOf (w.getD i 0) with | some k => decide (k ≥ v.knotCount) | none => false) ||
  (cwEngine w == 0 && cwOp w == 3 && decide (cwOpd w 0 % 8192 ≥ v.knotCount))

/-- The waits of a command are satisfied (R96, R97). -/
def waitsMet (s : State) (l : Nat) (v : SlotImg) (w : List Nat) : Bool :=
  let a := w.getD 1 0
  let b := w.getD 2 0
  let one := fun (x : Nat) => match knotOf x with
    | some k => decide (knotGet s l v k ≥ x % 65536)
    | none => true
  let both := match knotOf a, knotOf b with
    | some i, some j =>
      if i = j then
        let need := (if bit a 30 then a % 65536 else 0) + (if bit b 30 then b % 65536 else 0)
        decide (knotGet s l v i ≥ need)
      else true
    | _, _ => true
  one a && one b && both

/-- Consuming waits subtract their counts at issue. -/
def waitsTake (s : State) (l : Nat) (v : SlotImg) (w : List Nat) : State :=
  [w.getD 1 0, w.getD 2 0].foldl (fun s x =>
    match knotOf x with
    | some k => if bit x 30 then knotPut s l v k (knotGet s l v k - x % 65536) else s
    | none => s) s

end Sys2Proof.Machine
end

