-- ==== Sys2Proof/Machine/Flags.lean ====
section
/-! DEFINITION. The conditions the device computes and flags it signals: energy tokens, engines that can accept,
quarters of the Sheaf, the issue condition and its candidate (R97 to R99, R105, R134, R167, R182, R298, R299). -/

namespace Sys2Proof.Machine

/-! ### Energy tokens (R296, R298, R299) -/

/-- A partition's power state before the first boundary. -/
def pwrPart0 : PwrPart :=
  { bucket := 0, grant := 0, spent := 0, share := 0, step := 0, trig := 0, gliding := false, upAt := none, calmAt := 0,
    stretches := 0, stretchAll := 0, stretching := false, stretchAt := 0, tj := 0, tier := 0 }

/-- Power state of partition `p`. -/
def pwrGet (s : State) (p : Nat) : PwrPart := tget pwrPart0 s.pwr.parts p

/-- Store it. -/
def pwrPut (s : State) (p : Nat) (v : PwrPart) : State := { s with pwr := { s.pwr with parts := tset pwrPart0 s.pwr.parts p v } }

/-- A live power register as of the last window boundary (R311). -/
def pwrEff (s : State) (a : Nat) : Nat := (tget (regReset a) s.pwr.eff a).toNat

/-- PWR_ECOST of a class; class 0 costs 0. -/
def ecost (s : State) (k : Nat) : Nat := if k = 0 then 0 else pwrEff s (rPWR_ECOST0 + 4 * k) % 65536

/-- Floor of a rank in 1/64 of share (R299). -/
def rankFloor (s : State) (r : Nat) : Nat :=
  let w := pwrEff s rPWR_FLOOR
  let f1 := min 64 (bits w 7 0)
  let f2 := min 64 (max f1 (bits w 15 8))
  let f3 := min 64 (max f2 (bits w 23 16))
  match r with | 0 => 0 | 1 => f1 | 2 => f2 | _ => f3

/-- The token condition of R98 for a command of cost `c` at rank `r`. -/
def tokensOk (s : State) (p r c : Nat) : Bool :=
  let v := pwrGet s p
  let f : Int := rankFloor s r * v.share
  c == 0 || decide (64 * (v.bucket - c) ≥ f) ||
  (decide ((64 * c : Nat) > (128 * v.share : Nat) - f) && decide (v.bucket ≥ 2 * v.share))

/-- Charge a partition's bucket (R298). -/
def charge (s : State) (p c : Nat) : State :=
  let v := pwrGet s p
  cinc (pwrPut s p { v with bucket := v.bucket - c, spent := v.spent + c }) (cPart p 18) c

/-! ### Scoreboard (R99, R105) -/

/-- Scoreboard entries in use. -/
def sbUsed (s : State) (l : Nat) : List (Nat × SbEnt) :=
  (tileGet s l).sb.filterMap fun e => e.2.map fun x => (e.1, x)

/-- Entries of an engine in issue order. -/
def sbEngine (s : State) (l e : Nat) : List (Nat × SbEnt) :=
  ((sbUsed s l).filter fun x => x.2.engine == e).foldl (fun acc x =>
    (acc.takeWhile fun y => decide (y.2.order ≤ x.2.order)) ++ x :: acc.dropWhile fun y => decide (y.2.order ≤ x.2.order)) []

/-- Members of the tile: 2 when braided. -/
def members (s : State) (l : Nat) : Nat := if braided s l then 2 else 1

/-- A free scoreboard entry: the lowest-numbered (log entry 14). -/
def sbFree (s : State) (l : Nat) : Option Nat :=
  let used := (sbUsed s l).map fun e => e.1
  if used.length ≥ 256 * members s l then none else (List.range (used.length + 1)).find? fun i => !used.contains i

/-- Store or free a scoreboard entry. -/
def sbPut (s : State) (l i : Nat) (v : Option SbEnt) : State :=
  let t := tileGet s l
  tilePut s l { t with sb := tset none t.sb i v }

/-! ### Quarters of the Sheaf (R133, R134, R151) -/

/-- Candidate spans of a QSPAN, lowest first, as masks: bits 0 to 3 the even member's quarters, 4 to 7 the odd's. -/
def spanMasks (braid : Bool) (q : Nat) : List Nat :=
  match q, braid with
  | 0, false | 3, false => [0x0F]
  | 0, true => [0xFF]
  | 1, false => [1, 2, 4, 8]
  | 1, true => [1, 2, 4, 8, 16, 32, 64, 128]
  | 2, false => [0x03, 0x0C]
  | 2, true => [0x03, 0x0C, 0x30, 0xC0]
  | _, _ => [0x0F, 0xF0]

/-- Quarters of a tile marked failed, as a mask. -/
def failedMask (s : State) (l : Nat) : Nat :=
  rgf s (rSHF_STATUS (tileSite s l)) 27 24 + (if braided s l then 16 * rgf s (rSHF_STATUS (tileSite s (l + 1))) 27 24 else 0)

/-- Give quarters to the waiting Sheaf commands in queue order; the first that must wait stops those behind it. -/
def shfAssign (s : State) (l : Nat) : State :=
  let es := sbEngine s l 1
  let busy := es.foldl (fun m e => m ||| e.2.quarters) (failedMask s l)
  ((es.filter fun e => e.2.quarters == 0).foldl (fun (a : State × Nat × Bool) e =>
    if a.2.2 then a else
    match (spanMasks (braided s l) e.2.span).find? fun m => m &&& a.2.1 == 0 with
    | some m => (sbPut a.1 l e.1 (some { e.2 with quarters := m }), a.2.1 ||| m, false)
    | none => (a.1, a.2.1, true)) (s, busy, false)).1

/-- Count in a Sheaf register of each member that has quarters in a mask: `f` of that member's four-bit mask. -/
def shfBump (s : State) (l mask : Nat) (reg : Nat → Nat) (f : Nat → Nat) : State :=
  let s := if mask % 16 = 0 then s else bumpN s (reg (tileSite s l)) (f (mask % 16))
  if mask / 16 = 0 then s else bumpN s (reg (tileSite s (l + 1))) (f (mask / 16))

/-- The UNIT byte of a CTX_FAULT record (Table FLT-8). -/
def unitOf (e quarters : Nat) : Nat := e % 8 + (if e = 1 then (quarters ||| quarters / 16) % 16 * 16 else 0)

/-! ### Engines that can accept a command (R98) -/

/-- Entries of an engine that wait in its queue, in queue order. -/
def waiting (es : List (Nat × SbEnt)) : List (Nat × SbEnt) := es.filter fun x => x.2.todo.isSome

/-- Score-port commands in progress among the unfinished ones: up to 8 a member, in queue order, one per record at a time; the first
that must wait stops those behind it (R182). -/
def spRunning (k : Nat) (es : List (Nat × SbEnt)) : List (Nat × SbEnt) :=
  (es.foldl (fun (a : List (Nat × SbEnt) × Bool) e =>
    if a.2 then a
    else if a.1.length ≥ 8 * k ∨ (e.2.span ≠ 0 ∧ a.1.any fun x => x.2.span == e.2.span) then (a.1, true)
    else (a.1 ++ [e], false)) ([], false)).1

/-- Commands in the queue of braid member `m`'s Thresher. -/
def thrQueue (s : State) (l m : Nat) : List (Nat × SbEnt) := (waiting (sbEngine s l 2)).filter fun x => x.2.span == m

/-- The member whose Thresher takes the next command: the one with the shorter queue, the even one first (R105; log entry 14). -/
def thrMember (s : State) (l : Nat) : Nat :=
  if braided s l ∧ (thrQueue s l 1).length < (thrQueue s l 0).length then 1 else 0

/-- The target engine has a free queue entry (R134, R167, R182; VX and the Mover queue 4, log entry 26). -/
def engineFree (s : State) (l e : Nat) : Bool :=
  let es := sbEngine s l e
  let k := members s l
  match e with
  | 0 => true
  | 1 => decide ((es.filter fun x => x.2.quarters == 0).length < 4 * k)
  | 2 => decide ((thrQueue s l (thrMember s l)).length < 4)
  | 5 => decide (es.length - (spRunning k es).length < 8 * k)
  | _ => decide ((waiting es).length < 4 * k)

/-! ### Issue (R90, R98) -/

/-- The head command of a context. -/
def headOf (s : State) (c : Nat) : List Nat :=
  let v := (ctxGet s c).img
  words8 (spR s (c / 1024) v 0 (v.streamBase + 32 * (ctxGet s c).pos) 32)

/-- An uncorrectable codeword in the head command. -/
def headUe (s : State) (c : Nat) : Option Nat :=
  let v := (ctxGet s c).img
  spBad s (c / 1024) v 0 (v.streamBase + 32 * (ctxGet s c).pos) 32

/-- A context's ring runs: ACTIVE, no restart or restore in progress. -/
def ctxRuns (x : Ctx) : Bool := x.state == 1 && x.restart.isNone && !x.restoring && x.img.streamLen != 0

/-- Contexts of a logical tile, ascending. -/
def tileCtxs (s : State) (l : Nat) : List Nat := (s.ctxs.filter fun e => e.1 / 1024 == l).map fun e => e.1

/-- Admitted requests not yet taken (R91). -/
def pendingReqs (x : Ctx) : Nat := (x.bufs.filter fun e => match e.2 with | some b => !b.taken | none => false).length

/-- Iterations of a command: n with BATCH, else 1; POST takes the whole batch (R92, R95). -/
def itersOf (x : Ctx) (w : List Nat) : Nat :=
  if cwEngine w = 0 then (if cwOp w = 2 then x.n else 1) else if cwBatch w then x.n else 1

/-- Cost of a command (R298). -/
def costOf (s : State) (x : Ctx) (w : List Nat) : Nat := ecost s (cwClass w) * (if cwBatch w then x.n else 1)

/-- TCLK of partition `p` is stopped while it switches to the standby PLL: for tPLL_SWAP (R324; log entry 149). -/
def pllSwaps (s : State) (p : Nat) : Bool := decide (s.time.up < tget 0 s.flt.pllSwap p)

/-- A trace queue that is full holds a tile's issue (R370); so do a trip and a PLL swap, which stop TCLK (R307, R324). -/
def issueHeld (s : State) (l : Nat) : Bool := traceStalled s l || s.pwr.tripped || pllSwaps s (tilePart s l)

/-- Every issue condition of R98 but the tokens. -/
def issueConds (s : State) (l c : Nat) (w : List Nat) : Bool :=
  let x := ctxGet s c
  waitsMet s l x.img w && (!cwFence w || sbHeld s c == 0) && engineFree s l (cwEngine w) && (sbFree s l).isSome &&
  decide (sbHeld s c < 32 * members s l) && (!(cwEngine w == 0 && cwOp w == 1) || decide (pendingReqs x > 0)) &&
  !issueHeld s l

/-- A context whose head command must fault at the head: unreadable, BAD_OP or KNOT_RANGE, in that order after the
read (R93, R96, R100). -/
def headFault (s : State) (c : Nat) : Option CtxFlt :=
  let w := headOf s c
  match headUe s c with
  | some a => some (fltAt 8 a)
  | none => if headBad w then some (fltAt 4 0) else if headKnot (ctxGet s c).img w then some (fltAt 1 0) else none

/-- The head command of `c` is issuable. -/
def issuable (s : State) (l c : Nat) : Bool :=
  let x := ctxGet s c
  let w := headOf s c
  ctxRuns x && (headFault s c).isNone && issueConds s l c w && tokensOk s (tilePart s l) (bits x.cfg 28 27) (costOf s x w)

/-- The head fails R98 on the token condition alone (R299, R300). -/
def tokenBlocked (s : State) (l c : Nat) : Bool :=
  let x := ctxGet s c
  let w := headOf s c
  ctxRuns x && (headFault s c).isNone && issueConds s l c w && !tokensOk s (tilePart s l) (bits x.cfg 28 27) (costOf s x w)

/-- PRIO of a context. -/
def prioOf (s : State) (c : Nat) : Nat := bits (ctxGet s c).cfg 31 29

/-- The context that issues next (R98): highest PRIO, then round robin after the one that last issued at it. -/
def candidate (s : State) (l : Nat) : Option Nat :=
  let cs := (tileCtxs s l).filter (issuable s l)
  let rank := fun c => (7 - prioOf s c) * 2048 + (c % 1024 + 2048 - tget 1023 (tileGet s l).rr (prioOf s c) - 1) % 1024
  cs.foldl (fun (a : Option Nat) c => match a with
    | some b => if rank c < rank b then some c else some b
    | none => some c) none

/-- Does a head command belong to the row of engine `e` and operation `op`: an OP that the engine does not define
belongs to the engine's first row, ENGINE 6 and 7 to NOP's. -/
def rowIs (e op : Nat) (w : List Nat) : Bool :=
  let e' := if cwEngine w ≥ 6 then 0 else cwEngine w
  let op' := if cwEngine w ≥ 6 ∨ cwOp w ≥ engineOps e' then 0 else cwOp w
  e' == e && op' == op

end Sys2Proof.Machine
end

