-- ==== Sys2Proof/Machine/TierImage.lean ====
section
/-! DEFINITION. What a read or write of the tier finds where a Granary table lies: the images of its entries under parity (R62, R64,
R177, R181). A slot that holds no entry reads as zeros (DESIGN CHOICE, log entry 137). -/

namespace Sys2Proof.Machine

/-- The 64 bytes of slot `i` of a table. -/
def slotBytes (s : State) (p : Nat) (ep : Bool) (i : Nat) : Bytes :=
  match entGet s p ep i with | some e => entBytes ep e | none => List.replicate 64 0

/-- VSTATE that 16 bytes hold (Table VD-2). -/
def vsOf (b : Bytes) : VState :=
  let w := leAt b 0 4
  let x := leAt b 4 4
  { kind := bits w 31 30, nan := bit w 29, sampled := bit w 28, cls := bits w 25 16, gen := bits w 15 0, vgen := bits x 31 20,
    lslot := if bit x 16 then some (bits x 15 0) else none, score := leAt b 8 4, ctx := leAt b 12 2, conf := leAt b 14 2 }

/-- The entry that 64 bytes hold: none where VALID is 0 (Table GRN-1). -/
def entOf (ep : Bool) (uid : Nat) (b : Bytes) : Option GEnt :=
  let w := leAt b 0 8
  if !bit w 63 then none else
  some { uid := uid, static := bit w 62, pinned := bit w 61, digest := bit w 60, ksize := bits w 59 58, cls := bits w 57 50,
         port := bits w 49 43, moves := bits w 42 40, last := bits w 39 0, first := if ep then leAt b 48 5 else 0,
         key := slice b 8 40, vs := if ep then vstate0 else vsOf (slice b 48 16), par := 0 }

/-- Store 64 bytes in slot `i` of a table; every word gets its parity bit. -/
def slotWrite (s : State) (p : Nat) (ep : Bool) (i : Nat) (b : Bytes) : State :=
  entPut { s with uids := s.uids + 1 } p ep i (entOf ep s.uids b)

/-- Units of bank `n` from unit `u` on that hold an entry with a parity error. -/
def unitsParity (s : State) (n u len : Nat) : Bool :=
  (List.range len).any fun k => match unitEntry s n (u + k) with
    | some (ep, i) => (match entGet s (n / 1024) ep i with | some e => e.par != 0 | none => false)
    | none => false

/-- Unit `u` of bank `n` as it is read. -/
def unitR (s : State) (n u : Nat) : Bytes :=
  match unitEntry s n u with
  | some (ep, i) => slotBytes s (n / 1024) ep i
  | none => memR s (bankA n + 64 * u) 64

/-- `n` bytes of the tier at device address `a` as they are read. -/
def tierR (s : State) (a n : Nat) : Bytes :=
  let u := (a - tierBase) / 64
  let k := (a - tierBase + n + 63) / 64 - u
  slice ((List.range k).flatMap fun j => unitR s ((u + j) / 32768) ((u + j) % 32768)) ((a - tierBase) % 64) n

/-- A read of `n` bytes at device address `a` of the tier meets an entry with a parity error (a window read of one answers UE: log
entry 143). -/
def tierParity (s : State) (a n : Nat) : Bool :=
  let u := (a - tierBase) / 64
  (List.range ((a - tierBase + n + 63) / 64 - u)).any fun j => unitsParity s ((u + j) / 32768) ((u + j) % 32768) 1

/-- An array fault at a device address of the tier: under parity it fails the words of its codeword, else it makes the codeword
uncorrectable. -/
def tierStrike (s : State) (a : Nat) : State :=
  let n := bankOf a
  let u := (a - bankA n) / 64
  match (if decide (tierBase ≤ a ∧ a < lpBase) then unitEntry s n u else none) with
  | some (ep, i) => parityStrike s (n / 1024) ep i (if a % 64 < 32 then 0x0F else 0xF0)
  | none => strike s a

end Sys2Proof.Machine
end

