-- ==== Sys2Proof/Machine/Issue.lean ====
section
/-! DEFINITION. The dispatcher: admission, issue, its own operations, completion, host commands on contexts and the TIL
registers (R86, R88 to R92, R95 to R104, R108, R317). -/

namespace Sys2Proof.Machine

/-! ### Admission (R88, R89) -/

/-- What takes a context's next requests: its ARMED slot (R261), else the ACTIVE one. Image, admitted count,
buffers. -/
def admitInto (s : State) (c : Nat) : Option Nat × SlotImg × Nat × Tab (Option RBuf) :=
  let x := ctxGet s c
  match armedSlot s c with
  | some k => let m := mslotGet s c k; (some k, m.img, m.admitted, m.bufs)
  | none => (none, x.img, x.admitted, x.bufs)

/-- Outstanding requests of both slots (R261). -/
def outAll (s : State) (c : Nat) : Nat :=
  outstanding (ctxGet s c) + (match armedSlot s c with | some k => (mslotGet s c k).bufs.length | none => 0)

/-- MAX_OUT of a context. -/
def maxOut (x : Ctx) : Nat := mark64 (bits x.cfg 14 8)

/-- A refusal that is not for a full queue (R89). -/
def admitRefuse (s : State) (l p slot c : Nat) : State :=
  refuse (cinc (bump s (rTIL_REFUSED (tileSite s l))) (cTile l 10) 1) p slot c

/-- A journal slot is read: the uncorrectable codeword it meets; `ue`: an array fault strikes it first. -/
def journalRead (s : State) (p i : Nat) (ue : Bool) : Option Nat × State :=
  let s := if ue then strike s (generalA s p (journalAt s i)) else s
  (generalBad s p (journalAt s i) 2112, s)

/-- REQUEST_ADMIT: the oldest request of a tile's queue is admitted or refused; one whose journal slot cannot be read is refused
(Table FLT-5). Nothing is admitted while the device has tripped (R307). -/
def requestAdmit (s : State) (l : Nat) (ue : Bool) : State :=
  let t := tileGet s l
  match (if s.pwr.tripped then [] else t.rq) with
  | [] => s
  | r :: rest =>
    let s := tilePut s l { t with rq := rest }
    match jGet s r.part r.slot with
    | none => s
    | some j =>
      let c := j.ctx
      let x := ctxGet s c
      match journalRead s r.part r.slot ue with
      | (some a, s) => admitRefuse (tierMiss s a) l r.part r.slot c
      | (none, s) =>
        let (k, v, a, bufs) := admitInto s c
        let i := a % 64
        if x.state = 1 ∧ j.payload.length + 32 > v.reqStride then ctxFault (admitRefuse s l r.part r.slot c) c 0 (fltAt 6 0)
        else if x.state ≠ 1 ∨ outAll s c ≥ maxOut x ∨ (tget none bufs i).isSome then admitRefuse s l r.part r.slot c
        else
          let s := jPut s r.part r.slot (some { j with admitted := true, order := s.jorder })
          let s := bufWrite { s with jorder := s.jorder + 1 } l v i x.ply j
          let b : RBuf := { part := r.part, slot := r.slot, taken := false, nan := false }
          let s := match k with
            | some k => let m := mslotGet s c k; mslotPut s c k { m with bufs := tset none m.bufs i (some b), admitted := m.admitted + 1 }
            | none => let x := ctxGet s c; ctxPut s c { x with bufs := tset none x.bufs i (some b), admitted := x.admitted + 1 }
          let s := if outAll s c ≥ highMark (ctxGet s c) then demand s (tilePart s l) c else s
          cinc s (cTile l 9) 1

/-! ### Signals (R96, R97) -/

/-- Apply a signal; a value past 2^32 − 1 saturates and faults KNOT_OVF. -/
def signal (s : State) (l c unit : Nat) (v : SlotImg) (sig : Option (Nat × Nat)) : State :=
  match sig with
  | none => s
  | some (k, n) =>
    let x := knotGet s l v k + n
    if x > 0xFFFFFFFF then ctxFault (knotPut s l v k 0xFFFFFFFF) c unit (fltAt 2 0) else knotPut s l v k x

/-- The signal of a command. -/
def sigOf (w : List Nat) : Option (Nat × Nat) := (knotOf (w.getD 3 0)).map fun k => (k, w.getD 3 0 % 65536)

/-! ### Dispatcher operations (Table TIL-4) -/

/-- TOKENS of every history that the ACTIVE slot declares (R318): (tier address of the record, TOKENS). -/
def historyTokens (s : State) (c : Nat) : List (Nat × Nat) :=
  ((mslotGet s c (ctxGet s c).active).kept.filter fun k => k.type == 9).map fun k =>
    (k.addr, leNat (memR s (tierBase + k.addr) 8) % 2 ^ 40)

/-- Buffer of the oldest request not yet taken: buffers fill in rotation, the next admission takes buffer `admitted` mod 64 (R88). -/
def oldestBuf (x : Ctx) : Nat :=
  (((List.range 64).map fun i => (x.admitted + i) % 64).find? fun i =>
    match tget none x.bufs i with | some r => !r.taken | none => false).getD 0

/-- TAKE (R91): the requests taken stand in consecutive buffers. -/
def opTake (s : State) (c : Nat) : State :=
  let x := ctxGet s c
  let pend := pendingReqs x
  let b := oldestBuf x
  let run := ((List.range (64 - b)).takeWhile fun i => match tget none x.bufs (b + i) with | some r => !r.taken | none => false).length
  let n := min pend (min (mark64 (bits x.cfg 6 0)) run)
  let first := !(x.bufs.any fun e => match e.2 with | some r => r.taken | none => false)
  let bufs := x.bufs.map fun e => if b ≤ e.1 ∧ e.1 < b + n then (e.1, e.2.map fun r => { r with taken := true }) else e
  let toks := if first then historyTokens s c else x.toks
  ctxPut s c { x with b := b, n := n, fresh := true, bufs := bufs, toks := toks }

/-- A result that POST reads as NaN: its SCORE or its CONFIDENCE (R124, R189; log entry 142). -/
def resultNan (r : Bytes) : Bool := (decFmt 5 (leAt r 0 4)).isNan || (decFmt 4 (leAt r 4 2)).isNan

/-- A result record with its request's NaN latch and its own NaN; reserved bits zero (R92, R124, R161). -/
def resultRec (r : Bytes) (nan : Bool) : Bytes :=
  let w := leAt r 6 2
  slice r 0 6 ++ leBytes 2 (b2n (nan || bit w 15 || resultNan r) * 32768 + b2n (bit w 14) * 16384 + w % 1024) ++ leBytes 8 0

/-- POST (R92): one result record per request of the batch, then the requests retire. -/
def opPost (s : State) (l c : Nat) (w : List Nat) : State × Option CtxFlt :=
  let x := ctxGet s c
  if !x.fresh || x.n == 0 then (s, some (fltAt 5 0))
  else
    let at_ := fun j => opdOf x.img x.b j (cwOpd w 0)
    match (List.range x.n).findSome? fun j => spBad s l x.img (at_ j).sp (at_ j).a 16 with
    | some a => (s, some (fltAt 8 a))
    | none =>
      let s := (List.range x.n).foldl (fun s j =>
        match tget none x.bufs (x.b + j) with
        | none => s
        | some r =>
          let b := resultRec (spR s l x.img (at_ j).sp (at_ j).a 16) r.nan
          cinc (vdPush s r.part { refusal := false, slot := r.slot, ctx := c, ply := x.ply, gen := x.img.gen, body := b })
            (cTile l 11) 1) s
      let bufs := x.bufs.filter fun e => !decide (x.b ≤ e.1 ∧ e.1 < x.b + x.n)
      (ctxPut s c { x with bufs := bufs, fresh := false }, none)

/-- The operation of a dispatcher command, complete at issue. -/
def dispOp (s : State) (l c : Nat) (w : List Nat) : State × Option CtxFlt :=
  match cwOp w with
  | 1 => (opTake s c, none)
  | 2 => opPost s l c w
  | 3 => (knotPut s l (ctxGet s c).img (cwOpd w 0 % 8192) (cwOpd w 1 % 2 ^ 30), none)
  | _ => (s, none)

/-! ### Issue -/

/-- What an engine does when it starts a command: tile, scoreboard entry, work. Answers the state it leaves and the fault at which it
stopped, if any. -/
abbrev EngineRun := State → Nat → Nat → Job → State × Option CtxFlt

/-- A command meets a fault. One that comes of an uncorrectable error (its address stands in DETAIL) is reported too: class 16 in
LPDDR5X, 18 in tile SRAM, and in the tier as the bank reports it (R194, R326). -/
def engFault (s : State) (l c e unit : Nat) (f : CtxFlt) : State :=
  let a := leNat f.detail
  let s := if f.code ≠ 8 ∨ a = 0 then s
    else if tierBase ≤ a ∧ a < lpBase then tierMiss s a
    else faultUe s (if a ≥ lpBase then 16 else 18) (unitCode 1 (tileSite s l * 8 + e % 8)) (tilePart s l) a
  ctxFault s c unit f

/-- A trace record of a context's command, if the command was `on` at its issue and trace still runs (R368, R373). -/
def traceCmd (s : State) (on : Bool) (l c e : Nat) (isEnd retried dropped : Bool) (index quarters ply : Nat) : State :=
  if on && rgb s rOBS_TRC_CFG 31 then
    traceRec s l isEnd e retried dropped c index ((pwrGet s (tilePart s l)).stretchAll % 256) ((quarters ||| quarters / 16) % 16) ply
  else s

/-- A command that stops at a fault has returned: its entry frees, and it does not count as completed. -/
def cmdStopped (s : State) (l c i : Nat) : State :=
  match tget none (tileGet s l).sb i with
  | none => s
  | some x =>
    traceCmd (sbPut s l i none) x.traced l c x.engine true x.retried false x.index x.quarters x.ply

/-- What ties a command to others in its engine's queue: QSPAN of a MATMUL, the Thresher it goes to, the record that a score-port
command names. -/
def spanOf (s : State) (l : Nat) (x : Ctx) (w : List Nat) : Nat :=
  match cwEngine w with
  | 1 => bits (cwFlags w) 18 17
  | 2 => thrMember s l
  | 5 => if cwOp w = 4 then 0 else physA s l x.img 1 (opdOf x.img x.b 0 (cwOpd w 1)).a
  | _ => 0

/-- The work of an issued command. -/
def jobOf (x : Ctx) (w : List Nat) (hits : List EngHit) : Job :=
  { w := w, iters := itersOf x w, next := 0, b := x.b, n := x.n, img := x.img, hits := hits }

/-- The scoreboard entry of a command that issues (R99). -/
def sbEntry (s : State) (l c : Nat) (x : Ctx) (w : List Nat) (hits : List EngHit) : SbEnt :=
  { ctx := c, ply := x.ply, engine := cwEngine w, op := cwOp w, index := x.pos, sig := sigOf w, iters := itersOf x w, issued := s.gt,
    order := s.jorder, span := spanOf s l x w, quarters := 0, retried := false, inPass := false, todo := some (jobOf x w hits),
    gone := false, groups := [], traced := traced s l (cwEngine w) c }

/-- Quarters that a begin record names: those a Sheaf command has; of one that waits, those of a span that leaves no choice. -/
def beginQuarters (s : State) (l i span : Nat) : Nat :=
  match tget none (tileGet s l).sb i with
  | some y => if y.engine = 1 ∧ y.quarters = 0 ∧ (spanMasks (braided s l) span).length = 1 then (spanMasks (braided s l) span).headD 0
    else y.quarters
  | none => 0

/-- An issued command enters its engine's queue at scoreboard entry `i`; its begin record. -/
def enqueueCmd (s : State) (l c i : Nat) (x : Ctx) (w : List Nat) (hits : List EngHit) : State :=
  let e := cwEngine w
  let s := sbPut { s with jorder := s.jorder + 1 } l i (some (sbEntry s l c x w hits))
  let s := if e = 1 then shfAssign s l else s
  traceCmd s (traced s l e c) l c e false false false x.pos (beginQuarters s l i (spanOf s l x w)) x.ply

/-- What an issue itself does: waits consumed, energy charged, ring and round robin moved, counters (R96, R98, R298). -/
def issueTaken (s : State) (l c : Nat) (x : Ctx) (w : List Nat) : State :=
  let s := charge (waitsTake s l x.img w) (tilePart s l) (costOf s x w)
  let s := ctxPut s c { ctxGet s c with pos := (x.pos + 1) % max 1 x.img.streamLen }
  let t := tileGet s l
  let s := tilePut s l { t with rr := tset 1023 t.rr (prioOf s c) (c % 1024), lastIssue := s.gt }
  scopeStart (cinc (bump s (rTIL_ISSUED (tileSite s l))) (cTile l 7) 1) l (cwEngine w) c

/-- Array faults strike and correctable errors are corrected before the engine reads (R194). -/
def hitsStrike (s : State) (hits : List EngHit) : State :=
  hits.foldl (fun s h => match h with
    | .ue a => tierStrike s a
    | .ce bank unit => bankCe s (bank % 4096) (unit % 32768)
    | .fix a => if sramBase 0 ≤ a ∧ a < sramBase 20 then sramCorrected s a else s
    | .mismatch .. => s) s

/-- Times of a unit's mismatches in the last 10 ms, with one more now: how many. -/
def mismatchNote (s : State) (key : Nat) : Nat × State :=
  let old := (tget [] s.flt.mism key).filter fun t => decide (t + 10000000 > s.gt)
  (old.length + 1, { s with flt := { s.flt with mism := tset [] s.flt.mism key (old ++ [s.gt]) } })

/-- The controller is told that a site has failed, with the cube that the diagnostics identify or the lanes that failed (R151, R173,
Table FLT-1). -/
def siteTell (s : State) (t : Nat) (cube : Option Nat) (lanes : Nat) : State :=
  { s with flt := { s.flt with siteOut := s.flt.siteOut ++ [(t, cube, lanes)] } }

/-- Report a check mismatch of an engine of a site: class 1, repeated (R149, R171, R312). -/
def tileCheck (s : State) (l engine : Nat) : State :=
  let site := tileSite s l
  faultInstant (lifeSite s site 31 16) 1 (unitCode 1 (site * 8 + engine)) (tilePart s l) 0 2 2 (r5holds s) false

/-- One mismatch of VX, the Mover or the dispatcher: counted; the second within 10 ms fails the site (Table FLT-1, class 1). -/
def dupCheck (s : State) (l engine : Nat) : State :=
  let (n, s) := mismatchNote (tileCheck s l engine) (unitCode 1 (tileSite s l * 8 + engine) * 8)
  if n ≥ 2 then siteTell s (tileSite s l) none 0 else s

/-- The mismatches of VX, the Mover or the dispatcher, in a command: the work of each is repeated once; a mismatch of the repetition leaves the command
without a result. Answers whether the command runs. -/
def dupMismatch (s : State) (l engine : Nat) (hits : List EngHit) : Bool × State :=
  hits.foldl (fun (a : Bool × State) h => match h with
    | .mismatch _ _ _ recurs => if recurs then (false, dupCheck (dupCheck a.2 l engine) l engine) else (a.1, dupCheck a.2 l engine)
    | _ => a) (true, s)

/-- Issue the head command `w` of context `c` (R98, R100). A dispatcher command completes; another enters its engine's queue with what
the engine will meet. A mismatch of the dispatcher's duplicate compare repeats its own command once, and one that recurs leaves it
at the head for the site that takes over (Table FLT-1, class 1). The begin record of a Sheaf command that waits for quarters names them only where its span leaves no choice. -/
def issueCmd (s : State) (l c : Nat) (w : List Nat) (hits : List EngHit) : State :=
  let x := ctxGet s c
  let e := cwEngine w
  let n := itersOf x w
  match (List.range n).findSome? fun j => opdFault s l x.img x.b j w with
  | some f => ctxFault s c e f
  | none =>
    if e = 0 then
      match dupMismatch (hitsStrike s hits) l 0 hits with
      | (false, s) => s
      | (true, s) =>
        match dispOp (traceCmd (issueTaken s l c x w) (traced (issueTaken s l c x w) l 0 c) l c 0 false false false x.pos 0 x.ply) l c w with
        | (s, some f) => engFault s l c 0 0 f
        | (s, none) => signal s l c 0 x.img (sigOf w)
    else
    let s := issueTaken s l c x w
    if cwBatch w && n == 0 then
      let on := traced s l e c
      let s := traceCmd s on l c e false false false x.pos 0 x.ply
      signal (traceCmd s on l c e true false false x.pos 0 x.ply) l c e x.img (sigOf w)
    else
      match sbFree s l with
      | none => s
      | some i => enqueueCmd s l c i x w hits

/-- The row of engine `e` and operation `op` at tile `l`: a head command of the row that must fault does so, else
the candidate of R98 issues if it is of the row. -/
def issueRow (e op l : Nat) (hits : List EngHit) (s : State) : State :=
  let bad := (tileCtxs s l).find? fun c => ctxRuns (ctxGet s c) && rowIs e op (headOf s c) && (headFault s c).isSome
  match bad with
  | some c => (match headFault s c with | some f => engFault s l c 0 (cwEngine (headOf s c)) f | none => s)
  | none =>
    match candidate s l with
    | some c => if rowIs e op (headOf s c) then issueCmd s l c (headOf s c) hits else s
    | none => s

/-! ### Completion (R97, R99, R102) -/

/-- COMMAND_COMPLETE: the entry frees; a completion under an older PLY is dropped and counted, any other applies its
signal. A command that has not started, a member of a pass, and any command after a trip (R307) have not completed. -/
def commandComplete (s : State) (l i : Nat) : State :=
  match tget none (tileGet s l).sb i with
  | none => s
  | some x =>
    if x.todo.isSome || x.inPass || s.pwr.tripped then s else
    let c := x.ctx
    let s := sbPut s l i none
    let site := tileSite s l
    let s := if x.gone then s else if x.engine = 1 then shfBump s l x.quarters rSHF_CMDS (fun _ => 1) else if x.engine = 2 then bump s (rTHR_CMDS (tileSite s (l + x.span))) else s
    let drop := x.ply != (ctxGet s c).ply
    let s := traceCmd s x.traced l c x.engine true x.retried drop x.index x.quarters x.ply
    if drop then cinc (bump s (rTIL_PLY_DROP site)) (cTile l 16) 1
    else signal s l c (unitOf x.engine x.quarters) (ctxGet s c).img x.sig

/-! ### Host commands on contexts (R101, R104, R108, Table TIL-12) -/

/-- RESULT of a context's last command. -/
def ctxResult (s : State) (c r : Nat) : State := ctxPut s c { ctxGet s c with result := r }

/-- Knot offset that a site's TIL_KNOT_SEL holds. -/
def knotSel (s : State) (l : Nat) : Nat := rg s (rTIL_KNOT_SEL (tileSite s l)) % 8192

/-- TIL_CTX_CMD for context `c`: the state is checked first, then the knot offset. -/
def ctxCommand (s : State) (op c : Nat) : State :=
  let x := ctxGet s c
  let l := c / 1024
  if braidOdd s l then ctxResult s c 1
  else match op with
  | 1 => if x.state = 1 then ctxResult (teardown s c) c 0 else ctxResult s c 1
  | 2 => if x.state = 1 then ctxResult (ctxFault s c 0 (fltAt 9 0)) c 0 else ctxResult s c 1
  | 3 =>
    if x.state = 0 then ctxResult s c 1
    else if knotSel s l ≥ x.img.knotCount then ctxResult s c 2
    else ctxResult (rgw s (rTIL_KNOT_VAL (tileSite s l)) (knotGet s l x.img (knotSel s l))) c 0
  | 4 =>
    if x.state ≠ 3 then ctxResult s c 1
    else if knotSel s l ≥ x.img.knotCount then ctxResult s c 2
    else ctxResult (knotPut s l x.img (knotSel s l) (rg s (rTIL_KNOT_VAL (tileSite s l)))) c 0
  | _ => ctxResult s c 5

/-! ### TIL registers (R108) -/

/-- The context that a site's TIL_CTX_SEL names, if the site has a logical tile. -/
def siteCtx (s : State) (t : Nat) : Option Nat :=
  let l := (siteGet s t).lt
  if l < 20 then some (l * 1024 + rg s (rTIL_CTX_SEL t) % 1024) else none

/-- The epoch a site reads: the global one while it is in service, frozen once fenced (R428). -/
def siteEpoch (s : State) (t : Nat) : Nat :=
  let v := siteGet s t
  if v.fenced || v.role == 2 then v.epoch else rg s rGLB_EPOCH % 65536

/-- Computed TIL registers of site `t`. -/
def tilRegRead (s : State) (t o : Nat) : Option Nat :=
  let v := siteGet s t
  let l := v.lt
  match o with
  | 0x000 => some (t * 2 ^ 27 + (l % 32) * 2 ^ 22 + (v.role % 4) * 2 ^ 20 + b2n (decide (l < 20) && braided s l) * 2 ^ 19 +
      b2n (decide (l < 20) && braidOdd s l) * 2 ^ 18 + siteEpoch s t)
  | 0x004 => if l < 20 then some (min 511 (sbUsed s l).length * 65536 + (tileGet s l).rq.length) else some 0
  | 0x014 => some 0
  | 0x018 => match siteCtx s t with
    | none => some 0
    | some c =>
      let x := ctxGet s c
      let st := if braidOdd s l then 0 else x.state
      some (st * 2 ^ 30 + x.active * 2 ^ 29 + x.ply % 4096 * 65536 + min 64 (outAll s c) * 256 + x.fault % 16 * 16 + x.result % 8)
  | 0x01C => some (match siteCtx s t with | some c => (ctxGet s c).cfg | none => 0)
  | 0x020 => some (match siteCtx s t with | some c => (ctxGet s c).bound | none => 0)
  | 0x024 => some (match siteCtx s t with | some c => (ctxGet s c).defCls | none => 0)
  | _ => none

/-- Writes to TIL registers of site `t` that are not plain storage. A retired or fenced site ignores writes (R425). -/
def tilRegWrite (s : State) (t o v : Nat) : Option State :=
  let st := siteGet s t
  if st.fenced || st.role == 2 then some s else
  match o with
  | 0x014 => some (match siteCtx s t with | some c => ctxCommand s (bits v 31 28) c | none => s)
  | 0x01C => some (match siteCtx s t with | some c => ctxPut s c { ctxGet s c with cfg := v &&& 0xF87F7F7F } | none => s)
  | 0x020 => some (match siteCtx s t with | some c => ctxPut s c { ctxGet s c with bound := v % 65536 } | none => s)
  | 0x024 => some (match siteCtx s t with | some c => ctxPut s c { ctxGet s c with defCls := v % 1024 } | none => s)
  | _ => none

/-! ### The commands -/

/-- REQUEST_ADMIT (R88). -/
def execRequestAdmit (l : Nat) (ue : Bool) (s : State) : Host.Outcome State Fault Refusal := .next (requestAdmit s l ue)

/-- NOP (R95). -/
def execNop (d : DispRun) (s : State) : Host.Outcome State Fault Refusal := .next (issueRow 0 0 d.tile d.hits s)

/-- TAKE (R91). -/
def execTake (d : DispRun) (s : State) : Host.Outcome State Fault Refusal := .next (issueRow 0 1 d.tile d.hits s)

/-- POST (R92). -/
def execPost (d : DispRun) (s : State) : Host.Outcome State Fault Refusal := .next (issueRow 0 2 d.tile d.hits s)

/-- KSET (R96). -/
def execKset (d : DispRun) (s : State) : Host.Outcome State Fault Refusal := .next (issueRow 0 3 d.tile d.hits s)

/-- TEARDOWN (R101). -/
def execTeardown (ctx : Nat) (s : State) : Host.Outcome State Fault Refusal := .next (ctxCommand s 1 ctx)

/-- FAULT (R100). -/
def execCtxFault (ctx : Nat) (s : State) : Host.Outcome State Fault Refusal := .next (ctxCommand s 2 ctx)

/-- KNOT_READ (R108). -/
def execKnotRead (ctx : Nat) (s : State) : Host.Outcome State Fault Refusal := .next (ctxCommand s 3 ctx)

/-- KNOT_WRITE (R108). -/
def execKnotWrite (ctx : Nat) (s : State) : Host.Outcome State Fault Refusal := .next (ctxCommand s 4 ctx)

/-- QUIESCE_END (R103). -/
def execQuiesceEnd (ctx : Nat) (s : State) : Host.Outcome State Fault Refusal := .next (quiesceEnd s ctx)

end Sys2Proof.Machine
end

