-- ==== Sys2Proof/Machine/Access.lean ====
section
/-! DEFINITION. What the engines share: checked reads and writes of a context's spaces, check mismatches, uncorrectable
errors met by an engine (R7, R94, R149, R171, R312, R326). -/

namespace Sys2Proof.Machine

/-- Read `n` bytes of a space: outside its region or window ADDR_RANGE, uncorrectable ENGINE. -/
def rdChk (s : State) (l : Nat) (v : SlotImg) (sp a n : Nat) : Except CtxFlt Bytes :=
  if !inWin v sp a n then .error (fltAt 3 (physA s l v sp a))
  else match spBad s l v sp a n with
    | some b => .error (fltAt 8 b)
    | none => .ok (spR s l v sp a n)

/-- Write bytes of a space under the same checks: a write that faults stores nothing. -/
def wrChk (s : State) (l : Nat) (v : SlotImg) (sp a : Nat) (b : Bytes) : State × Option CtxFlt :=
  if !inWin v sp a b.length then (s, some (fltAt 3 (physA s l v sp a)))
  else match spWBad s l v sp a b.length with
    | some x => (s, some (fltAt 8 x))
    | none => (spW s l v sp a b, none)

/-- Writes in order, up to the first that faults. -/
def wrAll (l : Nat) (v : SlotImg) (sp : Nat) : List (Nat × Bytes) → State → State × Option CtxFlt
  | [], s => (s, none)
  | (a, b) :: r, s =>
    match wrChk s l v sp a b with
    | (s, none) => wrAll l v sp r s
    | x => x

/-- The mismatch that strikes piece of work `place`, if one does: its unit, its cube, does it recur. -/
def mismatchAt (hits : List EngHit) (place : Nat) : Option (Nat × Nat × Bool) :=
  hits.findSome? fun h => match h with
    | .mismatch u k p r => if p = place then some (u, k, r) else none
    | _ => none

/-- Run the iterations of a command in turn, up to the first fault (R95). -/
def iterate (n : Nat) (f : State → Nat → State × Option CtxFlt) (s : State) : State × Option CtxFlt :=
  (List.range n).foldl (fun (a : State × Option CtxFlt) j => match a.2 with | some _ => a | none => f a.1 j) (s, none)

/-- Two byte ranges overlap. -/
def overlaps (a n b m : Nat) : Bool := decide (a < b + m ∧ b < a + n)

/-- The logical tile whose queue a site's engines serve, and the member the site is. -/
def siteMember (s : State) (t : Nat) : Option (Nat × Nat) :=
  let l := (siteGet s t).lt
  if l ≥ 20 then none else if braidOdd s l then some (l - 1, 1) else some (l, 0)

end Sys2Proof.Machine
end

