-- ==== Sys2Proof/Machine/Sheaf.lean ====
section
/-! DEFINITION. The Sheaf: MATMUL and the SHF registers (R116, R117, R119, R124 to R127, R129 to R153). -/

namespace Sys2Proof.Machine

/-! ### The command -/

/-- Nt of a QSPAN (Table SHF-2). -/
def mmNt (braid : Bool) (q : Nat) : Nat :=
  match q with
  | 1 => 8
  | 2 => 16
  | 3 => 32
  | _ => if braid then 64 else 32

/-- A MATMUL with its operands resolved (SRAM addresses) and its parameter record. -/
structure Mm where
  a : Nat
  b : Nat
  c : Nat
  asc : Nat
  bsc : Nat
  bias : Nat
  cin : Nat
  k : Nat
  m : Nat
  n : Nat
  cs : Nat
  af : Nat
  bf : Nat
  kt : Nat
  nt : Nat
  acc : Bool
  hasBias : Bool
  sat : Bool
  out : Nat
deriving Repr, Inhabited

/-- Bytes of an element of C (R140). -/
def mmEsz (x : Mm) : Nat := if x.out = 2 then 2 else 4

/-- The command's EFLAGS and parameter record, checked before any write (R136, R137). -/
def mmSetup (s : State) (l : Nat) (x : Job) (j : Nat) : Except CtxFlt Mm := do
  let v := x.img
  let at_ := fun i => (opdOf v x.b j (cwOpd x.w i)).a
  let rec_ ← rdChk s l v 0 (opdOf v x.b j (noRel (cwOpd x.w 3))).a 32
  let r := words8 rec_
  let p := fun i => r.getD i 0
  let f := cwFlags x.w
  let q := bits f 18 17
  let af := bits f 11 8
  let bf := bits f 7 4
  let out := bits f 13 12
  let k := p 0
  let m := bits (p 1) 29 16
  let n := bits (p 1) 15 0
  let cs := p 2
  let esz := if out = 2 then 2 else 4
  let bad := out == 3 || f % 16 != 0 || decide (k = 0 ∨ k > 65536) || m == 0 || n == 0 || bits (p 1) 31 30 != 0 ||
    p 7 != 0 || cs % 64 != 0 || decide (cs < n * esz) || (bit f 15 && out == 0)
  match (if bad then none else mmKt af bf) with
  | none => .error (fltAt 4 0)
  | some kt =>
    let words := (if af = 4 then [] else [p 3]) ++ (if bf = 4 then [] else [p 4]) ++ (if bit f 15 then [p 5] else []) ++
      (if bit f 16 then [p 6] else [])
    match words.find? fun z => bits z 31 30 != 0 with
    | some z => .error (rangeFault s l v (opdOf v x.b j z))
    | none =>
      let res := fun i => (opdOf v x.b j (p i)).a
      .ok { a := at_ 0, b := at_ 1, c := at_ 2, asc := res 3, bsc := res 4, bias := res 5, cin := res 6, k := k, m := m,
            n := n, cs := cs, af := af, bf := bf, kt := kt, nt := mmNt (braided s l) q, acc := bit f 16,
            hasBias := bit f 15, sat := bit f 14, out := out }

/-! ### Block checks (R126, R127, R138) -/

/-- A block is skewed: SCALE_SKEW with the operand number, the block index and both tags. -/
def skewAt (opd blk dtag stag : Nat) : CtxFlt := ⟨7, leBytes 1 opd ++ leBytes 2 blk ++ leBytes 1 dtag ++ leBytes 1 stag⟩

/-- The tags and formats of a block's first `rows` scale entries against its header, and its TAG against the previous
block's (R126). Answers the block's TAG. -/
def tagCheck (opd blk : Nat) (hdr scales : Bytes) (rows : Nat) (prev : Option Nat) : Except CtxFlt Nat :=
  let tag := byteAt hdr 0 % 64
  let fmt := byteAt hdr 1 % 16
  let off := (List.range rows).find? fun i => byteAt scales (16 * i + 12) % 64 != tag || byteAt scales (16 * i + 13) % 16 != fmt
  let broken := match prev with | some t => decide (tag ≠ (t + 1) % 64) | none => false
  match off with
  | some i => .error (skewAt opd blk tag (byteAt scales (16 * i + 12) % 64))
  | none => if broken then .error (skewAt opd blk tag (byteAt scales 12 % 64)) else .ok tag

/-- Check block `blk` of a quantised operand of `total` rows: header, then tags. -/
def mmBlock (s : State) (l : Nat) (v : SlotImg) (opd base sbase fmt k total blk : Nat) (prev : Option Nat) : Except CtxFlt Nat := do
  let hdr ← rdChk s l v 0 (base + blk * blkBytes k fmt) 64
  let rows := min 16 (total - 16 * blk)
  if leAt hdr 4 4 % 2 ^ 17 ≠ k ∨ leAt hdr 2 2 % 32 ≠ rows ∨ byteAt hdr 1 % 16 ≠ fmt then .error (fltAt 4 0)
  else
    let sc ← rdChk s l v 0 (sbase + 256 * blk) 256
    tagCheck opd blk hdr sc rows prev

/-- Check consecutive blocks in turn. -/
def mmBlocks (s : State) (l : Nat) (v : SlotImg) (opd base sbase fmt k total : Nat) : List Nat → Option Nat → Except CtxFlt (Option Nat)
  | [], prev => .ok prev
  | b :: r, prev =>
    match mmBlock s l v opd base sbase fmt k total b prev with
    | .error e => .error e
    | .ok t => mmBlocks s l v opd base sbase fmt k total r (some t)

/-! ### Output tiles (R140 to R145) -/

/-- Elements of a row: codes of `k` elements (Table NUM-1). -/
def rowElems (fmt k : Nat) (b : Bytes) : List Nat :=
  (List.range k).map fun i =>
    match fmtBits fmt with
    | 4 => (byteAt b (i / 2) >>> (4 * (i % 2))) % 16
    | 16 => leAt b (2 * i) 2
    | 32 => leAt b (4 * i) 4
    | _ => byteAt b i

/-- Lists of at most `kt` elements, in order: the steps of the fixed K-order. -/
def stepsOf {α : Type} (kt : Nat) : Nat → List α → List (List α)
  | 0, _ => []
  | n + 1, l => if l.isEmpty then [] else l.take kt :: stepsOf kt n (l.drop kt)

/-- An integer element in the fixed K-order: accumulator and whether an add saturated (R142, R143). -/
def mmInt (kt : Nat) (cin : Int) (ps : List (Int × Int)) : Int × Bool :=
  (stepsOf kt ps.length ps).foldl (fun (a : Int × Bool) st =>
    let p := (st.map fun e => e.1 * e.2).foldl (· + ·) 0
    let (v, o) := satAdd32 a.1 p
    (v, a.2 || o)) (cin, false)

/-- A float element in the fixed K-order: each step's exact sum, one rounding per add (R117, R142). -/
def mmFloat (kt cin : Nat) (ps : List (FNum × FNum)) : Nat :=
  (stepsOf kt ps.length ps).foldl (fun a st =>
    let p := (st.map fun e => prodR117 e.1 e.2).foldl FNum.add (.fin true 0 0)
    encF32 ((decF32 a).add p)) cin

/-- Row `i` of an operand: block, place in it, and its scale entry when quantised. -/
def mmRow (s : State) (l : Nat) (v : SlotImg) (base sbase fmt k i : Nat) : Except CtxFlt (List Nat × Bytes) := do
  let rb := rowBytes k fmt
  if fmt = 4 then
    let b ← rdChk s l v 0 (base + i * rb) (2 * k)
    return (rowElems 4 k b, List.replicate 16 0)
  else
    let b ← rdChk s l v 0 (base + i / 16 * blkBytes k fmt + 64 + i % 16 * rb) (cdiv (k * fmtBits fmt) 8)
    let e ← rdChk s l v 0 (sbase + 256 * (i / 16) + 16 * (i % 16)) 16
    return (rowElems fmt k b, e)

/-- One element in the form OUT selects (R144, R145), and whether it saturated. -/
def mmElem (x : Mm) (ra rb : List Nat × Bytes) (cin : Nat) (bias : Option Nat) : Nat × Bool :=
  let nf := bit (byteAt ra.2 12) 7 || bit (byteAt rb.2 12) 7
  let sa := leAt ra.2 0 4
  let sw := leAt rb.2 0 4
  let fin := fun (y : Nat) => if x.out = 2 then encWide 8 x.sat (decF32 y) else y
  let nan := if x.out = 2 then nanBf16 else nanF32
  if x.af = 0 then
    let ps := (ra.1.map (toSigned 8)).zip (rb.1.map (toSigned (fmtBits x.bf)))
    let (acc, o) := mmInt x.kt (toSigned 32 cin) ps
    if x.out = 0 then (ofSigned 32 acc, o)
    else (if nf then nan else fin (deqInt acc (toSigned 32 (leAt ra.2 4 4)) (toSigned 32 (leAt rb.2 8 4)) sa sw bias), o)
  else
    let ps := (ra.1.map (decFmt x.af)).zip (rb.1.map (decFmt x.bf))
    let acc := mmFloat x.kt cin ps
    if x.out = 0 then (acc, false)
    else if nf then (nan, false)
    else if x.af = 4 then (fin (match bias with | some b => f32add acc b | none => acc), false)
    else (fin (deqFloat acc sa sw bias), false)

/-- The rows of C that output tile (`nt`, `ms`) writes, and whether an element saturated. -/
def mmTile (s : State) (l : Nat) (v : SlotImg) (x : Mm) (nt ms : Nat) : Except CtxFlt (List (Nat × Bytes) × Bool) := do
  let rows := (List.range (min 16 (x.m - 16 * ms))).map fun i => 16 * ms + i
  let n0 := nt * x.nt
  let cols := min x.nt (x.n - n0)
  let bs ← (List.range cols).mapM fun i => mmRow s l v x.b x.bsc x.bf x.k (n0 + i)
  let bias ← if x.hasBias then rdChk s l v 0 (x.bias + 4 * n0) (4 * cols) else pure []
  let esz := mmEsz x
  rows.foldlM (fun (a : List (Nat × Bytes) × Bool) m => do
    let ra ← mmRow s l v x.a x.asc x.af x.k m
    let cin ← if x.acc then rdChk s l v 0 (x.cin + m * x.cs + 4 * n0) (4 * cols) else pure []
    let es := (List.range cols).map fun i =>
      mmElem x ra (bs.getD i ([], [])) (leAt cin (4 * i) 4) (if x.hasBias then some (leAt bias (4 * i) 4) else none)
    return (a.1 ++ [(x.c + m * x.cs + esz * n0, es.flatMap fun e => leBytes esz e.1)], a.2 || es.any fun e => e.2)) ([], false)

/-- C overlaps CIN, an operand block, a scale block or BIASV (R150). -/
def mmOverlap (x : Mm) : Bool :=
  let n := (x.m - 1) * x.cs + x.n * mmEsz x
  let q := fun (rows fmt : Nat) => if fmt = 4 then rows * rowBytes x.k 4 else blocksBytes rows x.k fmt
  overlaps x.c n x.a (q x.m x.af) || overlaps x.c n x.b (q x.n x.bf) ||
  (x.af != 4 && overlaps x.c n x.asc (256 * cdiv x.m 16)) || (x.bf != 4 && overlaps x.c n x.bsc (256 * cdiv x.n 16)) ||
  (x.hasBias && overlaps x.c n x.bias (4 * x.n)) ||
  (x.acc && overlaps x.c n x.cin ((x.m - 1) * x.cs + 4 * x.n))

/-! ### Mismatch (R150, R151) -/

/-- QFAILED of a quarter of the site of a tile's member; the controller is told the quarter's site and the cube (R151). -/
def shfFail (s : State) (l q cube : Nat) : State :=
  let site := tileSite s (l + q / 4 % 2)
  siteTell (rgwb s (rSHF_STATUS site) (24 + q % 4) true) site (some cube) 0

/-- A mismatch in quarter `q` (0 to 3 of the even member, 4 to 7 of the odd): counted; the third within 10 ms fails the
quarter. -/
def shfMismatch (s : State) (l q cube : Nat) : State :=
  let m := l + q / 4 % 2
  let site := tileSite s m
  let s := bump (tileCheck s m 1) (rSHF_RESIDUE_ERR site)
  let (n, s) := mismatchNote s (unitCode 1 (site * 8 + 1) * 8 + q % 4)
  if n ≥ 3 then shfFail s l q cube else s

/-- What a mismatch does to the command: it goes on after its retry, or faults with ENGINE. A second one in the same iteration
(`again`) strikes the retry. -/
def mmHit (s : State) (l slot : Nat) (x : Mm) (q cube : Nat) (recurs again : Bool) : State × Option CtxFlt :=
  let s := shfMismatch s l q cube
  if mmOverlap x then (s, some (fltAt 8 0))
  else if again then (shfFail s l q cube, some (fltAt 8 0))
  else
    let s := bump s (rSHF_RETRY (tileSite s (l + q / 4 % 2)))
    let s := match tget none (tileGet s l).sb slot with
      | some e => sbPut s l slot (some { e with retried := true })
      | none => s
    if recurs then (shfFail (shfMismatch s l q cube) l q cube, some (fltAt 8 0)) else (s, none)

/-! ### Running -/

/-- A MATMUL under way: state, TAG of the last block of A and of B that was checked, output tiles written so far, those of earlier
iterations, output tiles that the array went through, retried in this iteration, saturation seen, the fault that stopped it. -/
structure MmRun where
  s : State
  pa : Option Nat
  pb : Option Nat
  done : Nat
  base : Nat
  steps : Nat
  again : Bool
  sat : Bool
  flt : Option CtxFlt

/-- The blocks of A and B that output tile (`nt`, `ms`) is the first to use, checked (R127). -/
def mmFirst (r : MmRun) (l : Nat) (v : SlotImg) (x : Mm) (nt ms : Nat) : Except CtxFlt (Option Nat × Option Nat) := do
  let pa ← if nt = 0 ∧ x.af ≠ 4 then mmBlocks r.s l v 0 x.a x.asc x.af x.k x.m [ms] r.pa else pure r.pa
  let n0 := nt * x.nt
  let last := (min (n0 + x.nt) x.n - 1) / 16
  let first := cdiv n0 16
  let pb ← if ms = 0 ∧ x.bf ≠ 4 then
      mmBlocks r.s l v 1 x.b x.bsc x.bf x.k x.n ((List.range (last + 1 - first)).map (first + ·)) r.pb
    else pure r.pb
  return (pa, pb)

/-- One output tile: block checks, the tile, a mismatch if one strikes here, its write. A mismatch has the array go through the
iteration's tiles up to this one once more. -/
def mmStep (l slot : Nat) (v : SlotImg) (x : Mm) (hits : List EngHit) (r : MmRun) (t : Nat × Nat) : MmRun :=
  if r.flt.isSome then r else
  match mmFirst r l v x t.1 t.2 with
  | .error e => { r with flt := some e }
  | .ok (pa, pb) =>
    match mmTile r.s l v x t.1 t.2 with
    | .error e => { r with flt := some e }
    | .ok (ws, o) =>
      let here := r.done - r.base + 1
      match mismatchAt hits r.done with
      | some (q, cube, recurs) =>
        (match mmHit r.s l slot x q cube recurs r.again with
        | (s, some e) => { r with s := s, steps := r.steps + 1 + (if recurs && !mmOverlap x && !r.again then here else 0), flt := some e }
        | (s, none) =>
          let (s, e) := wrAll l v 0 ws s
          { r with s := s, pa := pa, pb := pb, done := r.done + 1, steps := r.steps + 1 + here, again := true, sat := r.sat || o, flt := e })
      | none =>
        let (s, e) := wrAll l v 0 ws r.s
        { r with s := s, pa := pa, pb := pb, done := r.done + 1, steps := r.steps + 1, sat := r.sat || o, flt := e }

/-- Cycles of one output tile: max(St, W) (R146). -/
def mmCycles (x : Mm) (wide : Bool) : Nat :=
  max (cdiv x.k x.kt) (max 1 (16 * x.nt * mmEsz x / (if wide then 1024 else 512)))

/-- MATMUL on the quarters that its entry has. -/
def runMatmul : EngineRun := fun s l slot job =>
  let mask := match tget none (tileGet s l).sb slot with | some e => e.quarters | none => 0
  let go := fun (a : MmRun × Nat) (j : Nat) =>
    if a.1.flt.isSome then a else
    match mmSetup a.1.s l job j with
    | .error e => ({ a.1 with flt := some e }, a.2)
    | .ok x =>
      let tiles := (List.range (cdiv x.n x.nt)).flatMap fun nt => (List.range (cdiv x.m 16)).map fun ms => (nt, ms)
      let r := tiles.foldl (mmStep l slot job.img x job.hits) { a.1 with pa := none, pb := none, base := a.1.done, steps := 0, again := false }
      (r, a.2 + r.steps * mmCycles x (x.nt == 64))
  let (r, cyc) := (List.range job.iters).foldl go
    ({ s := s, pa := none, pb := none, done := 0, base := 0, steps := 0, again := false, sat := false, flt := none }, 0)
  let count := fun (m : Nat) => ((List.range 4).filter fun i => bit m i).length
  let add := fun (s : State) (t m : Nat) => if m = 0 then s else bumpDiv s (rSHF_STEPS (tileSite s t)) (cyc * count m) 4
  let s := add (add r.s l (mask % 16)) (l + 1) (mask / 16)
  (if r.sat then shfBump s l mask rSHF_ACC_SAT (fun _ => 1) else s, r.flt)

/-! ### Registers (R153) -/

/-- Computed SHF registers of site `t`. -/
def shfRegRead (s : State) (t o : Nat) : Option Nat :=
  match o with
  | 0x000 =>
    let failed := rgf s (rSHF_STATUS t) 27 24
    match siteMember s t with
    | none => some (failed * 2 ^ 24)
    | some (l, m) =>
      let es := sbEngine s l 1
      let busy := es.foldl (fun a e => a ||| e.2.quarters) 0
      let waiting := (es.filter fun e => e.2.quarters == 0).length
      some ((busy / 16 ^ m % 16) * 2 ^ 28 + failed * 2 ^ 24 + b2n (decide (waiting > 0)) * 2 ^ 23 + b2n (braided s l) * 2 ^ 22 +
        min 4 (if m = 0 then waiting else waiting - 4) * 2 ^ 16)
  | _ => none

end Sys2Proof.Machine
end

