-- ==== Sys2Proof/Machine/Vector.lean ====
section
/-! DEFINITION. The vector engine and the Mover (R106, R107, R114, R115, R118, R121 to R127, R189). Elements of FMA,
REDUCE, SOFTMAX and NORM are FP32, of EW FP32 or BF16, of LUT BF16; a row starts on a 64-byte boundary and its bytes after the last element
are written as zero; EFLAGS that an operation does not define must be zero (log entries 8 and 25). -/

namespace Sys2Proof.Machine

/-! ### Rows -/

/-- Rows and columns of OPD3 (R106), zero in neither. -/
def vxShape (w : List Nat) : Except CtxFlt (Nat × Nat) :=
  let r := bits (cwOpd w 3) 29 16
  let c := cwOpd w 3 % 65536
  if r = 0 ∨ c = 0 then .error (fltAt 4 0) else .ok (r, c)

/-- Address of row `r` of an array of `c` elements of a format. -/
def vxRowA (o : Opd) (c fmt r : Nat) : Nat := o.a + r * rowBytes c fmt

/-- Read row `r`. -/
def vxRow (s : State) (l : Nat) (v : SlotImg) (o : Opd) (c fmt r : Nat) : Except CtxFlt (List Nat) := do
  let b ← rdChk s l v o.sp (vxRowA o c fmt r) (cdiv (c * fmtBits fmt) 8)
  return rowElems fmt c b

/-- Bytes of elements of a format; INT4 packs two a byte, the even element low (Table NUM-1). -/
def packElems (fmt : Nat) : List Nat → Bytes
  | [] => []
  | [x] => if fmtBits fmt = 4 then leBytes 1 (x % 16) else leBytes (fmtBits fmt / 8) x
  | x :: y :: r =>
    if fmtBits fmt = 4 then leBytes 1 (x % 16 + 16 * (y % 16)) ++ packElems fmt r
    else leBytes (fmtBits fmt / 8) x ++ packElems fmt (y :: r)

/-- Write row `r`, its bytes after the last element zero (R115). -/
def vxPut (s : State) (l : Nat) (v : SlotImg) (o : Opd) (c fmt r : Nat) (e : List Nat) : State × Option CtxFlt :=
  wrChk s l v o.sp (vxRowA o c fmt r) (padTo (rowBytes c fmt) (packElems fmt e))

/-- Rows in turn, each from what its reads give. -/
def vxRows (n : Nat) (f : State → Nat → Except CtxFlt (List Nat)) (put : State → Nat → List Nat → State × Option CtxFlt)
    (s : State) : State × Option CtxFlt :=
  iterate n (fun s r => match f s r with
    | .error e => (s, some e)
    | .ok e => put s r e) s

/-! ### Arithmetic (R106) -/

/-- EW on one element pair. -/
def ewOp (op a b : Nat) : Nat :=
  match op with
  | 0 => f32add a b
  | 1 => f32sub a b
  | 2 => f32mul a b
  | 3 => f32max true a b
  | 4 => f32max false a b
  | _ => encF32 (decF32 a)

/-- One level of the binary tree: neighbours combine, an odd last element is carried up (log entry 8). -/
def treeLevel (f : Nat → Nat → Nat) : List Nat → List Nat
  | [] => []
  | [x] => [x]
  | x :: y :: r => f x y :: treeLevel f r

/-- The fixed binary tree over one chunk: at most 8 levels for 256 elements. -/
def treeReduce (f : Nat → Nat → Nat) (l : List Nat) : Nat := ((List.range 8).foldl (fun l _ => treeLevel f l) l).headD 0

/-- A reduction: each 256-element chunk by the tree, then the chunks in index order (R106). -/
def vxReduce (f : Nat → Nat → Nat) (l : List Nat) : Nat :=
  match (stepsOf 256 l.length l).map (treeReduce f) with
  | [] => 0
  | x :: r => r.foldl f x

/-! ### QUANT (R121 to R124) -/

/-- A quantised row: SCALE, ZP, codes, flags (bit 7 NONFINITE, bit 6 CONST), which counter it adds to: 0 none,
12 CONST_ROW, 13 ZP_FALLBACK, 14 NONFINITE_ROW. -/
structure QRow where
  scale : Nat
  zp : Int
  codes : List Nat
  flags : Nat
  ctr : Nat
deriving Repr, Inhabited

/-- The least (`mx` false) or greatest value of a row of finite values. -/
def rowExt (mx : Bool) (l : List FNum) : FNum :=
  match l with
  | [] => .fin false 0 0
  | x :: r => r.foldl (fun a b => if mx then (if FNum.lt a b then b else a) else (if FNum.lt b a then b else a)) x

/-- INT8 with a symmetric scale. -/
def quantSym (xs : List FNum) (mag : Nat) (ctr : Nat) : QRow :=
  let s0 := f32mul mag 0x3C010204
  let s := if s0 < 0x00800000 then 0x00800000 else s0
  let inv := f32rcp s
  let code := fun x => let r := rneInt (decF32 (f32mul (encF32 x) inv)); if r < -127 then -127 else if r > 127 then 127 else r
  { scale := s, zp := 0, codes := xs.map fun x => ofSigned 8 (code x), flags := 0, ctr := ctr }

/-- INT8 with a zero point, or its fallback. -/
def quantAsym (xs : List FNum) (lo hi mag : Nat) : QRow :=
  let s := f32mul (f32sub hi lo) 0x3B808081
  if s = 0x7F800000 ∨ s = 0 then quantSym xs mag 13
  else
    let inv := f32rcp s
    let p := decF32 (f32mul lo inv)
    let t := rneInt p
    if p.nonFinite ∨ t.natAbs > 16777216 then quantSym xs mag 13
    else
      let z : Int := -128 - t
      let code := fun x => let r := rneInt (decF32 (f32mul (encF32 x) inv)) + z; if r < -128 then -128 else if r > 127 then 127 else r
      { scale := s, zp := z, codes := xs.map fun x => ofSigned 8 (code x), flags := 0, ctr := 0 }

/-- The smallest k, not below −126, with mag ≤ m × 2^k, m = 7 × 2^e the largest finite value of the FP8 format. -/
def fp8Exp (mag : FNum) (e : Int) : Int :=
  match mag with
  | .fin _ m x =>
    let k0 := topExp m x - e - 3
    let k := if FNum.lt (.fin false 7 (e + k0)) mag then (if FNum.lt (.fin false 7 (e + k0 + 1)) mag then k0 + 2 else k0 + 1) else k0
    if k < -126 then -126 else k
  | _ => -126

/-- FP8 with a power-of-two scale. -/
def quantFp8 (fmt : Nat) (xs : List FNum) (mag : FNum) : QRow :=
  let k := fp8Exp mag (if fmt = 2 then 6 else 13)
  { scale := encF32 (.fin false 1 k), zp := 0, codes := xs.map fun x => encFmt fmt false (x.mul (.fin false 1 (-k))), flags := 0, ctr := 0 }

/-- One row quantised under MODE. -/
def quantRow (mode : Nat) (xs : List FNum) : QRow :=
  let fmt := if mode < 2 then 0 else mode
  let lo := rowExt false xs
  let hi := rowExt true xs
  if xs.any FNum.nonFinite then { scale := 0x3F800000, zp := 0, codes := xs.map fun _ => 0, flags := 128, ctr := 14 }
  else if !FNum.lt lo hi then
    if lo.isZero then { scale := 0x3F800000, zp := 0, codes := xs.map fun _ => 0, flags := 64, ctr := 12 }
    else
      let one := FNum.fin lo.sgn 1 0
      { scale := encF32 lo.abs, zp := 0, codes := xs.map fun _ => if fmt = 0 then ofSigned 8 (if lo.sgn then -1 else 1) else encFmt fmt false one,
        flags := 64, ctr := 12 }
  else
    let mag := if FNum.lt lo.abs hi.abs then hi.abs else lo.abs
    if mode = 0 then quantAsym xs (encF32 lo) (encF32 hi) (encF32 mag)
    else if mode = 1 then quantSym xs (encF32 mag) 0
    else quantFp8 fmt xs mag

/-- The scale entry of a row (Table NUM-5). -/
def scaleEntry (r : QRow) (tag fmt : Nat) : Bytes :=
  leBytes 4 r.scale ++ leBytes 4 (ofSigned 32 r.zp) ++ leBytes 4 0 ++ leBytes 1 (r.flags + tag % 64) ++ leBytes 1 fmt ++ leBytes 2 0

/-- A data block header (Table NUM-4). -/
def blockHdr (tag fmt rows cols : Nat) : Bytes := leBytes 1 (tag % 64) ++ leBytes 1 fmt ++ leBytes 2 rows ++ leBytes 4 cols ++ leBytes 56 0

/-- QUANT of one block: scale entries and rows, then the header (R122). -/
def quantBlock (l : Nat) (v : SlotImg) (src dst sc : Opd) (sf mode start rows cols : Nat) (s : State) (b : Nat) : State × Option CtxFlt :=
  let fmt := if mode < 2 then 0 else mode
  let n := min 16 (rows - 16 * b)
  let tag := (start + b) % 64
  match (List.range n).mapM fun i => vxRow s l v src cols sf (16 * b + i) with
  | .error e => (s, some e)
  | .ok rs =>
    let qs := rs.map fun r => quantRow mode (r.map (decFmt sf))
    let base := dst.a + b * blkBytes cols fmt
    let s := qs.foldl (fun s q => if q.ctr = 0 then s else cinc s (cTile l q.ctr) 1) s
    match wrChk s l v sc.sp (sc.a + 256 * b) (padTo 256 (qs.flatMap fun q => scaleEntry q tag fmt)) with
    | (s, some e) => (s, some e)
    | (s, none) =>
      match wrAll l v dst.sp ((List.range n).map fun i =>
          (base + 64 + i * rowBytes cols fmt, padTo (rowBytes cols fmt) (packElems fmt (qs.getD i default).codes))) s with
      | (s, some e) => (s, some e)
      | (s, none) => wrChk s l v dst.sp base (blockHdr tag fmt n cols)

/-! ### DEQUANT (R125 to R127) -/

/-- The first form of R125 on a code of a format. -/
def deqVal (fmt q : Nat) (z : Int) (sa : Nat) : Nat := f32mul (encF32 ((decFmt fmt q).add (FNum.ofInt z).neg)) sa

/-- DEQUANT of one block, its checks first: `prev` the TAG of the block before. -/
def dequantBlock (l : Nat) (v : SlotImg) (data sc dst : Opd) (fmt df rows cols : Nat) (a : State × Option CtxFlt × Option Nat) (b : Nat) :
    State × Option CtxFlt × Option Nat :=
  let s := a.1
  if a.2.1.isSome then a else
  let n := min 16 (rows - 16 * b)
  let base := data.a + b * blkBytes cols fmt
  let r : Except CtxFlt (Nat × List (List Nat) × Bytes) := do
    let h ← rdChk s l v data.sp base 64
    let e ← rdChk s l v sc.sp (sc.a + 256 * b) 256
    let t ← tagCheck 0 b h e (min 16 (leAt h 2 2 % 32)) a.2.2
    if leAt h 4 4 % 2 ^ 17 ≠ cols ∨ leAt h 2 2 % 32 ≠ n ∨ byteAt h 1 % 16 ≠ fmt then throw (fltAt 4 0)
    let rs ← (List.range n).mapM fun i => do
      let q ← rdChk s l v data.sp (base + 64 + i * rowBytes cols fmt) (cdiv (cols * fmtBits fmt) 8)
      return rowElems fmt cols q
    return (t, rs, e)
  match r with
  | .error e => (s, some e, a.2.2)
  | .ok (t, rs, e) =>
    let (s, f) := iterate n (fun s i =>
      let q := rs.getD i []
      let ent := slice e (16 * i) 16
      let one := fun x => deqVal fmt x (toSigned 32 (leAt ent 4 4)) (leAt ent 0 4)
      let out := q.map fun x => if bit (byteAt ent 12) 7 then (if df = 4 then nanBf16 else nanF32)
        else if df = 4 then encBf16 (decF32 (one x)) else one x
      vxPut s l v dst cols df (16 * b + i) out) s
    (s, f, some t)

/-! ### COMBINE (R189) -/

/-- One query's row of COMBINE: `h` its query header, its G and OSTRIDE in bytes 0 to 3 and 12 to 15. -/
def combineRow (s : State) (l : Nat) (v : SlotImg) (src : Opd) (df os q : Nat) : Except CtxFlt (List Nat) := do
  let h ← rdChk s l v src.sp (src.a + q * os) 64
  let dim := if byteAt h 4 = 0 then 64 else 128
  let f := byteAt h 5
  let ps ← (List.range (leAt h 0 4)).mapM fun g => rdChk s l v src.sp (src.a + q * os + 64 + g * (64 + 4 * dim)) (64 + 4 * dim)
  let sum := ps.foldl (fun a p => f32add a (leAt p 0 4)) 0
  let r := f32rcp sum
  let fin := fun y => if df = 4 then encBf16 (decF32 y) else y
  return (List.range dim).map fun d =>
    if bit f 1 then 0
    else if bit f 0 then (if df = 4 then nanBf16 else nanF32)
    else fin (f32mul (f32mul (ps.foldl (fun a p => f32add a (leAt p (64 + 4 * d) 4)) 0) r) (leAt h 8 4))

/-! ### The operations of VX -/

/-- One iteration of a VX operation. -/
def vxOp (s : State) (l : Nat) (x : Job) (j : Nat) : State × Option CtxFlt :=
  let v := x.img
  let w := x.w
  let o := fun i => opdOf v x.b j (cwOpd w i)
  let f := cwFlags w
  let row := fun (s : State) i cols fmt r => vxRow s l v (o i) cols fmt r
  let bad : State × Option CtxFlt := (s, some (fltAt 4 0))
  match cwOp w, vxShape w with
  | 8, _ =>
    let nq := bits (cwOpd w 3) 29 16
    if nq = 0 ∨ cwOpd w 1 ≠ 0 ∨ f / 16 ≠ 0 ∨ (f ≠ 4 ∧ f ≠ 5) then bad
    else match rdChk s l v (o 0).sp (o 0).a 64 with
      | .error e => (s, some e)
      | .ok h =>
        let dim := if byteAt h 4 = 0 then 64 else 128
        vxRows nq (fun s q => combineRow s l v (o 0) f (leAt h 12 4) q) (fun s q e => vxPut s l v (o 2) dim f q e) s
  | _, .error e => (s, some e)
  | 0, .ok (rs, cs) =>
    if f % 16 > 5 ∨ f / 32 ≠ 0 then bad
    else
      let fmt := ewFmt f
      let wide := fun e => encF32 (decFmt fmt e)
      vxRows rs (fun s r => do
        let a ← row s 0 cs fmt r
        let b ← if f % 16 = 5 then pure a else row s 1 cs fmt r
        return (List.zipWith (ewOp (f % 16)) (a.map wide) (b.map wide)).map fun e => encFmt fmt false (decF32 e))
        (fun s r e => vxPut s l v (o 2) cs fmt r e) s
  | 1, .ok (rs, cs) =>
    if f ≠ 0 then bad
    else vxRows rs (fun s r => do
        let a ← row s 0 cs 5 r
        let b ← row s 1 cs 5 r
        let d ← row s 2 cs 5 r
        return List.zipWith (fun p z => f32fma p.1 p.2 z) (a.zip b) d) (fun s r e => vxPut s l v (o 2) cs 5 r e) s
  | 2, .ok (rs, cs) =>
    if f > 1 then bad
    else vxRows rs (fun s r => do
        let a ← row s 0 cs 5 r
        return [vxReduce (if f = 1 then f32max true else f32add) (a.map fun e => encF32 (decF32 e))])
      (fun s r e => vxPut s l v (o 2) 1 5 r e) s
  | 3, .ok (rs, cs) =>
    if f ≠ 0 then bad
    else vxRows rs (fun s r => do
        let a ← row s 0 cs 5 r
        return (List.range cs).map fun i => normF32 (Config.vxSoftmax (a.map fun e => BitVec.ofNat 32 (normF32 e)) i).toNat) (fun s r e => vxPut s l v (o 2) cs 5 r e) s
  | 4, .ok (rs, cs) =>
    if f > 1 then bad
    else vxRows rs (fun s r => do
        let a ← row s 0 cs 5 r
        return (List.range cs).map fun i => normF32 (Config.vxNorm (f == 1) (a.map fun e => BitVec.ofNat 32 (normF32 e)) i).toNat) (fun s r e => vxPut s l v (o 2) cs 5 r e) s
  | 5, .ok (rs, cs) =>
    if f ≠ 0 then bad
    else match rdChk s l v (o 1).sp (o 1).a 512 with
      | .error e => (s, some e)
      | .ok t =>
        let tab := (rowElems 4 256 t).map fun e => BitVec.ofNat 16 (normBf16 e)
        vxRows rs (fun s r => do
          let a ← row s 0 cs 4 r
          return a.map fun e => normBf16 (Config.vxLut tab (BitVec.ofNat 16 (normBf16 e))).toNat) (fun s r e => vxPut s l v (o 2) cs 4 r e) s
  | 6, .ok (rs, cs) =>
    let sf := f % 16
    if f / 4096 ≠ 0 ∨ (sf ≠ 4 ∧ sf ≠ 5 ∧ sf ≠ 7) then bad
    else iterate (cdiv rs 16) (quantBlock l v (o 0) (o 1) (o 2) sf (bits f 5 4) (bits f 11 6) rs cs) s
  | 7, .ok (rs, cs) =>
    if f / 16 ≠ 0 ∨ (f ≠ 4 ∧ f ≠ 5) then bad
    else match rdChk s l v (o 0).sp (o 0).a 64 with
      | .error e => (s, some e)
      | .ok h =>
        let fmt := byteAt h 1 % 16
        if fmt > 3 then bad
        else
          let r := (List.range (cdiv rs 16)).foldl (dequantBlock l v (o 0) (o 1) (o 2) fmt f rs cs) (s, none, none)
          (r.1, r.2.1)
  | _, .ok (rs, cs) =>
    let sf := f % 16
    let df := bits f 7 4
    if f / 512 ≠ 0 ∨ sf > 7 ∨ df > 7 then bad
    else
      let sat := bit f 8 && (!fmtFloat sf || decide (fmtBits df < fmtBits sf))
      iterate rs (fun s r => match row s 0 cs sf r with
        | .error e => (s, some e)
        | .ok a =>
          let s := if fmtFloat sf && !fmtFloat df then cinc s (cTile l 15) (a.filter fun e => (decFmt sf e).isNan).length else s
          vxPut s l v (o 2) cs df r (a.map fun e => encFmt df sat (decFmt sf e))) s

/-- A VX command. -/
def runVx : EngineRun := fun s l _ x =>
  match dupMismatch s l 3 x.hits with
  | (false, s) => (s, none)
  | (true, s) => iterate x.iters (fun s j => vxOp s l x j) s

/-! ### The Mover (R107) -/

/-- Transpose of an array of rows. -/
def transposeAt (rows : List (List Nat)) (c : Nat) : List Nat := rows.map fun r => r.getD c 0

/-- One iteration of a Mover operation: lengths and indices count 64-byte units (log entry 25). -/
def movOp (s : State) (l : Nat) (x : Job) (j : Nat) : State × Option CtxFlt :=
  let v := x.img
  let w := x.w
  let o := fun i => opdOf v x.b j (cwOpd w i)
  let f := cwFlags w
  let n := cwOpd w 3 % 2 ^ 30
  let bad : State × Option CtxFlt := (s, some (fltAt 4 0))
  let idx := fun (b : Bytes) i => leAt b (4 * i) 4
  match cwOp w with
  | 0 =>
    if f ≠ 0 then bad
    else match rdChk s l v (o 0).sp (o 0).a (64 * n) with
      | .error e => (s, some e)
      | .ok b => wrChk (spCount s l v (o 0).sp (o 0).a (64 * n)) l v (o 1).sp (o 1).a b
  | 1 =>
    if f ≠ 0 then bad
    else match rdChk s l v (o 2).sp (o 2).a (4 * n) with
      | .error e => (s, some e)
      | .ok t => iterate n (fun s i => match rdChk s l v (o 0).sp ((o 0).a + 64 * idx t i) 64 with
        | .error e => (s, some e)
        | .ok b => wrChk (spCount s l v (o 0).sp ((o 0).a + 64 * idx t i) 64) l v (o 1).sp ((o 1).a + 64 * i) b)
          (spCount s l v (o 2).sp (o 2).a (4 * n))
  | 2 =>
    if f ≠ 0 then bad
    else match rdChk s l v (o 2).sp (o 2).a (4 * n) with
      | .error e => (s, some e)
      | .ok t => iterate n (fun s i => match rdChk s l v (o 0).sp ((o 0).a + 64 * i) 64 with
        | .error e => (s, some e)
        | .ok b => wrChk (spCount s l v (o 0).sp ((o 0).a + 64 * i) 64) l v (o 1).sp ((o 1).a + 64 * idx t i) b)
          (spCount s l v (o 2).sp (o 2).a (4 * n))
  | 3 =>
    let fmt := if bit f 0 then 7 else 0
    if f > 1 then bad
    else match vxShape w with
      | .error e => (s, some e)
      | .ok (rs, cs) =>
        match (List.range rs).mapM fun r => vxRow s l v (o 0) cs fmt r with
        | .error e => (s, some e)
        | .ok a => iterate cs (fun s i => vxPut s l v (o 1) rs fmt i (transposeAt a i))
          ((List.range rs).foldl (fun s r => spCount s l v (o 0).sp (vxRowA (o 0) cs fmt r) (cdiv (cs * fmtBits fmt) 8)) s)
  | _ =>
    if f ≠ 0 ∨ (o 2).sp ≠ 3 then bad
    else wrChk s l v (o 1).sp (o 1).a (List.replicate (64 * n) (BitVec.ofNat 8 (cwOpd w 2)))

/-- A Mover command. -/
def runMov : EngineRun := fun s l _ x =>
  match dupMismatch s l 4 x.hits with
  | (false, s) => (s, none)
  | (true, s) => iterate x.iters (fun s j => movOp s l x j) s

end Sys2Proof.Machine
end

