-- ==== Sys2Proof/Machine/ScorePort.lean ====
section
/-! DEFINITION. The score port: ATTEND, TOPK, HAPPEND, GEMV, XPOSE over histories and matrices in the tier (R182 to
R193). -/

namespace Sys2Proof.Machine

/-! ### Reading the tier and LPDDR5X -/

/-- Read device memory: an uncorrectable codeword, or a fenced bank, fails the consumer with ENGINE (R194, R197). -/
def devR (s : State) (a n : Nat) : Except CtxFlt Bytes :=
  match devBad s a n with
  | some b => .error (fltAt 8 b)
  | none => .ok (memR s a n)

/-- Write device memory under the same checks. -/
def devW (s : State) (a : Nat) (b : Bytes) : State × Option CtxFlt :=
  match devWBad s a b.length with
  | some x => (s, some (fltAt 8 x))
  | none => (memW s a b, none)

/-- Device memory writes in order, up to the first that faults. -/
def devWAll : List (Nat × Bytes) → State → State × Option CtxFlt
  | [], s => (s, none)
  | (a, b) :: r, s =>
    match devW s a b with
    | (s, none) => devWAll r s
    | x => x

/-! ### Histories (Tables BT-6 and BT-7, R183) -/

/-- A history record with the device address of every segment: `segs` as (bank, device address, spilled). -/
structure Hist where
  rec_ : Nat
  tokens : Nat
  log2 : Nat
  dim : Nat
  kscale : Nat
  vscale : Nat
  kinv : Nat
  vinv : Nat
  segs : List (Nat × Nat × Bool)
deriving Repr, Inhabited

/-- Positions of a segment. -/
def segPos (h : Hist) : Nat := 2 ^ h.log2
/-- CAP (R183). -/
def histCap (h : Hist) : Nat := h.segs.length * segPos h
/-- Valid positions. -/
def histP (h : Hist) : Nat := min h.tokens (histCap h)
/-- Device address of a position's key row. -/
def keyA (h : Hist) (i : Nat) : Nat := (h.segs.getD (i / segPos h) (0, 0, false)).2.1 + i % segPos h * h.dim
/-- Device address of a position's value row. -/
def valA (h : Hist) (i : Nat) : Nat := keyA h i + segPos h * h.dim

/-- A placement entry resolved. -/
def placeOf (b : Bytes) : Nat × Nat × Bool :=
  let w := leAt b 0 4
  let bank := w % 4096
  if bit w 31 then (bank, lpBase + leAt b 8 8, true) else (bank, bankA bank + 64 * leAt b 4 4, false)

/-- A placement entry lies within its limits: `g` the physical group that the logical group's first entry names. -/
def placeOk (s : State) (b : Bytes) (g size : Nat) : Bool :=
  let w := leAt b 0 4
  let bank := w % 4096
  let (lo, hi) := histRegion s bank
  bits w 30 12 == 0 && bank / 64 == g &&
  (if bit w 31 then leAt b 4 4 == 0 && leAt b 8 8 % 64 == 0 && decide (leAt b 8 8 + size ≤ 2 ^ 39)
   else leAt b 8 8 == 0 && decide (lo ≤ 64 * leAt b 4 4 ∧ 64 * leAt b 4 4 + size ≤ hi))

/-- Read and check the history record at device address `a` for context `c`. -/
def histOf (s : State) (c a : Nat) : Except CtxFlt Hist := do
  let b ← devR s a 64
  if leAt b 12 2 % 32768 ≠ c then throw (fltAt 3 a)
  let segs := leAt b 8 2
  let lg := byteAt b 10
  let dim := if byteAt b 11 = 0 then 64 else 128
  let place := leAt b 32 8
  if leAt b 0 8 / 2 ^ 40 ≠ 0 ∨ segs = 0 ∨ segs > 4096 ∨ lg < 4 ∨ lg > 10 ∨ byteAt b 11 > 1 ∨ leAt b 12 2 ≥ 32768 ∨ leAt b 14 2 ≠ 0 ∨
     place % 64 ≠ 0 ∨ place + 16 * segs > 2 ^ 33 ∨ (slice b 40 24).any fun x => x != 0 then throw (fltAt 4 0)
  let t ← devR s (tierBase + place) (16 * segs)
  let ents := (List.range segs).map fun j => slice t (16 * j) 16
  let size := 2 * 2 ^ lg * dim
  let bad := (List.range segs).find? fun j =>
    !placeOk s (ents.getD j []) (leAt (ents.getD (j / 64 * 64) []) 0 4 % 4096 / 64) size
  match bad with
  | some j => .error (fltAt 3 (tierBase + place + 16 * j))
  | none => .ok { rec_ := a, tokens := leAt b 0 8, log2 := lg, dim := dim, kscale := leAt b 16 4, vscale := leAt b 20 4,
                  kinv := leAt b 24 4, vinv := leAt b 28 4, segs := ents.map placeOf }

/-- Signed bytes. -/
def i8s (b : Bytes) : List Int := b.map fun x => x.toInt

/-- A query block checked: its rows' codes and scale entries (R126, R186). -/
def queryBlock (s : State) (l : Nat) (v : SlotImg) (a sc rows cols : Nat) : Except CtxFlt (List (List Int × Bytes)) := do
  let h ← rdChk s l v 0 a 64
  let e ← rdChk s l v 0 sc 256
  let _ ← tagCheck 0 0 h e (min 16 (leAt h 2 2 % 32)) none
  if leAt h 4 4 % 2 ^ 17 ≠ cols ∨ leAt h 2 2 % 32 ≠ rows ∨ byteAt h 1 % 16 ≠ 0 then throw (fltAt 4 0)
  (List.range rows).mapM fun i => do
    let q ← rdChk s l v 0 (a + 64 + i * rowBytes cols 0) cols
    return (i8s q, slice e (16 * i) 16)

/-- Exact integer dot product. -/
def dotI (a b : List Int) : Int := (List.zipWith (fun x y => x * y) a b).foldl (· + ·) 0

/-- Scores of a query at positions `0 .. n-1` (phase 1). -/
def scoresOf (s : State) (h : Hist) (q : List Int) (n : Nat) : Except CtxFlt (List Int) :=
  (List.range n).mapM fun i => do
    let k ← devR s (keyA h i) h.dim
    return dotI q (i8s k)

/-- Positions of the segments of each bank stay within its score buffer (R187). -/
def scoreFits (h : Hist) (nq : Nat) : Bool :=
  h.segs.all fun e => decide ((h.segs.filter fun x => x.1 == e.1).length * segPos h * nq ≤ 4096)

/-- Phase 2 over positions `a .. a+n-1` of one segment: weights and weighted values, positions ascending. -/
def segValue (s : State) (h : Hist) (sc : List Int) (m : Int) (c a n : Nat) : Except CtxFlt (Nat × List Nat) :=
  (List.range n).foldlM (fun (acc : Nat × List Nat) i => do
    let p := normF32 (Config.vxExp (BitVec.ofNat 32 (f32mul (f32ofInt (sc.getD (a + i) 0 - m)) c))).toNat
    let v ← devR s (valA h (a + i)) h.dim
    return (f32add acc.1 p, List.zipWith (fun o x => f32add o (f32mul p (f32ofInt x))) acc.2 (i8s v))) (0, List.replicate h.dim 0)

/-- Valid positions of segment `j`. -/
def segValid (h : Hist) (j : Nat) : Nat := min (segPos h) (histP h - j * segPos h)

/-- The parameter record of a score-port command. -/
def spRecord (s : State) (l : Nat) (x : Job) (j : Nat) : Except CtxFlt (List Nat) := do
  let b ← rdChk s l x.img 0 (opdOf x.img x.b j (noRel (cwOpd x.w 3))).a 32
  return words8 b

/-- Spilled bytes read (R190), by channel too (Table OBS-2). -/
def spillCount (s : State) (h : Hist) : State :=
  let s := (h.segs.filter fun e => e.2.2).foldl (fun s e => lpCount s 0 e.2.1 (2 * segPos h * h.dim)) s
  bumpDiv s rBT_SPILL_BYTES ((h.segs.filter fun e => e.2.2).length * 2 * segPos h * h.dim) 65536

/-- An operand word of a parameter record: SPACE 0 (Table BT-5). -/
def recOpd (s : State) (l : Nat) (x : Job) (j w : Nat) : Except CtxFlt Nat :=
  let o := opdOf x.img x.b j w
  if o.sp ≠ 0 then .error (rangeFault s l x.img o) else .ok o.a

/-! ### ATTEND (R186 to R188) -/

/-- The bytes ATTEND writes for query `q`; the maximum of no score is open, and the same for the same query and history (R4; log entry
28). -/
def attendQuery (s : State) (h : Hist) (qc : List Int) (ent : Bytes) (softmul os : Nat) : Except CtxFlt Bytes := do
  let p := histP h
  let c := f32mul (f32mul (leAt ent 0 4) h.kscale) softmul
  let sc ← scoresOf s h qc p
  let m := match sc with | [] => (Config.emptyMax qc softmul).toInt | x :: r => r.foldl max x
  let gs := cdiv h.segs.length 64
  let hdr := leBytes 4 gs ++ leBytes 1 (if h.dim = 64 then 0 else 1) ++
    leBytes 1 (b2n (bit (byteAt ent 12) 7) + 2 * b2n (p == 0)) ++ leBytes 2 0 ++ leBytes 4 h.vscale ++ leBytes 4 os ++
    leBytes 4 (ofSigned 32 m) ++ leBytes 4 c ++ leBytes 40 0
  let parts ← (List.range gs).mapM fun g => do
    let js := (List.range (min 64 (h.segs.length - 64 * g))).map fun i => 64 * g + i
    let z : Nat × List Nat := (0, List.replicate h.dim 0)
    let r ← js.foldlM (fun (a : Nat × List Nat) j => do
      let e ← segValue s h sc m c (j * segPos h) (segValid h j)
      return (f32add a.1 e.1, List.zipWith f32add a.2 e.2)) z
    let valid := (js.map fun j => segValid h j).sum
    let sp := js.any fun j => (h.segs.getD j (0, 0, false)).2.2
    return leBytes 4 r.1 ++ leBytes 4 valid ++ leBytes 1 (b2n sp) ++ leBytes 55 0 ++ r.2.flatMap (leBytes 4)
  return hdr ++ parts.flatten

/-- ATTEND, one iteration. -/
def attendOp (s : State) (l c : Nat) (x : Job) (j : Nat) : State × Option CtxFlt :=
  let v := x.img
  let w := x.w
  let r : Except CtxFlt (Hist × List (Nat × Bytes)) := do
    let p ← spRecord s l x j
    let nq := p.getD 0 0 % 32
    let os := p.getD 2 0
    if cwFlags w ≠ 0 ∨ p.getD 0 0 / 32 ≠ 0 ∨ nq = 0 ∨ nq > 16 ∨ os % 64 ≠ 0 ∨ (p.drop 4).any fun z => z != 0 then throw (fltAt 4 0)
    let sc ← recOpd s l x j (p.getD 3 0)
    let h ← histOf s c (physA s l v 1 (opdOf v x.b j (cwOpd w 1)).a)
    if os < 64 + cdiv h.segs.length 64 * (64 + 4 * h.dim) ∨ !scoreFits h nq then throw (fltAt 4 0)
    let qs ← queryBlock s l v (opdOf v x.b j (cwOpd w 0)).a sc nq h.dim
    if qs.any fun q => leAt q.2 4 4 != 0 then throw (fltAt 4 0)
    let out ← (List.range nq).mapM fun q => do
      let e := qs.getD q ([], [])
      let b ← attendQuery s h e.1 e.2 (p.getD 1 0) os
      return ((opdOf v x.b j (cwOpd w 2)).a + q * os, b)
    return (h, out)
  match r with
  | .error e => (s, some e)
  | .ok (h, out) => wrAll l v 0 out (spillCount s h)

/-! ### TOPK (R191) -/

/-- Insert into a list in descending score, ascending position. -/
def topInsert (e : Int × Nat) : List (Int × Nat) → List (Int × Nat)
  | [] => [e]
  | x :: r => if x.1 ≥ e.1 then x :: topInsert e r else e :: x :: r

/-- The `k` best of scored positions given in ascending position. -/
def topK (k : Nat) (l : List (Int × Nat)) : List (Int × Nat) := l.foldl (fun a e => (topInsert e a).take k) []

/-- A list of `k` entries, surplus entries as R191 gives them. -/
def topBytes (k : Nat) (l : List (Int × Nat)) : Bytes :=
  (List.range k).flatMap fun i => match l[i]? with
    | some e => leBytes 4 (ofSigned 32 e.1) ++ leBytes 4 e.2
    | none => leBytes 4 0x80000000 ++ leBytes 4 0xFFFFFFFF

/-- TOPK, one iteration. -/
def topkOp (s : State) (l c : Nat) (x : Job) (j : Nat) : State × Option CtxFlt :=
  let v := x.img
  let w := x.w
  let r : Except CtxFlt (Hist × List (Nat × Bytes)) := do
    let p ← spRecord s l x j
    let w0 := p.getD 0 0
    let nq := w0 % 32
    let k := bits w0 22 16
    let os := p.getD 2 0
    if cwFlags w ≠ 0 ∨ bits w0 15 5 ≠ 0 ∨ w0 / 2 ^ 23 ≠ 0 ∨ nq = 0 ∨ nq > 16 ∨ k = 0 ∨ k > 64 ∨ nq * k > 1024 ∨ p.getD 1 0 ≠ 0 ∨
       os % 64 ≠ 0 ∨ (p.drop 4).any fun z => z != 0 then throw (fltAt 4 0)
    let sc ← recOpd s l x j (p.getD 3 0)
    let h ← histOf s c (physA s l v 1 (opdOf v x.b j (cwOpd w 1)).a)
    if !scoreFits h nq then throw (fltAt 4 0)
    let qs ← queryBlock s l v (opdOf v x.b j (cwOpd w 0)).a sc nq h.dim
    if qs.any fun q => leAt q.2 4 4 != 0 then throw (fltAt 4 0)
    let out ← (List.range nq).mapM fun q => do
      let sc ← scoresOf s h (qs.getD q ([], [])).1 (histP h)
      return ((opdOf v x.b j (cwOpd w 2)).a + q * os, topBytes k (topK k (sc.zip (List.range sc.length))))
    return (h, out)
  match r with
  | .error e => (s, some e)
  | .ok (h, out) => wrAll l v 0 out (spillCount s h)

/-! ### HAPPEND (R184) -/

/-- The code of an element: its FP32 value, times the reciprocal scale, rounded and clamped; NaN gives 0. -/
def appendCode (inv fmt e : Nat) : Nat :=
  match decFmt fmt e with
  | .nan => 0
  | .inf b => ofSigned 8 (if b then -127 else 127)
  | x =>
    match decF32 (f32mul (encF32 x) inv) with
    | .nan => 0
    | .inf b => ofSigned 8 (if b then -127 else 127)
    | y => let r := rneInt y; ofSigned 8 (if r < -127 then -127 else if r > 127 then 127 else r)

/-- HAPPEND, one iteration: every APPEND write, then TOKENS. -/
def happendOp (s : State) (l c : Nat) (x : Job) (j : Nat) : State × Option CtxFlt :=
  let v := x.img
  let w := x.w
  let f := cwFlags w
  let fmt := if bit f 3 then 4 else 5
  let clr := bit f 2
  let r : Except CtxFlt (Hist × Nat × List (Nat × Bytes) × Nat) := do
    let p ← spRecord s l x j
    let nt := p.getD 0 0 % 32
    if f % 4 ≠ 0 ∨ f / 16 ≠ 0 ∨ cwOpd w 2 ≠ 0 ∨ p.getD 0 0 / 32 ≠ 0 ∨ nt > 16 ∨ (nt == 0 && !clr) ∨ p.getD 1 0 ≠ 0 ∨
       (p.drop 3).any fun z => z != 0 then throw (fltAt 4 0)
    let va ← recOpd s l x j (p.getD 2 0)
    let h ← histOf s c (physA s l v 1 (opdOf v x.b j (cwOpd w 1)).a)
    let t0 := if clr then 0 else h.tokens
    let ka := (opdOf v x.b j (cwOpd w 0)).a
    let ws ← (List.range nt).mapM fun t => do
      let kb ← rdChk s l v 0 (ka + t * rowBytes h.dim fmt) (h.dim * fmtBits fmt / 8)
      let vb ← rdChk s l v 0 (va + t * rowBytes h.dim fmt) (h.dim * fmtBits fmt / 8)
      let ke := rowElems fmt h.dim kb
      let ve := rowElems fmt h.dim vb
      let pos := (t0 + t) % histCap h
      let nan := ((ke ++ ve).filter fun e => (decFmt fmt e).isNan).length
      return ([(keyA h pos, ke.map fun e => BitVec.ofNat 8 (appendCode h.kinv fmt e)),
               (valA h pos, ve.map fun e => BitVec.ofNat 8 (appendCode h.vinv fmt e))], nan)
    return (h, (t0 + nt) % 2 ^ 40, ws.flatMap fun e => e.1, (ws.map fun e => e.2).sum)
  match r with
  | .error e => (s, some e)
  | .ok (h, tokens, ws, nan) =>
    let s := if nan = 0 then s else cinc s (cTile l 15) nan
    match devWAll ws s with
    | (s, some e) => (s, some e)
    | (s, none) =>
      match devR s h.rec_ 64 with
      | .error e => (s, some e)
      | .ok b => devW s h.rec_ (leBytes 8 tokens ++ b.drop 8)

/-! ### GEMV (R192) -/

/-- Row `i` of W: codes and scale entry, from the segment that holds its block. -/
def gemvRow (s : State) (bases : List Nat) (k sb i : Nat) : Except CtxFlt (List Int × Bytes) := do
  let blk := i / 16
  let base := bases.getD (blk / sb) 0
  let q ← devR s (base + blk % sb * blkBytes k 0 + 64 + i % 16 * rowBytes k 0) k
  let e ← devR s (base + sb * blkBytes k 0 + 256 * (blk % sb) + 16 * (i % 16)) 16
  return (i8s q, e)

/-- Block `b` of W checked before the outputs that depend on it: tags, then header (R126). Answers its TAG. -/
def gemvBlock (s : State) (bases : List Nat) (k sb rows b : Nat) (prev : Option Nat) : Except CtxFlt Nat := do
  let base := bases.getD (b / sb) 0
  let h ← devR s (base + b % sb * blkBytes k 0) 64
  let e ← devR s (base + sb * blkBytes k 0 + 256 * (b % sb)) 256
  let t ← tagCheck 1 b h e (min 16 (leAt h 2 2 % 32)) prev
  if leAt h 4 4 % 2 ^ 17 ≠ k ∨ leAt h 2 2 % 32 ≠ min 16 (rows - 16 * b) ∨ byteAt h 1 % 16 ≠ 0 then throw (fltAt 4 0)
  return t

/-- The matrix record at device address `a`: ROWS, K, SEG_BLOCKS and the segments' device addresses. -/
def matrixOf (s : State) (c a : Nat) : Except CtxFlt (Nat × Nat × Nat × List Nat) := do
  let b ← devR s a 32
  if leAt b 12 2 ≠ c then throw (fltAt 3 a)
  let rows := leAt b 0 4
  let k := leAt b 4 2
  let sb := byteAt b 6
  let segs := leAt b 8 2
  let place := leAt b 16 8
  if rows = 0 ∨ rows > 1048576 ∨ k = 0 ∨ k > 4096 ∨ sb = 0 ∨ sb > 128 ∨ segs = 0 ∨ segs > 4096 ∨ byteAt b 7 ≠ 0 ∨ leAt b 10 2 ≠ 0 ∨
     leAt b 14 2 ≠ 0 ∨ leAt b 24 8 ≠ 0 ∨ place % 64 ≠ 0 ∨ place + 16 * segs > 2 ^ 33 ∨ 16 * sb * segs < rows then throw (fltAt 4 0)
  let t ← devR s (tierBase + place) (16 * segs)
  let size := sb * (blkBytes k 0 + 256)
  let ents := (List.range segs).map fun i => slice t (16 * i) 16
  if ents.any fun e => bit (leAt e 0 4) 31 then throw (fltAt 4 0)
  match (List.range segs).find? fun i =>
      let e := ents.getD i []
      bits (leAt e 0 4) 30 12 != 0 || decide (64 * leAt e 4 4 + size > bankSize) || leAt e 8 8 != 0 with
  | some i => .error (fltAt 3 (tierBase + place + 16 * i))
  | none => .ok (rows, k, sb, ents.map fun e => (placeOf e).2.1)

/-- One output element of GEMV (R192). -/
def gemvOut (raw : Bool) (x w : List Int × Bytes) : Bytes :=
  let acc := dotI x.1 w.1
  leBytes 4 (if raw then ofSigned 32 acc
    else if bit (byteAt x.2 12) 7 || bit (byteAt w.2 12) 7 then nanF32
    else deqInt acc (toSigned 32 (leAt x.2 4 4)) (toSigned 32 (leAt w.2 8 4)) (leAt x.2 0 4) (leAt w.2 0 4) none)

/-- A checked GEMV: rows, K, SEG_BLOCKS and segments of W, the vectors, OSTRIDE. -/
def gemvSetup (s : State) (l c : Nat) (x : Job) (j : Nat) : Except CtxFlt ((Nat × Nat × Nat × List Nat) × List (List Int × Bytes) × Nat) := do
  let v := x.img
  let w := x.w
  let p ← spRecord s l x j
  let nv := p.getD 0 0 % 32
  let os := p.getD 2 0
  if cwFlags w > 1 ∨ p.getD 0 0 / 32 ≠ 0 ∨ nv = 0 ∨ nv > 16 ∨ p.getD 1 0 ≠ 0 ∨ os % 64 ≠ 0 ∨ (p.drop 4).any fun z => z != 0 then
    throw (fltAt 4 0)
  let sc ← recOpd s l x j (p.getD 3 0)
  let m ← matrixOf s c (physA s l v 1 (opdOf v x.b j (cwOpd w 1)).a)
  if os < 4 * m.1 then throw (fltAt 4 0)
  let xs ← queryBlock s l v (opdOf v x.b j (cwOpd w 0)).a sc nv m.2.1
  return (m, xs, os)

/-- GEMV, one iteration: the blocks of W in turn, each checked before the outputs of its rows are written. -/
def gemvOp (s : State) (l c : Nat) (x : Job) (j : Nat) : State × Option CtxFlt :=
  match gemvSetup s l c x j with
  | .error e => (s, some e)
  | .ok ((rows, k, sb, bases), xs, os) =>
    let out := (opdOf x.img x.b j (cwOpd x.w 2)).a
    let r := (List.range (cdiv rows 16)).foldl (fun (a : State × Option CtxFlt × Option Nat) b =>
      if a.2.1.isSome then a else
      let r : Except CtxFlt (Nat × List (Nat × Bytes)) := do
        let t ← gemvBlock a.1 bases k sb rows b a.2.2
        let ws ← (List.range (min 16 (rows - 16 * b))).mapM fun i => gemvRow a.1 bases k sb (16 * b + i)
        return (t, (List.range xs.length).map fun q =>
          (out + q * os + 64 * b, ws.flatMap (gemvOut (cwFlags x.w == 0) (xs.getD q ([], [])))))
      match r with
      | .error e => (a.1, some e, a.2.2)
      | .ok (t, ws) => let (s, e) := wrAll l x.img 0 ws a.1; (s, e, some t)) (s, none, none)
    (r.1, r.2.1)

/-! ### XPOSE (R193) -/

/-- XPOSE, one iteration. -/
def xposeOp (s : State) (l : Nat) (x : Job) (j : Nat) : State × Option CtxFlt :=
  let v := x.img
  let w := x.w
  let e := if bit (cwFlags w) 1 then 2 else 1
  let r : Except CtxFlt (List (Nat × Bytes)) := do
    let p ← spRecord s l x j
    let rows := p.getD 0 0 % 65536
    let cols := p.getD 0 0 / 65536
    let sp := p.getD 1 0
    let dp := p.getD 2 0
    if cwFlags w % 2 ≠ 0 ∨ cwFlags w / 4 ≠ 0 ∨ cwOpd w 2 ≠ 0 ∨ rows % 8 ≠ 0 ∨ cols % 8 ≠ 0 ∨ sp % 8 ≠ 0 ∨ dp % 8 ≠ 0 ∨ sp < cols * e ∨
       dp < rows * e ∨ (p.drop 3).any fun z => z != 0 then throw (fltAt 4 0)
    let sa := (opdOf v x.b j (cwOpd w 0)).a
    let da := (opdOf v x.b j (cwOpd w 1)).a
    let sn := (rows - 1) * sp + cols * e
    let dn := (cols - 1) * dp + rows * e
    if rows = 0 ∨ cols = 0 then return []
    if !inWin v 1 sa sn then throw (fltAt 3 (physA s l v 1 sa))
    if !inWin v 1 da dn then throw (fltAt 3 (physA s l v 1 da))
    if overlaps sa sn da dn then throw (fltAt 4 0)
    let src ← (List.range rows).mapM fun r => rdChk s l v 1 (sa + r * sp) (cols * e)
    return (List.range cols).map fun k => (da + k * dp, src.flatMap fun b => slice b (k * e) e)
  match r with
  | .error e => (s, some e)
  | .ok out => wrAll l v 1 out s

/-! ### Running -/

/-- Physical bank groups that a score-port command uses: those of its history's or matrix's segments, for XPOSE of its source and
destination (R180). -/
def spGroups (s : State) (l c : Nat) (x : Job) : List Nat :=
  ((List.range x.iters).flatMap fun j =>
    let at_ := fun i => physA s l x.img 1 (opdOf x.img x.b j (cwOpd x.w i)).a
    match cwOp x.w with
    | 3 => (match matrixOf s c (at_ 1) with | .ok m => m.2.2.2.map fun a => bankOf a / 64 | .error _ => [])
    | 4 => [bankOf (at_ 0) / 64, bankOf (at_ 1) / 64]
    | _ => (match histOf s c (at_ 1) with | .ok h => h.segs.map fun e => e.1 / 64 | .error _ => [])).eraseDups

/-- A score-port command of context `c`. A mismatch of a BSE repeats its operation, and a failed BSE is replaced by a spare's: the
result stands (R196). -/
def runScore (c : Nat) : EngineRun := fun s l _ x =>
  let s := x.hits.foldl (fun s h => match h with | .mismatch bank _ _ recurs => bseMismatch s (bank % 4096) recurs | _ => s) s
  iterate x.iters (fun s j => match cwOp x.w with
    | 0 => attendOp s l c x j
    | 1 => topkOp s l c x j
    | 2 => happendOp s l c x j
    | 3 => gemvOp s l c x j
    | _ => xposeOp s l x j) s

end Sys2Proof.Machine
end

