-- ==== Sys2Proof/Machine/Banks.lean ====
section
/-! DEFINITION. Bank operations: reads, writes, score-port operations of one bank, scrub, retirement copy and remap, refresh,
activation windows, the BT registers (R178 to R181, R186, R187, R191 to R200, R455). -/

namespace Sys2Proof.Machine

/-! ### Replies (R181) -/

/-- Answer a bank operation: to whom, its status and data. -/
def bankReply (s : State) (h : BankHdr) (status : Nat) (data : Bytes) : State :=
  { s with bank := { s.bank with hdr := h, status := status, data := data } }

/-- What an operation meets before it reads: a corrected error (in a Granary unit, which has parity only, a parity error), a fault,
a mismatch that repeats it. -/
def bankMeet (s : State) (n : Nat) (hit : BankHit) : State :=
  match hit with
  | .none => s
  | .ce u =>
    (match unitEntry s n (u % 32768) with
    | some (ep, i) => parityStrike s (n / 1024) ep i 1
    | none => bankCe s n (u % 32768))
  | .ue c => tierStrike s (bankA n + 32 * (c % 65536))
  | .mismatch r => bseMismatch s n r

/-- Status 1 for an operation whose read was corrected. -/
def meetStatus (s : State) (n : Nat) (hit : BankHit) : Nat :=
  match hit with | .ce u => if parityUnit s n (u % 32768) then 0 else 1 | _ => 0

/-- Answer an operation that failed at device address `a`: status 2 with the offset of an uncorrectable error, 4 at a fenced bank. -/
def bankFail (s : State) (h : BankHdr) (n a : Nat) : State :=
  if (memBad s a 1).isNone then bankReply s h 4 []
  else if a ≥ lpBase then bankReply (faultUe s 16 (unitCode 4 (n / 64)) (n / 1024) a) h 2 []
  else bankReply (tierMiss s a) h 2 (leBytes 4 ((a - tierBase) % bankSize / 64))

/-- Run an operation at logical bank `n`: status 4 from a fenced bank, 2 with the offset on an uncorrectable error, 1 when
an error was corrected, else 0. An operation that its issuer's checks would have refused changes nothing (log entry 3). -/
def bankRun (s : State) (h : BankHdr) (n : Nat) (hit : BankHit) (f : State → Except CtxFlt (State × Bytes)) : State :=
  if n ≥ 4096 then s
  else if bankFenced s n then bankReply s h 4 []
  else
    let st := meetStatus s n hit
    let s := bankMeet s n hit
    if bankFenced s n then bankReply s h 4 []
    else match f s with
      | .ok (t, d) => bankReply t h st d
      | .error e => if e.code ≠ 8 then s else bankFail s h n (leNat e.detail)

/-- A score-port operation: while its group is critical it waits, undone (R180). -/
def scoreRun (s : State) (h : BankHdr) (n : Nat) (hit : BankHit) (op : Instr) (f : State → Except CtxFlt (State × Bytes)) : State :=
  if (groupGet s (n / 64)).crit && !bankFenced s n then { s with bank := { s.bank with held := s.bank.held ++ [op] } }
  else bankRun s h n hit f

/-- Opcodes of Table BT-3. -/
def bankOpcs : List Nat := [1, 2, 3, 4, 5, 8, 9, 10, 11, 12, 13, 16, 17]

/-- BANK_READ: opcode 1 returns LEN units, status 3 where one holds an entry with a parity error; an opcode that Table BT-3 does not
list gets status 5 (R181). -/
def bankRead (s : State) (h : BankHdr) (n opc off len : Nat) (hit : BankHit) : State :=
  if !bankOpcs.contains opc then bankReply (bump s rBT_BAD_OPC) h 5 []
  else if opc ≠ 1 ∨ len = 0 ∨ off + len > 32768 then s
  else
    let t := bankRun s h n hit fun s => do
      let _ ← devR s (bankA n + 64 * off) (64 * len)
      return (s, tierR s (bankA n + 64 * off) (64 * len))
    if t.bank.status < 2 && unitsParity t n off len then bankReply t h 3 [] else t

/-- Device memory writes, up to the first that fails. -/
def writeAll (s : State) (ws : List (Nat × Bytes)) : Except CtxFlt (State × Bytes) :=
  match devWAll ws s with
  | (_, some e) => .error e
  | (t, none) => .ok (t, [])

/-- Store unit `u` of bank `n`: a Granary unit with the parity of its words, any other with its check words. -/
def unitW (s : State) (n u : Nat) (b : Bytes) : State :=
  match unitEntry s n u with
  | some (ep, i) => slotWrite s (n / 1024) ep i b
  | none => memW s (bankA n + 64 * u) b

/-- BANK_WRITE of whole 64-byte units. -/
def bankWrite (s : State) (h : BankHdr) (n off : Nat) (data : Bytes) (hit : BankHit) : State :=
  let len := data.length / 64
  if len = 0 ∨ data.length % 64 ≠ 0 ∨ off + len > 32768 then s
  else bankRun s h n hit fun s => .ok ((List.range len).foldl (fun s i => unitW s n (off + i) (slice data (64 * i) 64)) s, [])

/-! ### Score-port operations of one bank (R186, R187, R191 to R193) -/

/-- The history whose record lies at tier address `a`. -/
def histAt (s : State) (a : Nat) : Except CtxFlt Hist := histOf s (leAt (memR s (tierBase + a) 64) 12 2) (tierBase + a)

/-- Segments of a history that bank `n` processes: resident before spilled, ascending. -/
def bankSegs (h : Hist) (n : Nat) : List Nat :=
  let js := (List.range h.segs.length).filter fun j => (h.segs.getD j (0, 0, false)).1 == n
  (js.filter fun j => !(h.segs.getD j (0, 0, false)).2.2) ++ js.filter fun j => (h.segs.getD j (0, 0, false)).2.2

/-- Valid positions of bank `n`, in its order. -/
def bankPos (h : Hist) (n : Nat) : List Nat :=
  (bankSegs h n).flatMap fun j => (List.range (segValid h j)).map fun i => j * segPos h + i

/-- Scores of bank `n` for the rows of query codes. -/
def bankScores (s : State) (h : Hist) (n nq : Nat) (codes : Bytes) : Except CtxFlt (List (List Int)) :=
  (List.range nq).mapM fun q => (bankPos h n).mapM fun i => do
    let k ← devR s (keyA h i) h.dim
    return dotI (i8s (slice codes (q * h.dim) h.dim)) (i8s k)

/-- SCORE: the scores stay in the bank's buffer; the reply holds each query's maximum. -/
def bankScore (s : State) (hd : BankHdr) (n a nq : Nat) (codes : Bytes) (hit : BankHit) : State :=
  scoreRun s hd n hit (.score ⟨n, hd⟩ a nq codes hit) fun s => do
    let h ← histAt s a
    if nq = 0 ∨ nq > 16 ∨ (bankSegs h n).length * segPos h * nq > 4096 then throw (fltAt 4 0)
    let r ← bankScores s h n nq codes
    let best := fun (l : List Int) => match l with | [] => [] | x :: t => leBytes 4 (ofSigned 32 (t.foldl max x))
    return ({ s with bank := { s.bank with scores := tset [] s.bank.scores n r.flatten } }, r.flatMap best)

/-- VALUE: for each query and each segment of the bank, s_j and v_j, from the scores of phase 1. -/
def bankValue (s : State) (hd : BankHdr) (n a : Nat) (ms : List Int) (cs : List Nat) (hit : BankHit) : State :=
  scoreRun s hd n hit (.value ⟨n, hd⟩ a ms cs hit) fun s => do
    let h ← histAt s a
    let pos := bankPos h n
    let sc := tget [] s.bank.scores n
    let r ← (List.range ms.length).mapM fun q => do
      let at_ := fun i => sc.getD (q * pos.length + (pos.findIdx fun p => p == i)) 0
      let full := (List.range (histP h)).map at_
      (bankSegs h n).mapM fun j => segValue s h full (ms.getD q 0) (cs.getD q 0) (j * segPos h) (segValid h j)
    return (s, r.flatten.flatMap fun e => leBytes 4 e.1 ++ e.2.flatMap (leBytes 4))

/-- BANK_TOPK: the bank's list of the `k` best positions for each query. -/
def bankTopk (s : State) (hd : BankHdr) (n a nq k : Nat) (codes : Bytes) (hit : BankHit) : State :=
  scoreRun s hd n hit (.bankTopk ⟨n, hd⟩ a nq k codes hit) fun s => do
    let h ← histAt s a
    if nq = 0 ∨ nq > 16 ∨ k = 0 ∨ k > 64 ∨ nq * k > 1024 ∨ (bankSegs h n).length * segPos h * nq > 4096 then throw (fltAt 4 0)
    let r ← bankScores s h n nq codes
    let best := fun (l : List Int) => topBytes k ((l.zip (bankPos h n)).foldl (fun acc e =>
      ((acc.takeWhile fun x => decide (x.1 > e.1 ∨ (x.1 = e.1 ∧ x.2 < e.2))) ++ e ::
        (acc.dropWhile fun x => decide (x.1 > e.1 ∨ (x.1 = e.1 ∧ x.2 < e.2)))).take k) [])
    return (s, r.flatMap best)

/-- DOT: for each vector, the exact sums of the rows of W in the bank's segments. -/
def bankDot (s : State) (hd : BankHdr) (n a nv : Nat) (codes : Bytes) (hit : BankHit) : State :=
  scoreRun s hd n hit (.dot ⟨n, hd⟩ a nv codes hit) fun s => do
    let (rows, k, sb, bases) ← matrixOf s (leAt (memR s (tierBase + a) 32) 12 2) (tierBase + a)
    if nv = 0 ∨ nv > 16 then throw (fltAt 4 0)
    let mine := (List.range rows).filter fun i => bankOf (bases.getD (i / (16 * sb)) 0) == n
    let ws ← mine.mapM fun i => gemvRow s bases k sb i
    return (s, (List.range nv).flatMap fun q => ws.flatMap fun r => leBytes 4 (ofSigned 32 (dotI (i8s (slice codes (q * k) k)) r.1)))

/-- BANK_XPOSE: one 8 × 8 block at byte offset `off` of bank `n`, transposed to tier address `dst`. -/
def bankXpose (s : State) (hd : BankHdr) (n off spitch dst dpitch : Nat) (two : Bool) (hit : BankHit) : State :=
  let e := if two then 2 else 1
  if off + 7 * spitch + 8 * e > bankSize ∨ dst + 7 * dpitch + 8 * e > 2 ^ 33 then s
  else scoreRun s hd n hit (.bankXpose ⟨n, hd⟩ off spitch dst dpitch two hit) fun s => do
    let src ← (List.range 8).mapM fun r => devR s (bankA n + off + r * spitch) (8 * e)
    writeAll s ((List.range 8).map fun c => (tierBase + dst + c * dpitch, src.flatMap fun b => slice b (c * e) e))

/-- APPEND: the key and value codes of one position, when its segment lies with bank `n`. -/
def bankAppend (s : State) (hd : BankHdr) (n a pos : Nat) (key val : Bytes) (hit : BankHit) : State :=
  scoreRun s hd n hit (.append ⟨n, hd⟩ a pos key val hit) fun s => do
    let h ← histAt s a
    if pos ≥ histCap h ∨ (h.segs.getD (pos / segPos h) (0, 0, false)).1 ≠ n then throw (fltAt 4 0)
    writeAll s [(keyA h pos, slice key 0 h.dim), (valA h pos, slice val 0 h.dim)]

/-- A score-port operation of one bank. -/
def bankOp (i : Instr) (s : State) : State :=
  match i with
  | .score ⟨n, h⟩ a nq codes hit => bankScore s h n a nq codes hit
  | .value ⟨n, h⟩ a ms cs hit => bankValue s h n a ms cs hit
  | .bankTopk ⟨n, h⟩ a nq k codes hit => bankTopk s h n a nq k codes hit
  | .dot ⟨n, h⟩ a nv codes hit => bankDot s h n a nv codes hit
  | .bankXpose ⟨n, h⟩ off sp dst dp two hit => bankXpose s h n off sp dst dp two hit
  | .append ⟨n, h⟩ a pos key val hit => bankAppend s h n a pos key val hit
  | _ => s

/-- The score-port operations that wait try again, in their order: those whose group is still critical wait on (R180). -/
def bankPump (s : State) : State :=
  if s.bank.held.isEmpty then s
  else s.bank.held.foldl (fun s i => bankOp i s) { s with bank := { s.bank with held := [] } }

/-! ### Scrub, copy, remap (R195, R197, R455) -/

/-- PATROL_SCRUB of one unit of an ECC region: it is read and corrected. Granary units are left to the aging scan. -/
def patrolScrub (s : State) (h : BankHdr) (n unit : Nat) (hit : BankHit) : State :=
  if unit ≥ 32768 ∨ parityUnit s n unit then s
  else bankRun s h n hit fun s => do
    let b ← devR s (bankA n + 64 * unit) 64
    return (s, b)

/-- MIGRATION_COPY: `k` more units of a bank under retirement have been copied. -/
def migrationCopy (s : State) (h : BankHdr) (n k : Nat) : State :=
  let v := groupGet s (n / 64)
  groupPut (bankReply s h 0 []) (n / 64) { v with copying := v.copying.map fun e => if e.1 = n % 64 then (e.1, e.2.1, min 32768 (e.2.2 + k)) else e }

/-- BANK_REMAP: the copy is complete, the remap table entry changes. -/
def bankRemap (s : State) (n : Nat) : State :=
  let g := n / 64
  let v := groupGet s g
  match v.copying.find? fun e => e.1 == n % 64 && decide (e.2.2 ≥ 32768) with
  | none => s
  | some e =>
    let s := bankRecord (lifeInc (bump s rBT_RETIRED) 168) 4 n 0
    let old := physBank s n
    let s := groupPut s g { v with copying := v.copying.erase e, spent := if old ≥ 64 then v.spent ++ [old] else v.spent, map := tset none v.map (n % 64) (some e.2.1),
                                   ceUnits := tset [] v.ceUnits (n % 64) [], bse := tset [] v.bse (n % 64) [],
                                   bseOut := tset false v.bseOut (n % 64) false }
    let raw := s.bad.filter fun c => decide (bankA n ≤ c.1 ∧ c.1 < bankA n + bankSize)
    let s := { s with carried := raw.foldl (fun t c => tset false t c.1 true) s.carried, spares := tmod 0 s.spares g (· + 1) }
    let s := epochAdvance (repairCommit (repairSet s (repBank n) e.2.1)) 4
    match s.faults.find? fun f => f.unit == unitCode 4 g && f.action == 7 with
    | some f => faultEnd s f.cls f.unit 0
    | none => s

/-! ### Refresh and activation budget (R178, R179) -/

/-- BANK_REFRESH: the bank is taken for tRFCB; the time of its last refresh. -/
def bankRefresh (s : State) (n : Nat) : State :=
  if n ≥ 4096 then s else { s with bank := { s.bank with times := tset 0 s.bank.times n s.gt } }

/-- Activation budget of a group in the window that runs: halved when the group was hot as the window began (R180, Table BT-8). -/
def actBudget (s : State) (g : Nat) : Nat :=
  let b := clampN 16 96 (rgf s rBT_ACT 7 0)
  if (groupGet s g).halved then b / 2 else b

/-- What each of the priorities in turn gets of a budget (R179). -/
def actGrants : Nat → List Nat → List Nat
  | _, [] => []
  | b, d :: r => min b d :: actGrants (b - d) r

/-- The contexts with a score-port command in progress on group `g`. -/
def spOn (s : State) (g : Nat) : List Nat :=
  (s.tiles.flatMap fun t => t.2.sb.filterMap fun e => match e.2 with
    | some x => if x.engine = 5 ∧ x.groups.contains g then some x.ctx else none
    | none => none).eraseDups

/-- The window ends for one group: what its four priorities asked for is granted in order; what is left over has waited. A
score-port command that waited on a hot or critical group is a demand of its context (Table VD-6). Answers whether an operation
waited. -/
def groupWindow (a : State × Bool) (e : Nat × List Nat) : State × Bool :=
  if e.1 ≥ 64 then a else
  let s := a.1
  let v := groupGet s e.1
  let got := actGrants (actBudget s e.1) (e.2.take 4)
  let n := got.sum
  let s := cinc (groupPut s e.1 { v with actLast := n }) (cGroup e.1 0) n
  let s := if (v.hot || v.crit) && decide (got.getD 2 0 < e.2.getD 2 0) then
      (spOn s e.1).foldl (fun s c => demand s (tilePart s (c / 1024)) c) s
    else s
  (s, a.2 || decide (n < (e.2.take 4).sum))

/-- ACTIVATION_WINDOW: what the operations of each group asked for in the window that ends is granted; then each hot group's budget is
halved for the next (R179, R180). -/
def activationWindow (s : State) (acts : List (Nat × List Nat)) : State :=
  let s := (List.range 64).foldl (fun s g => let v := groupGet s g; if v.actLast = 0 then s else groupPut s g { v with actLast := 0 }) s
  let (s, waited) := acts.foldl groupWindow (s, false)
  let s := (List.range 64).foldl (fun s g => let v := groupGet s g; if v.halved = v.hot then s else groupPut s g { v with halved := v.hot }) s
  if waited then bump s rBT_ACT_WAIT else s

/-! ### Registers (R200) -/

/-- Computed BT registers. -/
def btRegRead (s : State) (o : Nat) : Option Nat :=
  let g := rgf s rBT_GROUP_SEL 5 0
  let v := groupGet s g
  if o = 0x024 then
    some (ofSigned 8 v.temp * 2 ^ 24 + b2n v.r2x * 2 ^ 23 + b2n v.hot * 2 ^ 22 + b2n v.crit * 2 ^ 21 + (freeSpares v).length * 2 ^ 19 +
      b2n (!v.fenced.isEmpty) * 2 ^ 18 + b2n (!v.copying.isEmpty) * 2 ^ 17 + min 255 v.actLast)
  else if 0x100 ≤ o ∧ o < 0x200 then some (physBank s (64 * g + (o - 0x100) / 4))
  else none

/-- A history exists: an occupied slot holds one (R200). -/
def anyHistory (s : State) : Bool := s.slots.any fun e => e.2.kept.any fun k => k.type == 9

/-- Writes to BT registers that are not plain storage. -/
def btRegWrite (s : State) (o : Nat) : Option State := if o = 0x004 ∧ anyHistory s then some s else none

/-! ### The commands -/

/-- BANK_READ (R181). -/
def execBankRead (b : BankTo) (opc off len : Nat) (hit : BankHit) (s : State) : Host.Outcome State Fault Refusal :=
  .next (bankRead s b.hdr b.bank opc off len hit)

/-- BANK_WRITE (R181). -/
def execBankWrite (b : BankTo) (off : Nat) (data : Bytes) (hit : BankHit) (s : State) : Host.Outcome State Fault Refusal :=
  .next (bankWrite s b.hdr b.bank off data hit)

/-- SCORE (R186). -/
def execScore (b : BankTo) (rec_ nq : Nat) (codes : Bytes) (hit : BankHit) (s : State) : Host.Outcome State Fault Refusal :=
  .next (bankScore (bankPump s) b.hdr b.bank rec_ nq codes hit)

/-- VALUE (R186). -/
def execValue (b : BankTo) (rec_ : Nat) (ms : List Int) (cs : List Nat) (hit : BankHit) (s : State) :
    Host.Outcome State Fault Refusal := .next (bankValue (bankPump s) b.hdr b.bank rec_ ms cs hit)

/-- BANK_TOPK (R191). -/
def execBankTopk (b : BankTo) (rec_ nq k : Nat) (codes : Bytes) (hit : BankHit) (s : State) :
    Host.Outcome State Fault Refusal := .next (bankTopk (bankPump s) b.hdr b.bank rec_ nq k codes hit)

/-- DOT (R192). -/
def execDot (b : BankTo) (rec_ nv : Nat) (codes : Bytes) (hit : BankHit) (s : State) : Host.Outcome State Fault Refusal :=
  .next (bankDot (bankPump s) b.hdr b.bank rec_ nv codes hit)

/-- BANK_XPOSE (R193). -/
def execBankXpose (b : BankTo) (off spitch dst dpitch : Nat) (two : Bool) (hit : BankHit) (s : State) :
    Host.Outcome State Fault Refusal := .next (bankXpose (bankPump s) b.hdr b.bank off spitch dst dpitch two hit)

/-- APPEND (R184). -/
def execAppend (b : BankTo) (rec_ pos : Nat) (key val : Bytes) (hit : BankHit) (s : State) :
    Host.Outcome State Fault Refusal := .next (bankAppend (bankPump s) b.hdr b.bank rec_ pos key val hit)

/-- MIGRATION_COPY (R197). -/
def execMigrationCopy (b : BankTo) (units : Nat) (s : State) : Host.Outcome State Fault Refusal :=
  .next (migrationCopy s b.hdr b.bank units)

/-- PATROL_SCRUB (R195). -/
def execPatrolScrub (b : BankTo) (unit : Nat) (hit : BankHit) (s : State) : Host.Outcome State Fault Refusal :=
  .next (patrolScrub s b.hdr b.bank unit hit)

/-- BANK_REMAP (R197). -/
def execBankRemap (bank : Nat) (s : State) : Host.Outcome State Fault Refusal := .next (bankRemap s bank)

/-- BANK_REFRESH (R178). -/
def execBankRefresh (bank : Nat) (s : State) : Host.Outcome State Fault Refusal := .next (bankRefresh s bank)

/-- ACTIVATION_WINDOW (R179). -/
def execActivationWindow (acts : List (Nat × List Nat)) (s : State) : Host.Outcome State Fault Refusal := .next (activationWindow s acts)

end Sys2Proof.Machine
end

