-- ==== Sys2Proof/Machine/Models.lean ====
section
/-! DEFINITION. Model images: their checks, allocation, placement, retained copies, the load channel, arming, commit
and draining (R254 to R268, R321). -/

namespace Sys2Proof.Machine

/-! ### Customer roots (R402) -/

/-- State byte (0 EMPTY, 1 ACTIVE, 2 REVOKED) of root slot `r`, in the ENROL structure as resolved. -/
def rootState (s : State) (r : Nat) : Nat := byteAt (flsBody s 2) (4 + 65 * r)

/-- Key of root slot `r`. -/
def rootKey (s : State) (r : Nat) : Bytes := slice (flsBody s 2) (5 + 65 * r) 64

/-! ### Image layout (Tables MDL-1 and MDL-2) -/

/-- Bytes of an SLH-DSA-SHAKE-256s signature. -/
def sigBytes : Nat := 29792

/-- A section entry. -/
structure Sect where
  type : Nat
  keep : Bool
  id : Nat
  off : Nat
  size : Nat
  dest : Nat
deriving DecidableEq, Repr, Inhabited

/-- Section `i` of an image. -/
def sectOf (b : Bytes) (i : Nat) : Sect :=
  let a := 256 + 32 * i
  { type := byteAt b a, keep := bit (byteAt b (a + 1)) 0, id := leAt b (a + 2) 2, off := leAt b (a + 8) 8,
    size := leAt b (a + 16) 8, dest := leAt b (a + 24) 8 }

/-- Sections of an image. -/
def sectsOf (b : Bytes) : List Sect := (List.range (leAt b 10 2)).map (sectOf b)

/-- Bytes of a range are zero. -/
def zeros (b : Bytes) (i n : Nat) : Bool := (slice b i n).all fun x => x == 0

/-- LENGTH. -/
def imgLen (b : Bytes) : Nat := leAt b 32 8
/-- SRAM_NEED in bytes. -/
def imgSram (b : Bytes) : Nat := leAt b 40 4
/-- TIER_NEED in bytes. -/
def imgTier (b : Bytes) : Nat := leAt b 44 4 * 65536
/-- LP_NEED in bytes. -/
def imgLp (b : Bytes) : Nat := leAt b 48 4 * 65536
/-- STREAM_LEN. -/
def imgSlen (b : Bytes) : Nat := leAt b 52 2
/-- KNOT_COUNT. -/
def imgKnots (b : Bytes) : Nat := leAt b 54 2
/-- REQ_STRIDE. -/
def imgStride (b : Bytes) : Nat := leAt b 56 2
/-- STREAM_OFF. -/
def imgSoff (b : Bytes) : Nat := leAt b 60 4
/-- REQ_OFF. -/
def imgRoff (b : Bytes) : Nat := leAt b 64 4
/-- The image digest (R254). -/
def imgDigest (b : Bytes) : Bytes := digest64 (b.take (imgLen b))

/-- MAGIC, FORMAT and reserved fields. -/
def hdrForm (b : Bytes) : Bool :=
  decide (256 ≤ b.length) && leAt b 0 4 == 0x314C444D && leAt b 4 2 == 1 && decide (byteAt b 6 < 4) &&
  bits (byteAt b 7) 3 2 == 0 && decide (bits (byteAt b 7) 7 6 ≠ 3) && decide (bits (byteAt b 7) 5 4 ≠ 3) &&
  zeros b 12 4 && zeros b 58 2 && zeros b 68 4 && zeros b 136 120

/-- STEPPING, grade, MODE and, for a logical tile, TILE. -/
def hdrTarget (s : State) (l : Option Nat) (b : Bytes) : Bool :=
  let w := byteAt b 7
  let mode := bits w 7 6
  let tile := bits w 5 4
  leAt b 8 2 == 0x00B2 && bit w (if rgf s rGLB_CONFIG 31 30 = 0 then 0 else 1) &&
  (mode == 0 || (mode == 2) == unguarded s) &&
  match l with
  | some l => tile == 0 || (tile == 2) == braided s l
  | none => true

/-- Limits of Table MDL-1; the bytes supplied are LENGTH and the signature. -/
def hdrLimits (b : Bytes) : Bool :=
  let n := leAt b 10 2
  decide (1 ≤ n ∧ n ≤ 64) && decide (imgLen b % 64 = 0 ∧ b.length = imgLen b + sigBytes ∧ b.length ≤ 2 ^ 32) &&
  decide (imgSram b % 64 = 0) && decide (1 ≤ imgSlen b ∧ imgSlen b ≤ 16384) &&
  decide (1 ≤ imgKnots b ∧ imgKnots b ≤ if bits (byteAt b 7) 5 4 = 2 then 8192 else 4096) &&
  decide (128 ≤ imgStride b ∧ imgStride b ≤ 4096 ∧ imgStride b % 64 = 0)

/-- Where a placed section goes: space, offset in the region or window. -/
def sectAt (b : Bytes) (x : Sect) : Option (Nat × Nat) :=
  match x.type with
  | 1 => some (0, imgSoff b)
  | 2 => some (0, x.dest)
  | 3 => some (1, x.dest)
  | 4 => some (2, x.dest)
  | _ => none

/-- Size a section must have. -/
def sectSize (b : Bytes) (x : Sect) : Bool :=
  match x.type with
  | 1 => x.size == 32 * imgSlen b
  | 2 | 3 | 4 => true
  | 5 => x.size == 4 * imgKnots b
  | 6 => x.size % 4 == 0
  | 7 => x.size % 20 == 0
  | 8 => x.size % 64 == 0
  | _ => false

/-- One section entry alone is well formed (Tables MDL-2 and MDL-3, R254, R255). -/
def sectOk (b : Bytes) (i : Nat) : Bool :=
  let x := sectOf b i
  let n := leAt b 10 2
  sectSize b x && decide (byteAt b (257 + 32 * i) < 2) && zeros b (260 + 32 * i) 4 &&
  decide (x.off % 64 = 0 ∧ 256 + 32 * n ≤ x.off ∧ x.off + x.size ≤ imgLen b) &&
  (!(x.type == 1 || x.type == 5 || x.type == 6 || x.type == 7) || x.dest == 0) &&
  (!(x.type == 3 || x.type == 4) || x.dest % 64 == 0) &&
  match sectAt b x with
  | some (0, d) => decide (d + x.size ≤ imgSram b)
  | some (1, d) => decide (d + x.size ≤ imgTier b)
  | some (_, d) => decide (d + x.size ≤ imgLp b)
  | none => true

/-- Extents of the image as (space, offset, size, section): the request buffers, and each placed section (the ring is the
STREAM section's). -/
def extents (b : Bytes) : List (Nat × Nat × Nat × Nat) :=
  (0, imgRoff b, 64 * imgStride b, 64) ::
  (List.range (leAt b 10 2)).filterMap fun i =>
    let x := sectOf b i
    (sectAt b x).map fun e => (e.1, e.2, x.size, i)

/-- Two extents overlap; an extent of no bytes overlaps none. -/
def extMeet (a b : Nat × Nat × Nat × Nat) : Bool :=
  a.1 == b.1 && decide (0 < a.2.2.1 ∧ 0 < b.2.2.1 ∧ a.2.1 < b.2.1 + b.2.2.1 ∧ b.2.1 < a.2.1 + a.2.2.1)

/-- The section table holds together (R255): the first failing section, if any; of two that overlap, the later. -/
def tableBad (b : Bytes) : Option Nat :=
  let n := leAt b 10 2
  let es := extents b
  let ids := (sectsOf b).map fun x => x.id
  match (List.range n).find? fun i => !sectOk b i || (ids.take i).contains (ids.getD i 0) with
  | some i => some i
  | none =>
    if ((sectsOf b).filter fun x => x.type == 1).length ≠ 1 ∨ imgSoff b % 32 ≠ 0 ∨
       imgRoff b + 64 * imgStride b > imgSram b then some 0
    else ((List.range es.length).find? fun i => (es.take i).any (extMeet (es.getD i (0, 0, 0, 64)))).map fun i => (es.getD i (0, 0, 0, 64)).2.2.2

/-! ### PLACED declarations (R257) -/

/-- A declaration: kind, record offset, SEGS (history) or ROWS, K, SEG_BLOCKS, SEGS (matrix). -/
structure Placed where
  sect : Nat
  idx : Nat
  keep : Bool
  kind : Nat
  off : Nat
  segs : Nat
  log2 : Nat
  dim : Nat
  kscale : Nat
  vscale : Nat
  rows : Nat
  k : Nat
  blocks : Nat
  weights : Nat
deriving DecidableEq, Repr, Inhabited

/-- Declaration at byte `a`: a matrix's fields stand 16 bytes on from their places in its record, and SEGS follows from ROWS
(log entry 31). -/
def placedOf (b : Bytes) (sect : Nat) (keep : Bool) (a idx : Nat) : Placed :=
  { sect := sect, idx := idx, keep := keep, kind := byteAt b a, off := leAt b (a + 8) 8, segs := if byteAt b a = 1 then leAt b (a + 16) 2 else cdiv (leAt b (a + 16) 4) (16 * byteAt b (a + 22)),
    log2 := byteAt b (a + 18), dim := byteAt b (a + 19), kscale := leAt b (a + 20) 4, vscale := leAt b (a + 24) 4,
    rows := leAt b (a + 16) 4, k := leAt b (a + 20) 2, blocks := byteAt b (a + 22), weights := leAt b (a + 28) 2 }

/-- Every declaration of an image, with the section's place. -/
def placedAll (b : Bytes) : List (Nat × Placed) :=
  (List.range (leAt b 10 2)).flatMap fun i =>
    let x := sectOf b i
    if x.type = 8 then (List.range (x.size / 64)).map fun j => (i, placedOf b x.id x.keep (x.off + 64 * j) j) else []

/-- Bytes of a history segment. -/
def segBytes (d : Placed) : Nat := 2 * 2 ^ d.log2 * (if d.dim = 0 then 64 else 128)

/-- Bytes of a matrix segment: its data blocks and their scale blocks. -/
def matBytes (d : Placed) : Nat := d.blocks * (blkBytes d.k 0 + 256)

/-- Bytes of a declaration's record and placement table: the table lies 64 bytes after the record (log entry 31). -/
def placedSpan (d : Placed) : Nat := 64 + cdiv (16 * d.segs) 64 * 64

/-- The TIER section that holds a matrix's weights. -/
def weightSect (b : Bytes) (d : Placed) : Option Sect := (sectsOf b).find? fun x => x.type == 3 && x.id == d.weights

/-- A declaration is within its limits (Table BT-6, R192). -/
def placedOk (b : Bytes) (d : Placed) : Bool :=
  decide (d.off % 64 = 0 ∧ d.off + placedSpan d ≤ imgTier b) && decide (1 ≤ d.segs ∧ d.segs ≤ 4096) &&
  match d.kind with
  | 1 => decide (4 ≤ d.log2 ∧ d.log2 ≤ 10 ∧ d.dim ≤ 1)
  | 2 => decide (1 ≤ d.rows ∧ d.rows ≤ 1048576 ∧ 1 ≤ d.k ∧ d.k ≤ 4096 ∧ 1 ≤ d.blocks ∧ d.blocks ≤ 128) &&
    match weightSect b d with
    | some x => decide (d.segs * matBytes d ≤ x.size)
    | none => false
  | _ => false

/-! ### Checks of step 2 (R260) -/

/-- Status and DETAIL of the checks of header and section table, for a logical tile or, of a library image, none. -/
def imgTable (s : State) (l : Option Nat) (b : Bytes) : Option (Nat × Nat) :=
  if !hdrForm b then some (1, 0)
  else if !hdrTarget s l b then some (2, 0)
  else if !hdrLimits b then some (1, 0)
  else (tableBad b).map fun i => (9, i)

/-- Status and DETAIL of the checks of the PLACED declarations. -/
def imgPlaced (b : Bytes) : Option (Nat × Nat) := ((placedAll b).find? fun e => !placedOk b e.2).map fun e => (9, e.1)

/-- Step 3: WEAVE_DIGEST. -/
def imgWeave (s : State) (b : Bytes) : Option (Nat × Nat) :=
  if slice b 72 64 ≠ slice s.wv.structure_ 0 64 then some (3, 0) else none

/-- Steps 2 and 3. -/
def imgVerify (s : State) (l : Option Nat) (b : Bytes) : Option (Nat × Nat) :=
  ((imgTable s l b).orElse fun _ => imgPlaced b).orElse fun _ => imgWeave s b

/-- Step 6. -/
def imgSigned (s : State) (b : Bytes) : Option (Nat × Nat) :=
  let r := byteAt b 6 % 4
  if rootState s r ≠ 1 then some (8, 0)
  else if Config.slhVerify (rootKey s r) (imgDigest b) (slice b (imgLen b) sigBytes) then none else some (7, 0)

/-! ### Allocation (R258, R260) -/

/-- Round up to a multiple. -/
def roundUp (n a : Nat) : Nat := cdiv n a * a

/-- The lowest base in `lo ≤ base`, `base + size ≤ hi`, aligned, free of the occupied intervals and acceptable (which free
storage is taken is open: log entry 14). -/
def firstFit (occ : List (Nat × Nat)) (lo hi align size : Nat) (ok : Nat → Bool) : Option Nat :=
  let free := fun (b : Nat) => decide (b + size ≤ hi) && ok b && occ.all fun e => decide (b + size ≤ e.1 ∨ e.1 + e.2 ≤ b)
  ((lo :: occ.map fun e => e.1 + e.2).map fun x => roundUp (max lo x) align).foldl (fun (a : Option Nat) b =>
    if free b then (match a with | some y => some (min y b) | none => some b) else a) none

/-- What the slots of all contexts hold of a space, kept to those a test picks. -/
def occupied (s : State) (sp : Nat) (mine : Nat → Bool) : List (Nat × Nat) :=
  s.slots.flatMap fun e => if mine (e.1 / 2) then (e.2.allocs.filter fun a => a.1 == sp).map fun a => a.2 else []

/-- An interval of tier offsets trimmed to 64 KiB units. -/
def trimGap (e : Nat × Nat) : Nat × Nat := (roundUp e.1 65536, e.2 / 65536 * 65536)

/-- Intervals of tier offsets of bank `n` that windows may take: what its Granary buckets, the fixed structures, its history region
and the report queues' pool leave (R380; log entry 32). -/
def bankGaps (s : State) (n : Nat) : List (Nat × Nat) :=
  if bankFenced s n then [] else
  let t := bankTaken s n
  let h := histRegion s n
  let l := if t ≤ h.1 ∧ h.1 < h.2 then [(t, h.1), (h.2, bankCap n)] else [(t, bankCap n)]
  (l.map fun e => trimGap (n * bankSize + e.1, n * bankSize + e.2)).filter fun e => decide (e.1 < e.2)

/-- A window cut over gaps in turn: (window offset, size, tier offset) of each piece. -/
def cutWindow : List (Nat × Nat) → Nat → Nat → Option (List (Nat × Nat × Nat))
  | _, _, 0 => some []
  | [], _, _ => none
  | (a, z) :: r, o, n => (cutWindow r (o + min n (z - a)) (n - min n (z - a))).map fun l => (o, min n (z - a), a) :: l

/-- The lists that remain of a list. -/
def restsOf : List (Nat × Nat) → List (List (Nat × Nat))
  | [] => []
  | e :: r => (e :: r) :: restsOf r

/-- A tier window of `size` bytes in a partition's home space: in one gap where it fits, else over several banks (which free storage
is taken is open: log entry 14). -/
def tierWindow (s : State) (p size : Nat) (occ : List (Nat × Nat)) (ok : List (Nat × Nat × Nat) → Bool) : Option (List (Nat × Nat × Nat)) :=
  let gaps := (List.range 1024).map fun i => bankGaps s (1024 * p + i)
  if size = 0 then some [] else
  match gaps.findSome? fun l => l.findSome? fun g => firstFit occ g.1 g.2 65536 size fun b => ok [(0, size, b)] with
  | some b => some [(0, size, b)]
  | none =>
    let free := gaps.flatten.filter fun g => occ.all fun e => decide (g.2 ≤ e.1 ∨ e.1 + e.2 ≤ g.1)
    (restsOf free).findSome? fun l => (cutWindow l 0 size).bind fun w => if ok w then some w else none

/-- Bytes of LPDDR5X fitted (LP_GIB of GLB_CONFIG). -/
def lpBytes (s : State) : Nat := rgf s rGLB_CONFIG 8 0 * 2 ^ 30

/-- The segments of one logical group of a history on group `g`: a bank and offset for each. -/
def groupFit (s : State) (occ : List (Nat × Nat)) (g n size : Nat) : Option (List (Nat × Nat)) :=
  (List.range n).mapM fun i =>
    let bank := 64 * g + i % 64
    let (lo, hi) := histRegion s bank
    if bankFenced s bank then none
    else (firstFit occ (bank * bankSize + lo) (bank * bankSize + hi) 64 size fun _ => true).map fun a => (bank, a - bank * bankSize)

/-- A group ranks ahead of another (R306): normal refresh first, then the lower temperature, then the lower number. -/
def groupAhead (s : State) (a b : Nat) : Bool :=
  let x := groupGet s a
  let y := groupGet s b
  if x.r2x != y.r2x then y.r2x else if x.temp ≠ y.temp then decide (x.temp < y.temp) else decide (a < b)

/-- Groups in the order an allocation tries them, hot ones left out (R180, R306). -/
def groupOrder (s : State) : List Nat :=
  ((List.range 64).filter fun g => !(groupGet s g).hot).foldl (fun acc g =>
    (acc.takeWhile fun x => groupAhead s x g) ++ g :: acc.dropWhile fun x => groupAhead s x g) []

/-- The groups that may take one more logical group of a history whose logical groups lie on `gs`: those that hold fewest of them
first, by rank among these, as long as the score buffers of their banks hold the positions (R187, R306; log entry 144). -/
def spreadOrder (s : State) (log2 : Nat) (gs : List Nat) : List Nat :=
  let order := groupOrder s
  (List.range 64).flatMap fun k => if (k + 1) * 2 ^ log2 ≤ 4096 then order.filter fun q => gs.count q == k else []

/-- The group whose banks process `n` spilled segments: the first with none of them fenced. -/
def spillHome (s : State) (log2 n : Nat) (gs : List Nat) : Nat :=
  let order := spreadOrder s log2 gs
  (order.find? fun q => (List.range n).all fun i => !bankFenced s (64 * q + i)).getD (order.headD 0)

/-- A history under placement: its segments so far, the storage taken, spilling has begun, the group of each logical group. -/
structure HistFill where
  segs : List (Nat × Option Nat)
  occ : List (Nat × Nat)
  spill : Bool
  homes : List Nat

/-- Place the next logical group, of `n` segments. -/
def histFill (s : State) (d : Placed) (a : HistFill) (n : Nat) : HistFill :=
  let size := segBytes d
  let hit := if a.spill then none
    else (spreadOrder s d.log2 a.homes).findSome? fun q => (groupFit s a.occ q n size).map fun l => (q, l)
  match hit with
  | some (q, l) => { a with segs := a.segs ++ l.map fun e => (e.1, some e.2), occ := a.occ ++ l.map fun e => (e.1 * bankSize + e.2, size),
                            homes := a.homes ++ [q] }
  | none =>
    let q := spillHome s d.log2 n a.homes
    { a with segs := a.segs ++ (List.range n).map fun i => (64 * q + i, none), spill := true, homes := a.homes ++ [q] }

/-- Placement of a history (R190): its segments as (bank, offset in the bank or none when spilled); the logical groups from the first
that finds no room are spilled. -/
def histPlace (s : State) (d : Placed) (occ : List (Nat × Nat)) : List (Nat × Option Nat) :=
  ((List.range (cdiv d.segs 64)).foldl (fun a g => histFill s d a (min 64 (d.segs - 64 * g)))
    { segs := [], occ := occ, spill := false, homes := [] }).segs

/-! ### Reservation (step 4) -/

/-- The ACTIVE slot whose sections KEEP may carry. -/
def keepFrom (s : State) (c : Nat) : List KeptSect :=
  let x := ctxGet s c
  if (mslotGet s c x.active).state = 4 then (mslotGet s c x.active).kept else []

/-- The partner of a KEEP section (R259). -/
def keepSect (s : State) (c : Nat) (x : Sect) : Option KeptSect :=
  if x.keep then (keepFrom s c).find? fun k => k.type == x.type && k.id == x.id && k.size == x.size && decide (x.type ≤ 4) else none

/-- The history that a KEEP declaration adopts. -/
def keepHist (s : State) (c : Nat) (d : Placed) : Option KeptSect :=
  if !d.keep || d.kind != 1 then none
  else (keepFrom s c).find? fun k =>
    let b := memR s (tierBase + k.addr) 64
    k.type == 9 && k.id == d.sect && k.size == d.idx && leAt b 8 2 == d.segs && byteAt b 10 == d.log2 && byteAt b 11 == d.dim &&
    leAt b 16 4 == d.kscale && leAt b 20 4 == d.vscale

/-- Where `n` bytes of tier storage that start at tier offset `q` lie, in a slot whose window is cut over banks. -/
def storeRun (v : SlotImg) : Nat → Nat → Nat → List (Nat × Nat)
  | 0, _, _ => []
  | f + 1, q, n =>
    if n = 0 then [] else
    match v.maps.find? fun e => e.1 == 1 && decide (e.2.2.2 ≤ q ∧ q < e.2.2.2 + e.2.2.1) with
    | none => [(q, n)]
    | some (_, o, z, a) =>
      let k := min n (a + z - q)
      (q, k) :: match v.maps.find? fun e => e.1 == 1 && e.2.1 == o + z with
        | some e => storeRun v f e.2.2.2 (n - k)
        | none => storeRun v f (v.tierBase + o + z) (n - k)

/-- Kept storage as maps from window offset `o` on. -/
def mapRun (sp : Nat) : Nat → List (Nat × Nat) → List (Nat × Nat × Nat × Nat)
  | _, [] => []
  | o, (q, n) :: r => (sp, o, n, q) :: mapRun sp (o + n) r

/-- Kept storage of the new slot as the maps of its image (R259). -/
def keepMaps (s : State) (c : Nat) (b : Bytes) : List (Nat × Nat × Nat × Nat) :=
  let old := (ctxGet s c).img
  ((sectsOf b).flatMap fun x => match keepSect s c x, sectAt b x with
    | some k, some (sp, o) => mapRun sp o (if sp = 1 then storeRun old (old.maps.length + 2) k.addr x.size else [(k.addr, x.size)])
    | _, _ => []) ++
  (placedAll b).filterMap fun e => (keepHist s c e.2).map fun k => (1, e.2.off, placedSpan e.2, k.addr)

/-- A reservation: bases of the region, the pieces of the tier window, bases of LPDDR5X window, retained copy, knots. -/
structure Reserve where
  sram : Nat
  tier : List (Nat × Nat × Nat)
  lp : Nat
  copy : Nat
  knots : Nat
deriving DecidableEq, Repr, Inhabited

/-- Initial knot values of an image. -/
def imgKnotVals (b : Bytes) : List Nat :=
  match (sectsOf b).find? fun x => x.type == 5 with
  | some x => (List.range (imgKnots b)).map fun i => leAt b (x.off + 4 * i) 4
  | none => []

/-- What the image of a reservation sets in the context record. -/
def imgOf (s : State) (c : Nat) (b : Bytes) (r : Reserve) : SlotImg :=
  { streamBase := r.sram + imgSoff b, streamLen := imgSlen b, regionBase := r.sram, regionSize := imgSram b,
    reqBase := r.sram + imgRoff b, reqStride := imgStride b, knotBase := r.knots, knotCount := imgKnots b,
    tierBase := (r.tier.map fun e => e.2.2).headD 0, tierSize := imgTier b, lpBase := r.lp, lpSize := imgLp b, knots := imgKnotVals b,
    gen := 0, maps := keepMaps s c b ++ if r.tier.length ≤ 1 then [] else r.tier.map fun e => (1, e) }

/-- `n` bytes of a tier window lie together in one bank. -/
def oneBank (s : State) (l : Nat) (v : SlotImg) (o n : Nat) : Bool :=
  let a := physA s l v 1 o
  decide (physA s l v 1 (o + n - 1) = a + n - 1 ∧ bankOf a = bankOf (a + n - 1))

/-- Records, placement tables and matrix segments each lie together in one bank. -/
def placedFit (s : State) (l : Nat) (v : SlotImg) (b : Bytes) : Bool :=
  (placedAll b).all fun e =>
    oneBank s l v e.2.off (placedSpan e.2) &&
    match e.2.kind, weightSect b e.2 with
    | 2, some x => (List.range e.2.segs).all fun j => oneBank s l v (x.dest + j * matBytes e.2) (matBytes e.2)
    | _, _ => true

/-- What retained copies and the images that sessions receive take of their region. -/
def copiesTaken (s : State) : List (Nat × Nat) :=
  (occupied s 4 fun _ => true) ++ s.sessions.filterMap fun e => e.2.map fun v => (v.copyAt, 2 * roundUp v.size 64)

/-- Room for the two retained copies of an image of `n` bytes. -/
def copyRoom (s : State) (n : Nat) : Option Nat :=
  let (rb, rs) := lpRegion s 2
  firstFit (copiesTaken s) rb (rb + rs) 64 (2 * roundUp n 64) fun _ => true

/-- Step 4: everything but the banks of the histories. `at_`: where a session has placed the retained copy. -/
def reserve (s : State) (c : Nat) (b : Bytes) (at_ : Option Nat) : Option Reserve := do
  let l := c / 1024
  let p := tilePart s l
  let k := members s l
  let sram ← firstFit (occupied s 0 fun d => d / 1024 == l) 0 (k * 20971520) 64 (imgSram b) fun _ => true
  let lp ← if imgLp b = 0 then some 0 else
    firstFit (occupied s 2 fun _ => true) (s.wv.poolAt * 65536) (lpBytes s) 65536 (imgLp b) fun _ => true
  let copy ← match at_ with | some a => some a | none => copyRoom s b.length
  let knots ← firstFit (occupied s 3 fun d => d / 1024 == l) 0 (k * 4096) 1 (imgKnots b) fun _ => true
  let r : Reserve := { sram := sram, tier := [], lp := lp, copy := copy, knots := knots }
  let tier ← tierWindow s p (imgTier b) (occupied s 1 fun _ => true) fun w => placedFit s l (imgOf s c b { r with tier := w }) b
  return { r with tier := tier }

/-! ### Placement (step 7) -/

/-- Write the placed sections of an image; `all` also those whose storage was kept (a refill, R320). -/
def placeSects (s : State) (l : Nat) (v : SlotImg) (b : Bytes) (keep : Sect → Bool) (only : Nat → Bool) : State :=
  (sectsOf b).foldl (fun s x =>
    match sectAt b x with
    | some (sp, o) => if keep x || !only sp then s else spW s l v sp (if sp = 0 then v.regionBase + o else o) (slice b x.off x.size)
    | none => s) s

/-- Region offsets that the RELOC sections name, each once. -/
def relocs (b : Bytes) : List Nat :=
  ((sectsOf b).filter fun x => x.type == 6).flatMap (fun x => (List.range (x.size / 4)).map fun i => leAt b (x.off + 4 * i) 4) |>.eraseDups

/-- The section of type 1 or 2 that holds the word at a region offset. -/
def relocSect (b : Bytes) (o : Nat) : Option Sect :=
  (sectsOf b).find? fun x => match sectAt b x with
    | some (0, d) => decide (d ≤ o ∧ o + 4 ≤ d + x.size)
    | _ => false

/-- The word a RELOC entry names, in the image. -/
def relocWord (b : Bytes) (o : Nat) : Option Nat :=
  (relocSect b o).bind fun x => (sectAt b x).map fun e => leAt b (x.off + (o - e.2)) 4

/-- The first RELOC section when an entry breaks R256. -/
def relocBad (b : Bytes) : Bool := (relocs b).any fun o => match relocWord b o with | some w => bits w 31 30 != 0 | none => true

/-- Add REGION_BASE to the OFFSET field of every word named, modulo 2^29 (R256). -/
def applyReloc (s : State) (l : Nat) (v : SlotImg) (b : Bytes) (keep : Sect → Bool) : State :=
  (relocs b).foldl (fun s o =>
    match relocSect b o with
    | some x => if keep x then s else
        let w := leNat (spR s l v 0 (v.regionBase + o) 4)
        spW s l v 0 (v.regionBase + o) (leBytes 4 (putBits w 28 0 ((w + v.regionBase) % 2 ^ 29)))
    | none => s) s

/-- ACTIONS entries, class and masked words; a class beyond 1,023 is malformed. -/
def imgActions (b : Bytes) : List (Nat × List Nat) :=
  ((sectsOf b).filter fun x => x.type == 7).flatMap fun x => (List.range (x.size / 20)).map fun i =>
    let a := x.off + 20 * i
    (leAt b a 4, (List.range 4).map fun j => leAt b (a + 4 + 4 * j) 4 &&& actMask.getD j 0)

/-- A Table BT-7 entry. -/
def placeEntry (bank off : Nat) (lp : Option Nat) : Bytes :=
  match lp with
  | some a => leBytes 4 (0x80000000 + bank) ++ leBytes 4 0 ++ leBytes 8 a
  | none => leBytes 4 bank ++ leBytes 4 (off / 64) ++ leBytes 8 0

/-- One declaration is placed: its record and table written, its storage added to the slot. `none`: no room. -/
def placeDecl (s : State) (c : Nat) (b : Bytes) (m : ModelSlot) (d : Placed) : Option (State × ModelSlot) :=
  let l := c / 1024
  let v := m.img
  match keepHist s c d with
  | some k =>
    let t := memR s (tierBase + k.addr + 64) (16 * d.segs)
    let segs := (List.range d.segs).map fun j =>
      let (_, a, sp) := placeOf (slice t (16 * j) 16)
      if sp then (2, a - lpBase, segBytes d) else (1, a - tierBase, segBytes d)
    some (s, { m with kept := m.kept ++ [⟨9, d.sect, d.idx, k.addr⟩], allocs := m.allocs ++ segs })
  | none =>
    let rec_ := physA s l v 1 d.off - tierBase
    let occ := (occupied s 1 fun _ => true) ++ (m.allocs.filter fun a => a.1 == 1).map fun a => a.2
    if d.kind = 2 then
      let base := match weightSect b d with | some x => x.dest | none => 0
      let table := (List.range d.segs).flatMap fun j =>
        let a := physA s l v 1 (base + j * matBytes d) - tierBase
        placeEntry (a / bankSize) (a % bankSize) none
      let r := leBytes 4 d.rows ++ leBytes 2 d.k ++ leBytes 2 d.blocks ++ leBytes 2 d.segs ++ leBytes 2 0 ++ leBytes 2 c ++ leBytes 2 0 ++
        leBytes 8 (rec_ + 64) ++ leBytes 40 0
      some (spW s l v 1 d.off (r ++ table), m)
    else
      let ps := histPlace s d occ
      let size := segBytes d
      let spill := (ps.filter fun e => e.2.isNone).length
      let lpOcc := (occupied s 2 fun _ => true) ++ (m.allocs.filter fun a => a.1 == 2).map fun a => a.2
      match (if spill = 0 then some 0 else firstFit lpOcc (s.wv.poolAt * 65536) (lpBytes s) 64 (spill * size) fun _ => true) with
      | none => none
      | some lp =>
        let (table, al, _) := ps.foldl (fun (a : Bytes × List (Nat × Nat × Nat) × Nat) e =>
          match e.2 with
          | some o => (a.1 ++ placeEntry e.1 o none, a.2.1 ++ [(1, e.1 * bankSize + o, size)], a.2.2)
          | none => (a.1 ++ placeEntry e.1 0 (some (lp + a.2.2 * size)), a.2.1 ++ [(2, lp + a.2.2 * size, size)], a.2.2 + 1)) ([], [], 0)
        let r := leBytes 8 0 ++ leBytes 2 d.segs ++ leBytes 1 d.log2 ++ leBytes 1 d.dim ++ leBytes 2 c ++ leBytes 2 0 ++
          leBytes 4 d.kscale ++ leBytes 4 d.vscale ++ leBytes 4 (f32rcp d.kscale) ++ leBytes 4 (f32rcp d.vscale) ++
          leBytes 8 (rec_ + 64) ++ leBytes 24 0
        some (spW s l v 1 d.off (r ++ table), { m with kept := m.kept ++ [⟨9, d.sect, d.idx, rec_⟩], allocs := m.allocs ++ al })

/-- Every declaration in turn. -/
def placeDecls (c : Nat) (b : Bytes) : List (Nat × Placed) → State → ModelSlot → Option (State × ModelSlot)
  | [], s, m => some (s, m)
  | e :: r, s, m =>
    match placeDecl s c b m e.2 with
    | some (s, m) => placeDecls c b r s m
    | none => none

/-- Kept sections of a slot: where each section with KEEP set lies. -/
def keptSects (s : State) (c : Nat) (b : Bytes) (v : SlotImg) : List KeptSect :=
  (sectsOf b).filterMap fun x =>
    if !x.keep then none else match sectAt b x with
    | none => none
    | some (sp, o) =>
      let own := match sp with | 0 => v.regionBase + o | 1 => physA s (c / 1024) v 1 o - tierBase | _ => v.lpBase + o
      some ⟨x.type, x.id, x.size, match keepSect s c x with | some k => k.addr | none => own⟩

/-- What the pieces of a window and kept storage add to a slot's allocations. -/
def mapAllocs (v : SlotImg) : List (Nat × Nat × Nat) := v.maps.map fun e => (e.1, e.2.2.2, e.2.2.1)

/-- The slot that a reservation makes: LOADING. -/
def slotOf_ (s : State) (c : Nat) (b cmd : Bytes) (r : Reserve) : ModelSlot :=
  let v := imgOf s c b r
  { mslot0 with
    state := 1, img := v, copyAt := r.copy, copyLen := b.length, flags := byteAt cmd 1, rq := byteAt cmd 3 % 64, tag := leAt cmd 6 2,
    allocs := [(0, r.sram, imgSram b), (2, r.lp, imgLp b), (3, r.knots, imgKnots b), (4, r.copy, 2 * roundUp b.length 64)] ++
      (if r.tier.length ≤ 1 then [(1, v.tierBase, imgTier b)] else []) ++ mapAllocs v }

/-- The slot that a LOAD reserves: the one it has as LOADING, else a new one. -/
def loadReserve (s : State) (c k : Nat) (b cmd : Bytes) (at_ : Option Nat) : Option ModelSlot :=
  let m := mslotGet s c k
  if m.state = 1 ∧ m.img.streamLen ≠ 0 then some m else (reserve s c b at_).map (slotOf_ s c b cmd)

/-- The first section whose data is malformed: a RELOC entry (R256), a class of an ACTIONS entry. -/
def dataBad (b : Bytes) : Option Nat :=
  (List.range (leAt b 10 2)).find? fun i =>
    ((sectOf b i).type == 6 && relocBad b) || ((sectOf b i).type == 7 && (imgActions b).any fun a => decide (a.1 > 1023))

/-- Steps 2 to 7 of R260 for an image whose bytes are `b`: the state with the slot LOADED, or the status, DETAIL and, from step 6 on,
the digest. -/
def loadImage (s : State) (c k : Nat) (b cmd : Bytes) (fetchBad : Bool) (at_ : Option Nat) : Except (Nat × Nat × Bytes) State :=
  match imgVerify s (some (c / 1024)) b with
  | some e => .error (e.1, e.2, [])
  | none =>
    match loadReserve s c k b cmd at_ with
    | none => .error (4, 0, [])
    | some m =>
      let m := { m with actions := imgActions b, kept := keptSects s c b m.img, digest := imgDigest b }
      if (placeDecls c b (placedAll b) s m).isNone then .error (4, 0, []) else
      if fetchBad then .error (6, 0, []) else
      match imgSigned s b with
      | some e => .error (e.1, e.2, imgDigest b)
      | none =>
        match dataBad b with
        | some i => .error (9, i, imgDigest b)
        | none =>
          let keep := fun x => (keepSect s c x).isSome
          let t := memW (memW s (lpBase + m.copyAt) b) (lpBase + m.copyAt + roundUp b.length 64) b
          let t := placeSects t (c / 1024) m.img b keep fun _ => true
          match placeDecls c b (placedAll b) (applyReloc t (c / 1024) m.img b keep) m with
          | none => .error (4, 0, imgDigest b)
          | some (t, m) => .ok (mslotPut t c k { m with state := 2 })

/-! ### Retained copies (R258, R321) -/

/-- The image of a slot from its retained copies, and the state with an unreadable copy rewritten; none: both unreadable, or
different from the digest recorded. -/
def retained (s : State) (m : ModelSlot) : Option (Bytes × State) :=
  let a := lpBase + m.copyAt
  let a' := a + roundUp m.copyLen 64
  let good := fun x => (memBad s x m.copyLen).isNone && imgDigest (memR s x m.copyLen) == m.digest
  let t := lpCount (lpCount s 0 a m.copyLen) 0 a' m.copyLen
  if good a then
    let b := memR s a m.copyLen
    some (b, if good a' then t else memW t a' b)
  else if good a' then let b := memR s a' m.copyLen; some (b, memW t a b)
  else none

/-- A section of a slot lies in storage that another slot of the context owns (R259): kept from the ACTIVE slot before the commit, or
passed to it by the commit. -/
def sectShared (s : State) (c k : Nat) (b : Bytes) (x : Sect) : Bool :=
  let m := mslotGet s c k
  match sectAt b x with
  | none => false
  | some (sp, o) =>
    if m.state = 4 then false
    else if m.state = 5 then
      match m.kept.find? fun e => e.type == x.type && e.id == x.id with
      | some e => (keepFrom s c).any fun y => y.type == x.type && y.id == x.id && y.addr == e.addr
      | none => false
    else x.keep && m.img.maps.any fun e => e.1 == sp && e.2.1 == o

/-- Refill the SRAM region of a slot from its image (R258, R320): sections of types 1 and 2, and their relocation; storage that another
slot owns stays as it is. -/
def refill (s : State) (c k : Nat) : Option State :=
  let m := mslotGet s c k
  match retained s m with
  | none => none
  | some (b, t) =>
    let l := c / 1024
    let keep := sectShared s c k b
    some (applyReloc (placeSects t l m.img b keep fun sp => sp == 0) l m.img b keep)

/-! ### Arming (R261) -/

/-- The events a context raises by itself go to the queue of the last command that named it (log entry 41). -/
def ctxQueue (s : State) (c rq : Nat) : State :=
  [0, 1].foldl (fun s k => let m := mslotGet s c k; if m.state = 0 then s else mslotPut s c k { m with rq := rq }) s

/-- Arm a LOADED slot: its ARMED record; a FREE or FAULTED context commits at once (R262). -/
def armSlot (s : State) (c k rq tag : Nat) : State :=
  let m := mslotGet s c k
  let s := mslotPut s c k { m with state := 3, armedAt := s.gt, admitted := 0, bufs := [] }
  let s := modelRecord s rq 2 0 tag c k 0 0 m.digest
  let x := ctxGet s c
  if x.state = 0 ∨ x.state = 3 then commitSlot s c k else s

/-- A context number names a logical tile that has a site. -/
def ctxReal (s : State) (c : Nat) : Bool := decide (c < 20480) && (tileGet s (c / 1024)).site.isSome

/-! ### Model commands (R260, Table MDL-5) -/

/-- Fields of a block that must be zero, by OP (Table MDL-5). -/
def modelForm (b : Bytes) : Bool :=
  decide (byteAt b 1 < 4) && decide (byteAt b 3 < 64) && (byteAt b 0 == 6 || zeros b 32 32)

/-- A model command ends: its record and completion word. -/
def modelEnd (s : State) (b : Bytes) (event status c k detail : Nat) (digest : Bytes) : State :=
  mboxDone (modelRecord s (byteAt b 3) event status (leAt b 6 2) c k 0 detail digest) (byteAt b 0) status (leAt b 6 2)

/-- A model command fails; of a command for a context the record names the slot that is not ACTIVE (log entry 42). -/
def modelFail (s : State) (b : Bytes) (status detail : Nat) : State :=
  let k := if byteAt b 0 ≤ 3 ∧ status ≠ 12 then 1 - (ctxGet s (leAt b 4 2)).active else 0
  modelEnd s b 5 status (leAt b 4 2) k detail []

/-- FROM. -/
def mcFrom (b : Bytes) : Nat := leAt b 8 8
/-- SIZE. -/
def mcSize (b : Bytes) : Nat := leAt b 16 8

/-- Chunks of a session's image. -/
def chunkCount (v : Session) : Nat := cdiv v.size 4096

/-- Chunks that have not arrived. -/
def chunksMissing (v : Session) : Nat := chunkCount v - v.chunks.length

/-- What a session has received of its image. -/
def chunkImage (s : State) (v : Session) : Bytes := memR s (lpBase + v.copyAt) v.size

/-- A session's image cannot be read. -/
def chunkBad (s : State) (v : Session) : Bool := (memBad s (lpBase + v.copyAt) v.size).isSome

/-- Where the session that a command reads from has placed the image. -/
def copyOf (s : State) (b : Bytes) : Option Nat :=
  if byteAt b 2 = 1 then (tget none s.sessions (mcFrom b)).map fun v => v.copyAt else none

/-- Where the bytes of a LOAD or LIBSTORE come from: ready bytes and whether their fetch meets an error, a wait for a session,
or a status and DETAIL. -/
inductive Source where
  | bytes (b : Bytes) (bad : Bool)
  | wait (i : Nat)
  | fail (status detail : Nat)

/-- Resolve SOURCE, FROM and SIZE. -/
def sourceOf (s : State) (b : Bytes) (fetchBad : Bool) : Source :=
  let f := mcFrom b
  match byteAt b 2 with
  | 0 =>
    let (base, size) := lpRegion s 1
    if f % 64 ≠ 0 ∨ mcSize b = 0 ∨ f + mcSize b > size then .fail 12 0
    else .bytes (memR s (lpBase + base + f) (mcSize b)) (fetchBad || (memBad s (lpBase + base + f) (mcSize b)).isSome)
  | 1 =>
    if f > 3 then .fail 12 0 else
    match tget none s.sessions f with
    | none => .fail 6 0
    | some v => if chunksMissing v = 0 then .bytes (chunkImage s v) (fetchBad || chunkBad s v) else if s.gt ≥ v.until_ then .fail 6 (chunksMissing v) else .wait f
  | 2 =>
    if f > 255 then .fail 12 0
    else if tget false s.flash.unusable f then .fail 11 0
    else match libGet s f with
      | some x => .bytes x fetchBad
      | none => .fail 11 0
  | _ => .fail 12 0

/-- An image that a command took from the staging region has been read (Table OBS-2). -/
def stagingRead (s : State) (b : Bytes) (n : Nat) : State := lpCount s 0 (lpBase + (lpRegion s 1).1 + mcFrom b) n

/-- A LOAD or LIBSTORE from the staging region has read its image. -/
def sourceRead (s : State) (b : Bytes) : State := if byteAt b 2 = 0 then stagingRead s b (mcSize b) else s

/-- The session a command consumes closes when the command ends; the record goes to the command's queue (R267; log entry 41). -/
def consume (s : State) (b : Bytes) : State := if byteAt b 2 = 1 then sessionClose s (mcFrom b) (byteAt b 3 % 64) 0 else s

/-- The slot a LOAD fills: the one that is not ACTIVE, which must be EMPTY; and the context's checks of step 1. -/
def loadSlot (s : State) (c : Nat) : Option Nat :=
  let k := 1 - (ctxGet s c).active
  if !ctxReal s c || braidOdd s (c / 1024) || (mslotGet s c k).state != 0 then none else some k

/-- A LOAD whose image is there runs to its end. -/
def loadFinish (s : State) (b : Bytes) (c k : Nat) (img : Bytes) (bad : Bool) : State :=
  match loadImage s c k img b bad (copyOf s b) with
  | .error (st, d, g) => consume (modelEnd (mslotPut s c k mslot0) b 5 st c k d g) b
  | .ok s =>
    let s := consume (modelEnd s b 1 0 c k 0 (imgDigest img)) b
    if bit (byteAt b 1) 0 then armSlot s c k (byteAt b 3) (leAt b 6 2) else s

/-- The header and section table of a waiting LOAD's image are there: steps 2 to 4 as far as they need no other chunk (R260). -/
def loadHead (s : State) (i : Nat) : State :=
  match tget none s.sessions i with
  | some v =>
    match v.waiting with
    | some b =>
      let c := leAt b 4 2
      (match [0, 1].find? fun k => (mslotGet s c k).state == 1 && (mslotGet s c k).img.streamLen == 0 with
      | some k =>
        if byteAt b 0 ≠ 1 ∨ !tget false v.chunks 0 then s else
        let img := chunkImage s v
        match (imgTable s (some (c / 1024)) img).orElse fun _ => imgWeave s img with
        | some e => sessionFail s i e.1 e.2
        | none => match reserve s c img (some v.copyAt) with
          | none => sessionFail s i 4 0
          | some r => mslotPut s c k (slotOf_ s c img b r)
      | none => s)
    | none => s
  | none => s

/-- LOAD. -/
def runLoad (fetchBad : Bool) (s : State) (b : Bytes) : State :=
  let c := leAt b 4 2
  if !running s || !modelForm b then modelFail s b 12 0
  else
    let s := ctxQueue s c (byteAt b 3)
    match loadSlot s c with
    | none => modelFail s b 5 0
    | some k =>
      match sourceOf s b fetchBad with
      | .fail st d => consume (modelFail s b st d) b
      | .bytes x bad => sourceRead (loadFinish s b c k x bad) b
      | .wait i =>
        match tget none s.sessions i with
        | some v =>
          let s := { s with sessions := tset none s.sessions i (some { v with waiting := some b }) }
          loadHead (mslotPut s c k { mslot0 with state := 1, copyAt := v.copyAt, allocs := [(4, v.copyAt, 2 * roundUp v.size 64)],
                                                 rq := byteAt b 3 % 64, tag := leAt b 6 2 }) i
        | none => s

/-- A library image is stored, once steps 2, 3, 5 and 6 pass. -/
def libFinish (s : State) (b : Bytes) (img : Bytes) (bad : Bool) : State :=
  let i := leAt b 24 8
  let st := match imgVerify s none img with
    | some e => some e
    | none => if bad then some (6, 0) else match imgSigned s img with
      | some e => some e
      | none =>
        let cap := rgf s rFLS_CAPACITY 15 0 * 2 ^ 30
        let log := clampN (2 ^ 30) (2 ^ 36) (cap / 64)
        let used := ((libAll s).map fun e => e.2.length).sum
        if !flsMounted s || flsWorn s || s.pwr.fail || (libGet s i).isSome ||
           decide (used + img.length + log + 2 ^ 31 + 2 ^ 28 > cap) then some (11, 0) else none
  match st with
  | some (x, d) => consume (modelFail s b x d) b
  | none =>
    let s := { s with flash := { s.flash with unusable := tset false s.flash.unusable i false } }
    let s := fUnitPut s 0x41 i 0 (kindSeq s 0x41) img
    let s := flsUpdate s 8 (libIndex s)
    consume (modelEnd s b 7 0 0 0 0 (imgDigest img)) b

/-- LIBSTORE (R266). -/
def runLibstore (fetchBad : Bool) (s : State) (b : Bytes) : State :=
  if !running s || !modelForm b || leAt b 24 8 > 255 || byteAt b 2 == 2 then modelFail s b 12 0
  else match sourceOf s b fetchBad with
    | .fail st d => consume (modelFail s b st d) b
    | .bytes x bad => sourceRead (libFinish s b x bad) b
    | .wait i =>
      match tget none s.sessions i with
      | some v => { s with sessions := tset none s.sessions i (some { v with waiting := some b }) }
      | none => s

/-- LIBDELETE: FROM names the index. -/
def runLibdelete (s : State) (b : Bytes) : State :=
  let i := mcFrom b
  if !running s || !modelForm b || i > 255 then modelFail s b 12 0
  else if !flsMounted s then modelFail s b 11 0
  else
    let s := fUnitDrop { s with flash := { s.flash with unusable := tset false s.flash.unusable i false } } 0x41 i 0
    let s := flsUpdate s 8 (libIndex s)
    modelEnd s b 8 0 0 0 0 []

/-- ARM: the context's LOADED slot. -/
def runArm (s : State) (b : Bytes) : State :=
  let c := leAt b 4 2
  if !running s || !modelForm b then modelFail s b 12 0
  else
    let s := ctxQueue s c (byteAt b 3)
    match [0, 1].find? fun k => (mslotGet s c k).state == 2 with
    | none => modelFail s b 5 0
    | some k =>
      let m := mslotGet s c k
      let s := mslotPut s c k { m with flags := m.flags ||| byteAt b 1 }
      mboxDone (armSlot s c k (byteAt b 3) (leAt b 6 2)) 2 0 (leAt b 6 2)

/-- UNLOAD: the context's LOADED slot returns to EMPTY (R265). -/
def runUnload (s : State) (b : Bytes) : State :=
  let c := leAt b 4 2
  if !running s || !modelForm b then modelFail s b 12 0
  else
    let s := ctxQueue s c (byteAt b 3)
    match [0, 1].find? fun k => (mslotGet s c k).state == 2 with
    | none => modelFail s b 5 0
    | some k => modelEnd (mslotPut s c k mslot0) b 4 0 c k 0 (mslotGet s c k).digest

/-- A sub-port code of Table MDL-5 is one. -/
def chanPort (s : State) (p : Nat) : Bool := decide (p < 64 ∧ p % 4 < subCount s (p / 4)) || decide (64 ≤ p ∧ p < 68)

/-- CHAN_OPEN (R267). Its image is received where its retained copy will lie. Table MDL-7 names no event for the record that ends
it, so EVENT is a free value (R260; log entry 138). -/
def runChanOpen (s : State) (b : Bytes) : State :=
  let i := mcFrom b
  let a := leAt b 24 8
  let p := a % 256
  if !running s || !modelForm b || i > 3 || !chanPort s p || bits a 15 8 != 0 || decide (a ≥ 2 ^ 48) || mcSize b == 0 || decide (mcSize b > 2 ^ 32) ||
     (tget none s.sessions i).isSome then modelFail s b 12 0
  else
    match copyRoom s (mcSize b) with
    | none => modelFail s b 4 0
    | some at_ =>
      let v : Session := { port := p, etype := bits a 31 16, until_ := s.gt + bits a 47 32 * 1000000, secret := slice b 32 32, size := mcSize b,
                           chunks := [], rejected := 0, waiting := none, copyAt := at_ }
      let (e, s) := drawFree { s with sessions := tset none s.sessions i (some v) } 8
      modelEnd s b e 0 0 0 0 []

/-- CHAN_CLOSE: a command that waits for the session fails with FETCH. -/
def runChanClose (s : State) (b : Bytes) : State :=
  let i := mcFrom b
  if !running s || !modelForm b || i > 3 then modelFail s b 12 0
  else match tget none s.sessions i with
    | none => modelFail s b 12 0
    | some v =>
      let s := if v.waiting.isSome then waitFail s i 6 (chunksMissing v) else s
      mboxDone (sessionClose s i (byteAt b 3 % 64) (leAt b 6 2)) 7 0 (leAt b 6 2)

/-! ### The load channel (R267) -/

/-- The waiting command of a session whose chunks are all there runs. -/
def sessionReady (s : State) (i : Nat) (fetchBad : Bool) : State :=
  match tget none s.sessions i with
  | none => s
  | some v =>
    match v.waiting with
    | none => s
    | some b =>
      if chunksMissing v ≠ 0 then loadHead s i else
      let fetchBad := fetchBad || chunkBad s v
      let s := { s with sessions := tset none s.sessions i (some { v with waiting := none }) }
      let c := leAt b 4 2
      if byteAt b 0 = 1 then
        match [0, 1].find? fun k => (mslotGet s c k).state == 1 with
        | some k => loadFinish s b c k (chunkImage s v) fetchBad
        | none => consume (modelFail s b 10 0) b
      else libFinish s b (chunkImage s v) fetchBad

/-- A chunk's payload (SESSION to check) comes to session `i`: accepted and written to the retained copy, or rejected and counted. -/
def chunkTake (s : State) (i : Nat) (p : Bytes) : State :=
  match tget none s.sessions i with
  | none => s
  | some v =>
    let n := beAt p 4 4
    let len := beAt p 8 2
    let last := decide (n + 1 = chunkCount v)
    let ok := decide (12 + len + 16 ≤ p.length) && slice p (12 + len) 16 == shake256 16 (v.secret ++ p.take (12 + len)) &&
      decide (n < chunkCount v) && (len == 4096 || (last && decide (1 ≤ len ∧ len ≤ 4096)))
    let s := if ok then memW s (lpBase + v.copyAt + 4096 * n) (slice p 12 len) else s
    let v := if ok then { v with chunks := tset false v.chunks n true } else { v with rejected := v.rejected + 1 }
    sessionReady { s with sessions := tset none s.sessions i (some v) } i false

/-- The session that takes a frame of a sub-port: the one its SESSION field names, if that is open there, else the one whose
EtherType diverted it. -/
def chunkSession (s : State) (n m : Nat) (b : Bytes) : Option Nat :=
  let j := beAt b 14 4
  match tget none s.sessions j with
  | some v => if v.port = n * 4 + m ∧ v.etype = beAt b 12 2 then some j else sessionOf s n m b
  | none => sessionOf s n m b

/-- CHUNK_FRAME: a frame of a session's EtherType passes the MAC's checks and goes to the load engine; FP_RX_FRAMES does
not count it (Table FP-7). -/
def chunkFrame (s : State) (n m : Nat) (b : Bytes) (fecBad : Bool) : State :=
  if !(decide (n < 16) && decide (m < subCount s n) && linkUp s n m) then s
  else match chunkSession s n m b with
    | none => s
    | some i =>
      match macCheck s n b fecBad with
      | some k => macBad s n k
      | none => chunkTake s i ((b.drop 14).take (b.length - 18))

/-- CHANNEL_TIMEOUT: the timeout of session `i` passes with chunks missing and a command that waits. -/
def channelTimeout (s : State) (i : Nat) : State :=
  match tget none s.sessions i with
  | some v => if decide (s.gt ≥ v.until_) && v.waiting.isSome && chunksMissing v != 0 then sessionFail s i 6 (chunksMissing v) else s
  | none => s

/-! ### Commit and drain (R262, R263) -/

/-- The condition of R262: the old slot has no outstanding request, its head is TAKE, and the context holds no scoreboard entry. -/
def commitReady (s : State) (c : Nat) : Bool :=
  let x := ctxGet s c
  let w := headOf s c
  decide (x.state = 1) && x.restart.isNone && !x.restoring && x.bufs.isEmpty && decide (sbHeld s c = 0) && (headUe s c).isNone &&
  decide (cwEngine w = 0 ∧ cwOp w = 1)

/-- SLOT_COMMIT. -/
def slotCommit (s : State) (c : Nat) : State :=
  match armedSlot s c with
  | none => s
  | some k => if commitReady s c && !(mslotGet s c k).forced then commitSlot s c k else s

/-- FORCED_COMMIT: tDRAIN after the arm, with the old slot short of the request boundary (the condition of R262 is not met): PLY advances, unissued commands go, outstanding requests are refused; the commit
follows the quiesce (R263). -/
def forcedCommit (s : State) (c : Nat) : State :=
  let x := ctxGet s c
  match armedSlot s c with
  | none => s
  | some k =>
    let m := mslotGet s c k
    if x.state = 1 ∧ !m.forced ∧ !commitReady s c ∧ s.gt ≥ m.armedAt + 1000000 then
      let s := mslotPut s c k { m with forced := true }
      let s := passLeave (refuseBufs s c x.bufs) c
      ctxPut s c { ctxGet s c with ply := (x.ply + 1) % 4096, bufs := [], b := 0, n := 0, fresh := false, pos := 0, downAt := s.gt,
                                   restart := some false, toks := [] }
    else s

/-- DRAIN_END: a DRAINING slot is EMPTY and its storage free. -/
def drainEnd (s : State) (c k : Nat) : State :=
  let m := mslotGet s c k
  if m.state = 5 then modelRecord (mslotPut s c k mslot0) m.rq 4 0 0 c k 0 0 m.digest else s

/-! ### The commands -/

/-- LOAD (R260): runs when it is the mailbox's next command and fewer than two fetches are in progress. -/
def execLoad (fetchBad : Bool) (s : State) : Host.Outcome State Fault Refusal :=
  .next (if loadsRunning s < 2 then mboxRun s 1 (runLoad fetchBad) else s)

/-- ARM (R261). -/
def execArm (s : State) : Host.Outcome State Fault Refusal := .next (mboxRun s 2 runArm)

/-- UNLOAD (R265). -/
def execUnload (s : State) : Host.Outcome State Fault Refusal := .next (mboxRun s 3 runUnload)

/-- LIBSTORE (R266). -/
def execLibstore (fetchBad : Bool) (s : State) : Host.Outcome State Fault Refusal :=
  .next (if loadsRunning s < 2 then mboxRun s 4 (runLibstore fetchBad) else s)

/-- LIBDELETE (R266). -/
def execLibdelete (s : State) : Host.Outcome State Fault Refusal := .next (mboxRun s 5 runLibdelete)

/-- CHAN_OPEN (R267). -/
def execChanOpen (s : State) : Host.Outcome State Fault Refusal := .next (mboxRun s 6 runChanOpen)

/-- CHAN_CLOSE (R267). -/
def execChanClose (s : State) : Host.Outcome State Fault Refusal := .next (mboxRun s 7 runChanClose)

/-- CHUNK_FRAME (R267). -/
def execChunkFrame (port sub : Nat) (bytes : Bytes) (fecBad : Bool) (s : State) : Host.Outcome State Fault Refusal :=
  .next (chunkFrame s port sub bytes fecBad)

/-- CHANNEL_TIMEOUT (R267). -/
def execChannelTimeout (session : Nat) (s : State) : Host.Outcome State Fault Refusal := .next (channelTimeout s session)

/-- SLOT_COMMIT (R262). -/
def execSlotCommit (ctx : Nat) (s : State) : Host.Outcome State Fault Refusal := .next (slotCommit s ctx)

/-- FORCED_COMMIT (R263). -/
def execForcedCommit (ctx : Nat) (s : State) : Host.Outcome State Fault Refusal := .next (forcedCommit s ctx)

/-- DRAIN_END (R262). -/
def execDrainEnd (ctx slot : Nat) (s : State) : Host.Outcome State Fault Refusal := .next (drainEnd s ctx slot)

end Sys2Proof.Machine
end

