-- ==== Sys2Proof/Machine/Peers.lean ====
section
/-! DEFINITION. Peer links, receiving side: flits, replay, delivery, relay, liveness, owners that come and go (R269 to
R290). -/

namespace Sys2Proof.Machine

/-! ### Records (R289) -/

/-- A PEER record. -/
def peerRecord (s : State) (event link dev lanes : Nat) : State :=
  stage s 13 (rgf s rPL_CFG 28 23) (if event = 1 ∨ event = 5 ∨ event = 7 then 6 else 4) 9
    (leBytes 1 event ++ leBytes 1 link ++ leBytes 1 dev ++ leBytes 1 lanes ++ leBytes 4 0 ++ leBytes 8 s.gt ++ leBytes 8 0)

/-! ### Links that fail (R269, R271, R285) -/

/-- Does a message that came in on link `l` and leaves by `o` go back the way it came. -/
def turnsBack (s : State) (l o : Nat) : Bool := if topo s = 1 then l / 2 == o / 2 else l == o

/-- Send a message whose link `k` has gone down over the route as it now is: one that starts here as any other, a relayed one from
the virtual channel it came in on and with REV if it goes back the way it came. One with REV set has met another down link: it takes
the other rail of its direction or is discarded and counted, as is one with no route (R285). -/
def resend (s : State) (k : Nat) (m : Msg) : State :=
  let other := k / 2 * 2 + (1 - k % 2)
  if m.rev then
    (if topo s = 1 ∧ linkUsable s other then linkQueue s other m else bump s rPL_UNROUTABLE)
  else match route s m.dst m.num m.vin with
    | none => bump s rPL_UNROUTABLE
    | some (o, vc) => linkQueue s o { m with vc := vc, rev := match m.via with | some l => turnsBack s l o | none => false }

/-- A link goes down: its partial messages are discarded, its unacknowledged and queued messages are sent again over the new
route (R285). -/
def linkFall (s : State) (l : Nat) : State :=
  let v := linkGet s l
  if !v.up then s else
  let ms := ((v.sent.map fun e => e.1) ++ v.out).filter fun m => m.kind != 5
  let s := linkPut s l plink0
  ms.foldl (fun s m => resend s l m) (peerRecord s 1 l v.neighbour 0)

/-- Lanes a link can run on, of `n` working ones. -/
def laneMode (n : Nat) : Nat := if n ≥ 8 then 8 else if n ≥ 4 then 4 else if n ≥ 2 then 2 else 0

/-- PL_LANE_FAIL: 8 lanes, then 4, then 2, then down. -/
def plLaneFail (s : State) (l : Nat) : State :=
  let v := linkGet s l
  if !v.up then s else
  let s := faultInstant s 14 (unitCode 7 l) l 0 12 0 (r5holds s) false
  if v.lanes ≤ 2 then linkFall s l
  else peerRecord (linkPut s l { v with lanes := v.lanes / 2 }) 2 l v.neighbour (v.lanes / 2)

/-- Replays that started in the last 10 µs without ACK advancing. -/
def replayCount (s : State) (v : PLink) : Nat := (v.replays.filter fun t => decide (t + 10000 > s.gt)).length

/-- RETRAIN: begins after 8 replays in 10 µs; while it runs, the event with the lanes that trained ends it, and what is not
acknowledged is sent again (R271). -/
def retrain (s : State) (l lanes : Nat) : State :=
  let v := linkGet s l
  if !v.up then s
  else if !v.retraining then
    if replayCount s v < 8 then s
    else
      let s := cinc (bump (linkPut s l { v with retraining := true }) (rPL_L_RETRAIN l)) (cLink l 4) 1
      peerRecord (faultInstant s 14 (unitCode 7 l) l 0 2 0 (r5holds s) false) 3 l v.neighbour v.lanes
  else
    let n := min v.lanes (laneMode lanes)
    if n = 0 then linkFall s l
    else
      let s := linkPut s l { v with retraining := false, replays := [], lanes := n }
      let s := if n < v.lanes then peerRecord s 2 l v.neighbour n else s
      linkDrain (replayAll s l) l

/-- The ID that Table PL-2 expects at the far end of link `l`. -/
def expectId (s : State) (l : Nat) : Nat :=
  let i := devId s
  let nx := plNx s
  if topo s = 1 then (if l < 2 then (i + 1) % nx else (i + nx - 1) % nx)
  else match l with
    | 0 => i / nx * nx + (i % nx + 1) % nx
    | 1 => i % nx + nx * ((i / nx + 1) % plNy s)
    | 2 => i / nx * nx + (i % nx + nx - 1) % nx
    | _ => i % nx + nx * ((i / nx + plNy s - 1) % plNy s)

/-- LINK_UP: credits at 32, sequences from the start, MISWIRE when the neighbour is not the one expected (R272, R273); no link without its SerDes reference comes up (R441). -/
def plLinkUp (s : State) (l lanes neighbour : Nat) : State :=
  if !plEnabled s || decide (l > 3) || bit s.boot.noRef (4 + l) || (linkGet s l).up || laneMode lanes == 0 then s
  else
    let bad := topo s != 0 && expectId s l != neighbour
    let s := linkPut s l { plink0 with up := true, lanes := laneMode lanes, neighbour := neighbour, miswire := bad }
    if bad then peerRecord s 4 l neighbour (laneMode lanes) else s

/-! ### The receiver (R270, R272) -/

/-- SEQ of a flit. -/
def flitSeq (f : Bytes) : Nat := leAt f 4 2 % 4096
/-- KIND of a flit. -/
def flitKind (f : Bytes) : Nat := byteAt f 0 / 16
/-- The CRC of a flit is good. -/
def flitGood (f : Bytes) : Bool := f.length == 256 && slice f 252 4 == leBytes 4 (crc32 (f.take 252)).toNat

/-- What the neighbour acknowledges, asks and returns: ACK drops flits of the replay buffer, NAK starts a replay, credits come
back. -/
def flitControl (s : State) (l : Nat) (f : Bytes) : State :=
  let v := linkGet s l
  let ack := leAt f 6 2 % 4096
  let n := (v.replay.findIdx? fun x => flitSeq x == ack).map (· + 1) |>.getD 0
  let pool := bits (leAt f 8 2) 14 12
  let cnt := leAt f 8 2 % 256
  let v := { v with replay := v.replay.drop n, replays := if n > 0 then [] else v.replays,
                    sent := v.sent.dropWhile fun e => (v.replay.take n).any fun x => flitSeq x == e.2,
                    credits := tset 32 v.credits pool (min 32 (credits v pool + cnt)) }
  let nak := bit (leAt f 6 2) 15 && !v.replay.isEmpty
  let s := linkPut s l { v with replays := if nak then (v.replays.filter fun t => decide (t + 10000 > s.gt)) ++ [s.gt] else v.replays }
  let s := if nak then
      cinc (bump (replayAll s l) (rPL_L_REPLAY l)) (cLink l 3) 1
    else s
  linkDrain s l

/-- A flit with a bad CRC, or not the one expected. -/
def flitReject (s : State) (l : Nat) (f : Bytes) : State :=
  let v := linkGet s l
  let s := linkPut s l { v with nak := true }
  if flitGood f then s
  else faultInstant (cinc (bump s (rPL_L_CRC_ERR l)) (cLink l 2) 1) 14 (unitCode 7 l) l 0 2 0 (r5holds s) false

/-- A flit arrives on a link that is up: the state after, and the message it completes. Its buffer is freed when it is taken
up, so its credit is owed at once. -/
def flitRx (s : State) (l : Nat) (f : Bytes) : State × Option Msg :=
  let v := linkGet s l
  if !v.up then (s, none)
  else if !flitGood f then (flitReject s l f, none)
  else if flitKind f = 0 then (flitControl s l f, none)
  else if flitSeq f ≠ (v.rxSeq + 1) % 4096 then (flitReject s l f, none)
  else
    let h := byteAt f 0
    let vc := b2n (bit h 3)
    let kind := flitKind f
    if kind > 5 then
      (flitControl (cinc (bump (linkPut s l { v with rxSeq := flitSeq f, nak := false }) (rPL_L_CRC_ERR l)) (cLink l 2) 1) l f, none)
    else
      let pool := poolOf kind vc
      let part := (if bit h 2 then [] else tget [] v.part pool) ++ [slice f 16 (byteAt f 3)]
      let last := bit h 1
      let s := linkPut s l { v with rxSeq := flitSeq f, nak := false, owed := tmod 0 v.owed pool (· + 1),
                                    part := tset [] v.part pool (if last then [] else part) }
      let s := flitControl (cinc (bumpDiv s (rPL_L_RX_FLITS l) 1 1024) (cLink l 1) 1) l f
      let m : Msg := { kind := kind, dst := byteAt f 1 % 64, dpart := byteAt f 1 / 64, src := byteAt f 2 % 64, num := leAt f 10 4,
                       rev := bit h 0, vc := vc, via := some l, vin := vc, bytes := part.flatten }
      (s, if last then some m else none)

/-! ### Relay (R275, R285) -/

/-- The link by which a turned-back message travels on: straight ahead, by the other rail where its own is down; in a torus
along its dimension until it has the destination's coordinate. -/
def revRoute (s : State) (l : Nat) (m : Msg) : Option (Nat × Nat) :=
  let i := devId s
  let nx := plNx s
  if topo s = 1 then
    let base := if l < 2 then 2 else 0
    let o := base + m.num % 2
    let vc := if wrapLink s base then 1 else m.vc
    if linkUsable s o then some (o, vc) else if linkUsable s (base + (1 - m.num % 2)) then some (base + (1 - m.num % 2), vc) else none
  else
    let o := (l + 2) % 4
    let there := if l % 2 = 0 then i % nx == m.dst % nx else i / nx == m.dst / nx
    if there then route s m.dst m.num m.vc
    else
      if linkUsable s o then some (o, if wrapLink s o then 1 else m.vc) else none

/-- Relay a message that arrived on link `l`: turned back once with REV set; a turned-back message that meets another down
link, or one with no route, is discarded. -/
def relay (s : State) (l : Nat) (m : Msg) : State :=
  let m := { m with vc := turnVc s l m.dst m.vc, vin := turnVc s l m.dst m.vc }
  let out := if m.rev then revRoute s l m else route s m.dst m.num m.vc
  match out with
  | none => bump s rPL_UNROUTABLE
  | some (o, vc) =>
    let back := turnsBack s l o
    if m.rev && back then bump s rPL_UNROUTABLE
    else linkQueue (cinc (bump s rPL_RELAY) (cLink l 5) 1) o { m with vc := vc, rev := m.rev || back }

/-! ### Delivery (R275 to R283, R287) -/

/-- A REQ for this device: its context is the binding of DST_PART (R278). -/
def reqIn (s : State) (m : Msg) : State :=
  let h := slice m.bytes 0 32
  let r := slice m.bytes 32 32
  let w := leAt h 0 4
  let len := bits (leAt r 16 4) 27 16
  sendPeer s (procPart s m.dpart) m.dpart (byteAt h 6) (leAt r 8 4) none (byteAt h 7 % 32) (bit (leAt r 16 4) 31) (slice m.bytes 64 len)
    (leAt h 8 8) (bits w 15 14, bits w 13 0, leAt h 4 2 % 4096, m.src)

/-- A HEAD for this device: a descriptor with FROM_PEER set, the origin's stamp and length (R279). -/
def headIn (s : State) (m : Msg) : State :=
  let h := slice m.bytes 0 32
  let b := m.bytes.drop 32
  let p := m.dpart
  if poolFree s p ≤ guardCells s p then cinc (bump s (rTM_DROP_INGRESS p)) (cPart p 16) 1
  else
    let v := subGet s 16 p
    let s := subPut s 16 p { v with seq := (v.seq + 1) % 2 ^ 32 }
    let (k, f, s) := frameStore s p
      { part := p, cells := List.replicate (cdiv b.length 256) 0, refs := 1, bytes := b, gt := leAt h 8 8, port := byteAt h 18 / 4,
        sub := byteAt h 18 % 4, endPending := false, ptp := false, fecBad := false, seq := v.seq, fromPeer := true, srcDev := m.src,
        length := leAt h 16 2 % 16384, headSlot := none, ring := 0, replayed := false, tables := none, stage := .queued, hold := none, entry := none, ipver := 0, ipoff := 0,
        color := 0, msgHdr := h }
    pipeArrive s k f

/-- An RSP for this device: its open entry goes to the verdict unit as a local result (R216, R281). -/
def rspIn (s : State) (m : Msg) : State :=
  let p := m.dpart
  let i := leAt m.bytes 0 4 % 16384
  match tget none s.pl.fwd (fwdKey p i) with
  | none => bump s rPL_PLY_DROP
  | some e =>
    if leAt m.bytes 4 2 % 4096 ≠ e.fply ∨ e.dev ≠ m.src then bump s rPL_PLY_DROP
    else
      let b := m.bytes.drop 32
      let ctx := leAt b 24 2 % 2 ^ 15
      let x := if byteAt b 20 = 1 then lateVerdict (ctxDefault s e.ctx) ctx e.gt e.sampled
        else resultVerdict (slice b 0 16) (leAt b 16 2) ctx e.gt e.sampled
      formVerdict (fwdPut s p i none) p (e.uid.map fun u => (e.entry, u)) e.entry x (ctxDefault s e.ctx) e.frame

/-- A LOAD for this device: a chunk of the session opened on 64 + DST_PART (R287). -/
def loadIn (s : State) (m : Msg) : State :=
  match s.sessions.find? fun e => match e.2 with
      | some v => v.port == 64 + m.dpart && (e.1 == beAt m.bytes 0 4)
      | none => false with
  | some e => chunkTake s e.1 m.bytes
  | none => match s.sessions.find? fun e => match e.2 with | some v => v.port == 64 + m.dpart | none => false with
    | some e => chunkTake s e.1 m.bytes
    | none => s

/-- A message for this device that it accepted within the last millisecond (R283). -/
def isDup (s : State) (m : Msg) : Bool := s.pl.seen.any fun e => e.1 == m.src && e.2.1 == m.num && decide (e.2.2 + 1000000 > s.gt)

/-- A complete REQ, RSP, HEAD or LOAD message that arrived on link `l`. -/
def msgIn (s : State) (l : Nat) (m : Msg) : State :=
  if (linkGet s l).miswire then s
  else if m.dst ≠ devId s then relay s l m
  else if isDup s m then bump s rPL_DUP
  else
    let s := { s with pl := { s.pl with seen := (s.pl.seen.filter fun e => decide (e.2.2 + 1000000 > s.gt)) ++ [(m.src, m.num, s.gt)] } }
    match m.kind with
    | 1 => reqIn s m
    | 2 => rspIn s m
    | 3 => headIn s m
    | _ => loadIn s m

/-! ### Liveness (R282, R284, R286) -/

/-- FPLY of a device advances in every partition; its open entries are freed as refused, held frames released with
LATE_DEFAULT (R282). -/
def fplyAdvance (s : State) (d : Nat) : State :=
  [0, 1, 2, 3].foldl (fun s p =>
    let s := { s with pl := { s.pl with fply := tset 0 s.pl.fply (p * 64 + d) ((fplyGet s p d + 1) % 4096) } }
    (s.pl.fwd.filter fun e => e.1 / 16384 == p && match e.2 with | some x => x.dev == d | none => false).foldl (fun s e =>
      match e.2 with
      | some x => formVerdict (fwdPut s p (e.1 % 16384) none) p (x.uid.map fun u => (x.entry, u)) x.entry
          (lateVerdict (ctxDefault s x.ctx) x.ctx x.gt x.sampled) (ctxDefault s x.ctx) x.frame
      | none => s) s) s

/-- Payload of a LIVE message: the spec names what it carries and not where; this layout is the model's (log entry 33). -/
def liveBytes (s : State) : Bytes :=
  let down := ((List.range 4).map fun l => b2n (!linkUsable s l) * 2 ^ l).sum
  let map := ((List.range 64).map fun d => b2n (devLive s d) * 2 ^ d).sum
  leBytes 1 (devId s) ++ leBytes 1 down ++ leBytes 2 0 ++ leBytes 4 s.pl.liveSeq ++ leBytes 8 map ++ slice s.wv.ring 0 64

/-- LIVE_SEND: a LIVE message on every up link. -/
def liveSend (s : State) : State :=
  if !plEnabled s then s else
  let s := { s with pl := { s.pl with liveSeq := (s.pl.liveSeq + 1) % 2 ^ 32 } }
  let num := s.pl.msg
  let s := { s with pl := { s.pl with msg := (num + 1) % 2 ^ 32 } }
  let m : Msg := { kind := 5, dst := devId s, dpart := 0, src := devId s, num := num, rev := false, vc := 0, via := none,
                   vin := 0, bytes := liveBytes s }
  [0, 1, 2, 3].foldl (fun s l => if (linkGet s l).up then linkQueue s l { m with vc := b2n (wrapLink s l) } else s) s

/-- The ring digest of a LIVE matches: this device's, or within the grace after a change the one before (R383). -/
def ringMatches (s : State) (d : Bytes) : Bool := d == slice s.wv.ring 0 64 || (!s.wv.ringOld.isEmpty && d == slice s.wv.ringOld 0 64)

/-- A LIVE (SRC, sequence) is a repeat: heard within the last millisecond (DESIGN CHOICE, log entry 118). -/
def liveAgain (s : State) (v : Peer) (seq : Nat) : Bool := v.seqs.any fun e => e.1 == seq && decide (e.2 + 1000000 > s.gt)

/-- The virtual channel on which a LIVE that came in on link `l` goes on by link `k` (R274). -/
def liveVc (s : State) (l k vc : Nat) : Nat :=
  if wrapLink s k then 1 else if topo s = 2 ∧ l % 2 = 0 ∧ k % 2 = 1 then 0 else vc

/-- A LIVE message of another device arrived on link `l`. -/
def liveIn (s : State) (l : Nat) (m : Msg) : State :=
  let d := m.src
  let v := peerGet s d
  let seq := leAt m.bytes 4 4
  if decide (d = devId s) || liveAgain s v seq then s
  else
    let first := !v.heard
    let v := { v with seqs := (v.seqs.filter fun (e : Nat × Nat) => decide (e.2 + 1000000 > s.gt)) ++ [(seq, s.gt)], heard := true, down := byteAt m.bytes 1 % 16 }
    let s := if ringMatches s (slice m.bytes 16 64) then
        let gap := decide (s.gt ≥ v.last + 50000)
        peerPut s d { v with mismatch := false, live := v.live || first, stable := if v.live || first then v.stable else if gap then s.gt else v.stable,
                             last := s.gt }
      else
        let s := if v.mismatch then s else peerRecord s 7 l d (linkGet s l).lanes
        let s := peerPut s d { v with mismatch := true, live := false, stable := s.gt, last := s.gt }
        if v.live then fplyAdvance s d else s
    [0, 1, 2, 3].foldl (fun s k => if k != l && (linkGet s k).up then linkQueue s k { m with vc := liveVc s l k m.vc } else s) s

/-- PEER_LOST: no LIVE of device `d` within 50 µs. -/
def peerLost (s : State) (d : Nat) : State :=
  let v := peerGet s d
  if v.live && decide (s.gt ≥ v.last + 50000) then fplyAdvance (peerRecord (peerPut s d { v with live := false }) 5 0 d 0) d else s

/-- PEER_BACK: a lost device has sent LIVE for 1 s without a gap. -/
def peerBack (s : State) (d : Nat) : State :=
  let v := peerGet s d
  if v.heard && !v.live && !v.mismatch && decide (s.gt < v.last + 50000) && decide (s.gt ≥ v.stable + 1000000000) then
    fplyAdvance (peerRecord (peerPut s d { v with live := true }) 6 0 d 0) d
  else s

/-- FWD_EXPIRE: an entry without an RSP after 10 ms is freed (R281). -/
def fwdExpire (s : State) (p i : Nat) : State :=
  match tget none s.pl.fwd (fwdKey p i) with
  | some e => if s.gt ≥ e.since + 10000000 then bump (fwdPut s p i none) rPL_FWD_EXPIRE else s
  | none => s

/-! ### Flits of one message -/

/-- The flits of one message of KIND `kind` arrive on link `l`; flits of another kind are not this event. -/
def flitsIn (s : State) (l kind : Nat) (fs : List Bytes) (take : State → Nat → Msg → State) : State :=
  if !(fs.all fun f => flitKind f == kind) then s
  else fs.foldl (fun s f =>
    match flitRx s l f with
    | (s, some m) => take s l m
    | (s, none) => s) s

/-- FLIT_CRC_ERROR: a flit with a bad CRC, or a SEQ that is not the next expected. -/
def flitError (s : State) (l : Nat) (f : Bytes) : State :=
  let v := linkGet s l
  if v.up && (!flitGood f || (flitKind f != 0 && flitSeq f != (v.rxSeq + 1) % 4096)) then flitReject s l f else s

/-- IDLE_FLIT. -/
def idleFlit (s : State) (l : Nat) (f : Bytes) : State :=
  if (linkGet s l).up && flitGood f && flitKind f == 0 then flitControl s l f else s

/-! ### Registers (R290) -/

/-- Computed PL registers. -/
def plRegRead (s : State) (o : Nat) : Option Nat :=
  let map := fun (b : Nat) => ((List.range 32).map fun d => b2n (plEnabled s && devLive s (b + d)) * 2 ^ d).sum
  match o with
  | 0x010 => some (map 0)
  | 0x014 => some (map 32)
  | _ => none

/-- Computed registers of link `l`. -/
def pllRegRead (s : State) (l o : Nat) : Option Nat :=
  let v := linkGet s l
  if o = 0 then some (b2n v.up * 2 ^ 31 + b2n v.miswire * 2 ^ 30 + b2n v.retraining * 2 ^ 29 + v.lanes * 2 ^ 24 + v.neighbour % 64 * 65536)
  else none

/-! ### The commands -/

/-- REQ_MESSAGE (R278). -/
def execReqMessage (l : Nat) (flits : List Bytes) (s : State) : Host.Outcome State Fault Refusal := .next (flitsIn s l 1 flits msgIn)

/-- RSP_MESSAGE (R281). -/
def execRspMessage (l : Nat) (flits : List Bytes) (s : State) : Host.Outcome State Fault Refusal := .next (flitsIn s l 2 flits msgIn)

/-- HEAD_MESSAGE (R279). -/
def execHeadMessage (l : Nat) (flits : List Bytes) (s : State) : Host.Outcome State Fault Refusal := .next (flitsIn s l 3 flits msgIn)

/-- LOAD_MESSAGE (R287). -/
def execLoadMessage (l : Nat) (flits : List Bytes) (s : State) : Host.Outcome State Fault Refusal := .next (flitsIn s l 4 flits msgIn)

/-- LIVE_MESSAGE (R284). -/
def execLiveMessage (l : Nat) (flits : List Bytes) (s : State) : Host.Outcome State Fault Refusal := .next (flitsIn s l 5 flits liveIn)

/-- LIVE_SEND (R284). -/
def execLiveSend (s : State) : Host.Outcome State Fault Refusal := .next (liveSend s)

/-- PEER_LOST (R284). -/
def execPeerLost (dev : Nat) (s : State) : Host.Outcome State Fault Refusal := .next (peerLost s dev)

/-- PEER_BACK (R284). -/
def execPeerBack (dev : Nat) (s : State) : Host.Outcome State Fault Refusal := .next (peerBack s dev)

/-- FWD_EXPIRE (R281). -/
def execFwdExpire (p entry : Nat) (s : State) : Host.Outcome State Fault Refusal := .next (fwdExpire s p entry)

/-- RETRAIN (R271). -/
def execRetrain (l lanes : Nat) (s : State) : Host.Outcome State Fault Refusal := .next (retrain s l lanes)

/-- PL_LANE_FAIL (R269). -/
def execPlLaneFail (l : Nat) (s : State) : Host.Outcome State Fault Refusal := .next (plLaneFail s l)

/-- LINK_UP (R273). -/
def execLinkUp (l lanes neighbour : Nat) (s : State) : Host.Outcome State Fault Refusal := .next (plLinkUp s l lanes neighbour)

/-- FLIT_CRC_ERROR (R270). -/
def execFlitCrcError (l : Nat) (flit : Bytes) (s : State) : Host.Outcome State Fault Refusal := .next (flitError s l flit)

/-- IDLE_FLIT (R272). -/
def execIdleFlit (l : Nat) (flit : Bytes) (s : State) : Host.Outcome State Fault Refusal := .next (idleFlit s l flit)

end Sys2Proof.Machine
end

