-- ==== Sys2Proof/Machine/WeaveOps.lean ====
section
/-! DEFINITION. Weave records and the ring digest (R381, R383). -/

namespace Sys2Proof.Machine

/-! ### Weave records (Table WV-6) -/

/-- What a weave record says beside its event. -/
structure WvInfo where
  status : Nat := 0
  tag : Nat := 0
  section_ : Nat := 0
  entry : Nat := 0
  requested : Nat := 0
  result : Nat := 0
  addr : Nat := 0
  count : Nat := 0
  rejects : Nat := 0
deriving DecidableEq, Repr, Inhabited

/-- The record from byte 8 on; APPLIED, PATCHED and STATE carry both digests. -/
def wvBody (s : State) (event : Nat) (i : WvInfo) : Bytes :=
  leBytes 1 event ++ leBytes 1 i.status ++ leBytes 2 i.tag ++ leBytes 2 i.section_ ++ leBytes 2 0 ++ leBytes 4 i.entry ++ leBytes 4 i.requested ++
  leBytes 4 i.result ++ leBytes 4 0 ++ leBytes 8 i.addr ++ leBytes 8 s.gt ++ leBytes 4 i.count ++ leBytes 4 i.rejects ++ leBytes 8 0 ++
  (if event = 3 ∨ event = 4 ∨ event = 7 then slice s.wv.structure_ 0 64 ++ slice s.wv.ring 0 64 else [])

/-- Priority of a weave record. -/
def wvPrio (event : Nat) : Nat := if event = 5 then 6 else if event = 2 then 5 else 4

/-- A weave record to a report queue. -/
def wvRecord (s : State) (q event : Nat) (i : WvInfo) : State := stage s 15 (q % 64) (wvPrio event) 7 (wvBody s event i)

/-- A weave record raised before the queues are loaded is held; beyond 4,096 one OVERFLOW record counts them. -/
def wvHold (s : State) (q event : Nat) (i : WvInfo) : State :=
  let put := fun (l : List Staged) => { s with wv := { s.wv with held := l } }
  let h := s.wv.held
  if h.length < 4096 then put (h ++ [⟨15, q % 64, wvPrio event, 7, wvBody s event i⟩])
  else match h.drop 4096 with
    | [] => put (h ++ [⟨15, q % 64, wvPrio 8, 7, wvBody s 8 { count := 1 }⟩])
    | o :: _ => put (h.take 4096 ++ [{ o with body := splice o.body 40 (leBytes 4 (leAt o.body 40 4 + 1)) }])

/-- The record that follows the held ones (R385 step 5). -/
def wvLast (s : State) (q event : Nat) (i : WvInfo) : State :=
  { s with wv := { s.wv with held := s.wv.held ++ [⟨15, q % 64, wvPrio event, 7, wvBody s event i⟩] } }

/-! ### The ring digest (R383) -/

/-- Complete tables as bytes of their elements, written or not. -/
def ringTables (s : State) : Bytes :=
  let w := s.weave
  ((List.range 256).flatMap fun n => (List.range 8).flatMap fun i => leBytes 4 ((tget [] w.nodes n).getD i 0)) ++
  ((List.range 1024).flatMap fun n => let e := tget (0, 0, 0) w.trans n; leBytes 4 e.1 ++ leBytes 4 e.2.1 ++ leBytes 4 e.2.2) ++
  ((List.range 16).flatMap fun n => slice (tget [] w.keyProfs n) 0 48) ++
  ((List.range 512).flatMap fun n => slice (tget [] w.classes n) 0 48) ++
  ((List.range 64).flatMap fun n => slice (tget [] w.featProfs n) 0 1280) ++
  ((List.range 16).flatMap fun n => slice (tget [] w.cats n) 0 1040) ++
  ((List.range 256).flatMap fun n => leBytes 1 (tget (n % 64) w.profMap n))

/-- The ring digest of what is applied. -/
def ringDigest (s : State) : Bytes :=
  shake256 64 (leBytes 4 (rg s rPL_CFG &&& 0x60003F0F) ++ leBytes 4 (rg s rPL_OWN_SEED) ++
    ((List.range 256).flatMap fun i => leBytes 4 (rg s (rPL_OWNER i))) ++ ringTables s)

/-- The digest is formed again after a change of its inputs; the one before it matches for tDIGEST_GRACE. -/
def ringUpdate (s : State) : State :=
  let d := ringDigest s
  if d = s.wv.ring then s else { s with wv := { s.wv with ring := d, ringOld := s.wv.ring, ringAt := s.gt } }

/-- tDIGEST_GRACE. -/
def digestGrace : Nat := 1000000

/-- DIGEST_GRACE_END. -/
def digestGraceEnd (s : State) : State :=
  if !s.wv.ringOld.isEmpty && decide (s.gt ≥ s.wv.ringAt + digestGrace) then { s with wv := { s.wv with ringOld := [] } } else s

end Sys2Proof.Machine
end

