-- ==== Sys2Proof/Machine/Reset.lean ====
section
/-! DEFINITION. Resets: how a start begins and fails, crash captures, partition and chip resets (R11, R16, R77, R328, R329,
R390 to R397). -/

namespace Sys2Proof.Machine

/-! ### Starts (R390, R394 to R396) -/

/-- RUNNING. -/
def stRun : Nat := 0x10
/-- SAFE. -/
def stSafe : Nat := 0x11
/-- HOSTLOAD. -/
def stHost : Nat := 0x12
/-- FAILED. -/
def stFailed : Nat := 0x13

/-- A start is in progress: one of the stages runs. -/
def starting (s : State) : Bool := s.boot.aon && decide (s.boot.stage < 0x10)

/-- A stage, or a state, begins; a change of STATE is an interrupt cause (R418). -/
def stageEnter (s : State) (c : Nat) : State :=
  let s := if s.boot.stage = c then s else rgwb s rHP_ISR 2 true
  { s with boot := { s.boot with stage := c, stageAt := s.gt } }

/-- A Sampler record of Table STA-7, with a body of 8 bytes. -/
def startRecord (s : State) (type : Nat) (b : Bytes) : State := smpEvent s type (padTo 8 b)

/-- A start fails (R395): counted, recorded while the flash is mounted, FAILED, RESET_REQ_N until power is removed. -/
def startFail (s : State) : State :=
  let f := s.boot.f + 1
  let s := lifeInc { s with boot := { s.boot with f := f } } 20
  let s := if flsMounted s then startRecord s 0x32 (leBytes 1 s.boot.stage ++ leBytes 1 f) else s
  stageEnter { s with flt := { s.flt with resetReq := true } } stFailed

/-- START_BEGIN with its kind. -/
def startBegin (s : State) (kind : Nat) : State :=
  let n := s.boot.f + 1
  startRecord { s with boot := { s.boot with attempt := n } } 0x30 (leBytes 1 n ++ leBytes 1 kind)

/-- The check of R396: safe start when F is 3 or more; time in SAFE up to START is not counted. -/
def safeStart (s : State) : State :=
  let s := startRecord s 0x33 (leBytes 1 s.boot.f)
  stageEnter { s with boot := { s.boot with heldAt := some s.gt } } stSafe

/-- Before stage 0x05 of a start whose START_BEGIN is written there. -/
def stageFive (s : State) (kind : Nat) : State :=
  if s.boot.f ≥ 3 then safeStart s else stageEnter (startBegin s kind) 5

/-- A warm start begins (R396). -/
def warmStart (s : State) : State :=
  stageFive { s with boot := { s.boot with warm := true, again := false, began := s.gt, held := 0, heldAt := none, defWeave := false } } 1

/-! ### Sites (R16 to R18) -/

/-- A site that the repair map marks retired. -/
def siteRetired (s : State) (t : Nat) : Bool := repairAt s t = 1

/-- The logical tile that already occupies the fifth site of partition `p`, as a place in the partition. -/
def spareHeld (s : State) (p : Nat) : Option Nat :=
  (List.range 4).find? fun i => (tileGet s (firstTile s p + i)).site == some (5 * p + 4)

/-- Assign sites of partition `p` from the repair map: each logical tile its own site, or, in guarded mode, the spare, which a tile
that already has it keeps. -/
def assignSites (s : State) (p : Nat) : State :=
  let n := if unguarded s then 5 else 4
  let good := fun (i : Nat) => !siteRetired s (5 * p + i)
  let lost := (List.range n).filter fun i => !good i
  let spare := if n = 4 ∧ good 4 then ((spareHeld s p).filter fun i => lost.contains i).orElse fun _ => lost.head? else none
  let ep := rg s rGLB_EPOCH % 65536
  let s := (List.range 5).foldl (fun s i =>
    let lt := if !good i then 31 else if i < n then firstTile s p + i else match spare with | some j => firstTile s p + j | none => 31
    let role := if !good i then 2 else if lt = 31 then 1 else 0
    repairRegs (sitePut s (5 * p + i) { role := role, lt := lt, epoch := ep, fenced := false }) (5 * p + i)) s
  (List.range n).foldl (fun s i =>
    let site := if good i then some (5 * p + i) else if spare = some i then some (5 * p + 4) else none
    tilePut s (firstTile s p + i) { tileGet s (firstTile s p + i) with site := site }) s

/-! ### Captures (R329) -/

/-- SEQ that the FAULT record just staged will have at its queue. -/
def faultSeq (s : State) : Nat :=
  let q := rgf s rFLT_CFG 31 26
  ((rqGet s q).seq + (s.rq.staged.filter fun r => r.queue == q).length - 1) % 2 ^ 32

/-- Partitions in a capture's scope. -/
def capParts (scope part : Nat) : List Nat := if scope = 1 ∨ part ≥ 4 then [0, 1, 2, 3] else [part]

/-- Queue section: depth and ends of each pipe's queue and each egress queue in use, SEQ of the ends of each report list (its
layout is the model's: log entry 34). -/
def capQueues (s : State) (ps : List Nat) : Bytes :=
  let ends := fun (id : Nat) (l : List Nat) => leBytes 4 id ++ leBytes 4 l.length ++ leBytes 4 (l.headD 0) ++ leBytes 4 (l.getLastD 0)
  (ps.flatMap fun p => ends (0x10000000 + p) (pipeGet s p).dq ++
    (tmGet s p).queues.flatMap fun e => ends (0x20000000 + p * 65536 + e.1) (e.2.ents.map fun x => x.frame)) ++
  s.rq.queues.flatMap fun e => e.2.lists.flatMap fun l => ends (0x30000000 + e.1 * 8 + l.1) (l.2.recs.map fun r => r.seq)

/-- Knot section: key and value of every knot that is not zero. -/
def capKnots (s : State) (ps : List Nat) : Bytes :=
  (s.knots.filter fun e => ps.contains (tilePart s (e.1 / 8192))).flatMap fun e => leBytes 4 e.1 ++ leBytes 4 e.2

/-- Engine section: every scoreboard entry in use. -/
def capEngines (s : State) (ps : List Nat) : Bytes :=
  (s.tiles.filter fun t => ps.contains (tilePart s t.1)).flatMap fun t => t.2.sb.flatMap fun e => match e.2 with
    | some x => leBytes 1 t.1 ++ leBytes 1 x.engine ++ leBytes 2 e.1 ++ leBytes 2 x.ctx ++ leBytes 2 x.ply ++ leBytes 2 x.index ++ leBytes 2 x.quarters ++
        leBytes 4 0 ++ leBytes 8 x.issued
    | none => []

/-- Ring section: each context record with its ring position and the 64 commands at and after the head. -/
def capRings (s : State) (ps : List Nat) : Bytes :=
  (s.ctxs.filter fun e => ps.contains (tilePart s (e.1 / 1024))).flatMap fun e =>
    let x := e.2
    let n := max 1 x.img.streamLen
    leBytes 2 e.1 ++ leBytes 1 x.state ++ leBytes 1 x.active ++ leBytes 2 x.ply ++ leBytes 2 x.pos ++ leBytes 4 x.cfg ++ leBytes 4 x.bound ++
    leBytes 4 x.defCls ++ leBytes 4 x.fault ++ leBytes 4 x.admitted ++ leBytes 4 x.bufs.length ++
    (List.range 64).flatMap fun i => spR s (e.1 / 1024) x.img 0 (x.img.streamBase + 32 * ((x.pos + i) % n)) 32

/-- Latch section: every latch that holds an error. -/
def capLatches (s : State) : Bytes :=
  s.latches.flatMap fun e => leBytes 2 e.1 ++ leBytes 1 e.2.cls ++ leBytes 1 e.2.overlap ++ leBytes 4 e.2.level ++ leBytes 8 e.2.gt ++ leBytes 8 e.2.addr

/-- A capture of `k` sections: header, section entries, sections (Table FLT-6). -/
def capBytes (s : State) (c : Capt) (k : Nat) : Bytes :=
  let ps := capParts c.scope c.part
  let secs := [capQueues s ps, capKnots s ps, capEngines s ps, capRings s ps, capLatches s].take k
  let base := 64 + 16 * secs.length
  let (ents, len) := secs.foldl (fun (a : Bytes × Nat × Nat) b =>
    (a.1 ++ leBytes 4 (a.2.2 + 1) ++ leBytes 4 a.2.1 ++ leBytes 4 b.length ++ leBytes 4 0, a.2.1 + b.length, a.2.2 + 1)) ([], base, 0)
  leBytes 4 0x50414346 ++ leBytes 4 c.num ++ leBytes 1 c.scope ++ leBytes 1 c.part ++ leBytes 1 (b2n (decide (k < 5))) ++ leBytes 1 secs.length ++
  leBytes 4 len.1 ++ leBytes 8 c.since ++ leBytes 8 s.gt ++ leBytes 4 c.cause ++ leBytes 1 c.cls ++ leBytes 27 0 ++ ents ++ secs.flatten

/-- A capture begins: it takes the next number and the next slot of the region. -/
def capStart (s : State) (scope part cause cls : Nat) : State :=
  let (base, size) := lpRegion s 3
  let n := size / 2 ^ 26
  let k := if n = 0 then 0 else s.flt.capSlot % n
  let num := s.flt.capNo + 1
  let c : Capt := { addr := if n = 0 then 0 else lpBase + base + k * 2 ^ 26, scope := scope, part := part, cause := cause, cls := cls, since := s.gt, num := num }
  { s with flt := { s.flt with capNo := num, capSlot := k + 1, caps := s.flt.caps ++ [c] } }

/-- A capture is written with `k` of its five sections (fewer: cut short), counted, told to the Sampler, and waits to be copied to
flash; a slot overwritten before its copy loses that copy (R350). -/
def capWrite_ (s : State) (c : Capt) (k : Nat) : State :=
  let b := capBytes s c (clampN 1 5 k)
  let s := { s with flt := { s.flt with caps := s.flt.caps.erase c } }
  let s := smpEvent (bump s rFLT_CAPTURES) 0x21 (b.take 64)
  if c.addr = 0 then s else
  let b := b.take (2 ^ 26)
  let lost := s.flash.capWait.filter fun e => e.2.1 == c.addr
  let s := bumpN (memW s c.addr b) rFLS_CAP_SKIP lost.length
  { s with flash := { s.flash with capWait := (s.flash.capWait.filter fun e => e.2.1 != c.addr) ++ [(c.num, c.addr, b.length)] } }

/-! ### Partition reset (R328) -/

/-- The blocks of partition `p` whose counters its reset clears: PIPE, VD, TM, those of its ports and sites. -/
def partBlock (s : State) (p a : Nat) : Bool :=
  let _ := s
  match decodeReg a with
  | some (.pipe, q, _) => q == p
  | some (.vd, q, _) => q == p
  | some (.tm, q, _) => q == p
  | some (.fp, n, _) => portPart n == p
  | some (.til, t, _) => t / 5 == p
  | some (.shf, t, _) => t / 5 == p
  | some (.thr, t, _) => t / 5 == p
  | _ => false

/-- Counters of the units that were reset start from 0; their configuration stands. -/
def clearCounters (s : State) (p : Nat) : State :=
  { s with regs := s.regs.filter fun e => !(partBlock s p e.1 && match regRow e.1 with | some r => decide (r.rc ≠ 0) | none => false) }

/-- Frames of a partition are lost, with what refers to them. -/
def framesLost (s : State) (p : Nat) : State :=
  let mine := fun (h : Nat) => h / 2 ^ 24 == p
  let t := tmGet s p
  let queues := t.queues.map fun e => (e.1, { e.2 with ents := [], tokens := shFill e.2.shaper e.2.burst, tokAt := s.gt, dc := 0, fresh := true, drops := 0 })
  let groups := t.groups.map fun e => (e.1, { e.2 with tokens := shFill e.2.shaper e.2.burst, tokAt := s.gt, dc := 0, fresh := true, ptr := 0 })
  let s := tmPut s p { t with used := [], lost := [], queues := queues, groups := groups, ptrs := [], pause := [], tx := [],
                              lfsr := lfsrSeed (BitVec.ofNat 32 (rg s (rTM_AQM_SEED p))) }
  let s := (s.frames.filter fun e => mine e.1).foldl (fun s e => match e.2 with | some f => headDrop s f.headSlot | none => s) s
  let off := fun (f : Frame) => if f.headSlot.any fun n => n / 4096 == p then { f with headSlot := none } else f
  { s with frames := (s.frames.filter fun e => !mine e.1).map fun e => (e.1, e.2.map off),
           pipes := s.pipes.map fun e => (e.1, { e.2 with dq := e.2.dq.filter (fun h => !mine h), replay := e.2.replay.filter fun h => !mine h }) }

/-- The ledger, waiting results, sampling and the journal of a partition are cleared; its Granary entries name no ledger slot. -/
def verdictsLost (s : State) (p : Nat) : State :=
  let v := vdGet s p
  let s := vdPut s p { v with ledger := [], inq := [], samp := [], flowCnt := [], qcCnt := [] }
  let g := shareGet s p
  let off := fun (e : Nat × Option GEnt) => (e.1, e.2.map fun x => { x with vs := { x.vs with lslot := none } })
  let s := sharePut s p { g with flow := g.flow.map off, ep := g.ep.map off }
  { s with jrnl := s.jrnl.filter fun e => e.1 / 2 ^ 20 != p, pl := { s.pl with fwd := s.pl.fwd.filter fun e => e.1 / 16384 != p } }

/-- Requests of other partitions that went to contexts of `p` (steering): they are refused. -/
def foreignRefused (s : State) (p : Nat) : State :=
  (s.jrnl.filterMap fun e => match e.2 with
    | some j => if e.1 / 2 ^ 20 ≠ p ∧ tilePart s (j.ctx / 1024) = p then some (e.1, j.ctx) else none
    | none => none).foldl (fun s e => refuse s (e.1 / 2 ^ 20) (e.1 % 2 ^ 20) e.2) s

/-- The ports and the peer link of a partition go down. -/
def linksDown (s : State) (p : Nat) : State :=
  let s := (List.range 16).foldl (fun s i =>
    let n := 4 * p + i / 4
    let m := i % 4
    let s := if rgb s (rFP_STATUS n) (28 + m) then subDown s n m else s
    { subPut s n m { subGet s n m with seq := 0 } with stamps := tset [] s.stamps n [] }) s
  linkFall s p

/-- Slots of a context that are not ACTIVE are emptied; a load in progress ends CANCELLED. -/
def slotsEmpty (s : State) (c : Nat) : State :=
  let s := (s.sessions.filterMap fun e => match e.2 with
      | some v => (match v.waiting with | some b => if byteAt b 0 = 1 ∧ leAt b 4 2 = c then some e.1 else none | none => none)
      | none => none).foldl (fun s i => sessionFail s i 10 0) s
  [0, 1].foldl (fun s k => if (mslotGet s c k).state = 4 then s else mslotPut s c k mslot0) s

/-- The contexts a partition has, with any slot in use. -/
def partCtxs (s : State) (p : Nat) : List Nat :=
  let cs : List Nat := (s.ctxs.map fun e => e.1) ++ s.slots.map fun e => e.1 / 2
  cs.eraseDups.filter fun c => tilePart s (c / 1024) == p

/-- A context ends a partition reset. -/
def ctxReset (s : State) (c : Nat) : State :=
  let s := slotsEmpty s c
  let x := ctxGet s c
  let calm : Ctx := { x with pos := 0, bufs := [], admitted := 0, b := 0, n := 0, fresh := false, restoring := false, restart := none, toks := [] }
  match x.state with
  | 1 =>
    match refill s c x.active with
    | some s => knotsInit (ctxPut s c calm) (c / 1024) x.img
    | none => modelRecord (mslotPut (ctxPut s c { calm with state := 0 }) c x.active mslot0) (mslotGet s c x.active).rq 5 6 0 c x.active 0 0 []
  | 2 => ctxRelease (ctxPut s c calm) c
  | 3 =>
    match refill s c x.active with
    | some s => ctxPut s c calm
    | none => s
  | _ => s

/-- The sites of a partition load the repair map: a fenced site that is not retired returns to service, and each logical tile has the
site that R16 or R18 gives it. -/
def sitesReturn (s : State) (p : Nat) : State :=
  let s := (List.range 5).foldl (fun s i =>
    let t := 5 * p + i
    if (siteGet s t).role = 2 ∧ !siteRetired s t then rgw (rgw s (rSHF_STATUS t) 0) (rTHR_STATUS t) 0 else s) s
  let old := (List.range 5).map fun i => siteGet s (5 * p + i)
  let s := assignSites s p
  (List.range 5).foldl (fun s i => match old[i]? with
    | some v => if v.role = 2 ∧ siteRetired s (5 * p + i) then sitePut s (5 * p + i) v else s
    | none => s) s

/-- Outstanding faults that a filter picks end, with the number of the capture that the reset was preceded by. -/
def faultsEnd (s : State) (cap : Nat) (pick : OutFault → Bool) : State :=
  (s.faults.filter pick).foldl (fun s f => faultEnd s f.cls f.unit cap) s

/-- The SRAM of partition `p`'s tile sites is reset with them: R328 does not keep it, and it reads as unwritten memory does. -/
def sramLost (s : State) (p : Nat) : State :=
  let out := fun (a : Nat) => decide (a < sramBase (5 * p) ∨ sramBase (5 * p + 5) ≤ a)
  { s with mem := s.mem.filter fun e => out e.1, bad := s.bad.filter fun e => out e.1 }

/-- The partition reset itself. -/
def partReset (s : State) (p cap : Nat) : State :=
  let away := (pipeGet s p).out
  let s := foreignRefused s p
  let s := linksDown s p
  let s := sramLost (verdictsLost (framesLost s p) p) p
  let s := clearCounters s p
  let s := pipePut s p { pipeGet s p with bypass := false, out := none, headUsed := [] }
  let s := match away with | some t => if s.gt ≥ t + 2 ^ 39 * 1000 then staleClear s p else s | none => s
  let s := { s with tiles := s.tiles.map fun e => if tilePart s e.1 = p then (e.1, { tile0 with site := e.2.site }) else e,
                    obs := { s.obs with trq := s.obs.trq.filter fun e => tilePart s e.1 != p },
                    flt := { s.flt with restore := s.flt.restore.filter fun e => tilePart s e.1 != p,
                                        waits := s.flt.waits.filter fun w => tilePart s (w.2.2 / 1024) != p,
                                        takeover := s.flt.takeover - (if bit s.flt.takeover p then 2 ^ p else 0) } }
  let s := sitesReturn s p
  let s := (partCtxs s p).foldl ctxReset s
  let s := lifeInc (bump s rFLT_PART_RESETS) 16
  faultsEnd s cap fun f => f.part == p && f.action != 10 && f.action != 7

/-! ### Chip reset (R328) -/

/-- What a chip reset leaves of the registers: those that keep their values. -/
def regsKept (s : State) : Tab Word := s.regs.filter fun e => match regRow e.1 with | some r => r.keep | none => false

/-- ACTIVE contexts wait for the warm start, FREE meanwhile; every other context and slot is emptied. -/
def ctxsKept (s : State) : State :=
  let s := (s.slots.map fun e => e.1 / 2).eraseDups.foldl slotsEmpty s
  let active := s.ctxs.filter fun e => e.2.state == 1
  let isA := fun (c : Nat) => active.any fun e => e.1 == c
  { s with ctxs := active.map fun e => (e.1, { ctx0 with active := e.2.active, img := e.2.img }),
           slots := s.slots.filter fun e => isA (e.1 / 2) }

/-- Every domain but the island loses its state; LPDDR5X, the always-on counters and what the island holds are kept. -/
def mainClear (s : State) : State :=
  { s with
    regs := regsKept s, mem := s.mem.filter fun e => decide (e.1 ≥ lpBase), bad := s.bad.filter fun e => decide (e.1 ≥ lpBase), frac := [],
    rq := { used := [], queues := [], staged := [], lostCells := [] },
    obs := { cnt := s.obs.cnt, late := s.obs.late, snapNum := s.obs.snapNum, snapAt := s.obs.snapAt, skipped := s.obs.skipped, trq := [], trLost := [],
             trSite := [], trWr := s.obs.trWr, trDeep := s.obs.trDeep },
    frames := [], pipes := [], subs := [], stamps := [], weave := { nodes := [], trans := [], keyProfs := [], classes := [], cats := [], profMap := [], featProfs := [] },
    shares := [], vds := [], tms := [], jrnl := [], pl := { links := [], msg := 0, liveSeq := 0, peers := [], seen := [], fwd := [], fply := [] },
    tiles := [], knots := [], sites := [], sessions := [], latches := [], faults := [],
    pwr := { s.pwr with eff := s.pwr.eff.filter (fun e => match regRow e.1 with | some r => r.keep | none => false), parts := [], groups := s.pwr.groups.map fun e => (e.1, { e.2 with copying := [] }) },
    bank := { hdr := ⟨0, 0, 0, 0⟩, status := 0, data := [], scores := [], times := [], held := [] },
    flt := { s.flt with resetting := false, takeover := 0, caps := [], mism := [], hang := [], restore := [], waits := [], siteOut := [], islOut := none, islHalted := false } }

/-- A pending patch is discarded; its CANCELLED record is held for the queues (Table WV-8). -/
def patchCancel (s : State) : State :=
  match s.wv.pending with
  | some p => mboxDone (wvHold { s with wv := { s.wv with pending := none } } (byteAt p.block 3) 9 { tag := leAt p.block 6 2 }) (byteAt p.block 0) 0 (leAt p.block 6 2)
  | none => s

/-- The chip reset itself: every domain but the island; LPDDR5X and the always-on counters are kept. Then a warm start. -/
def chipReset (s : State) (cap : Nat) : State :=
  let s := patchCancel (ctxsKept (smbLatch s))
  let fs := s.faults
  let s := mainClear s
  let s := lifeInc (bump s rFLT_CHIP_RESETS) 12
  let s := { s with faults := fs }
  warmStart (faultsEnd s cap fun _ => true)

/-! ### Starting a reset -/

/-- A reset runs: what scope and partition say. -/
def runReset (s : State) (scope p cap : Nat) : State := if scope = 1 then chipReset s cap else partReset s p cap

/-- A reset of a scope (0 partition, 1 chip) starts: a capture first, if FLT_CFG.CAP_EN says so; a chip reset takes the place of
partition resets in progress. -/
def startReset (s : State) (scope p cause cls : Nat) : State :=
  if s.flt.caps.any fun c => c.scope == 1 || (c.scope == 0 && scope == 0 && c.part == p) then s
  else
    let s := if scope = 1 then (s.flt.caps.filter fun c => c.scope == 0).foldl (fun s c => capWrite_ s c 1) s else s
    if rgb s rFLT_CFG 19 then
      let s := capStart s scope (if scope = 1 then 0xFF else p) cause cls
      { s with flt := { s.flt with resetting := true } }
    else runReset s scope p 0

/-- A chip reset is in progress. -/
def chipReset_ (s : State) : Bool := s.flt.caps.any fun c => c.scope == 1

/-- The time within which a capture before a reset must end: tCAP_PART or tCAP_CHIP (R329). -/
def capLimit (c : Capt) : Nat := if c.scope = 1 then 10000000 else 1000000

/-- A capture of number `num` ends with `k` sections, cut short when its time has passed; the reset it precedes then runs. -/
def captureEnd (s : State) (num k : Nat) : State :=
  match s.flt.caps.find? fun c => c.num == num with
  | none => s
  | some c =>
    let s := capWrite_ (smbLatch s) c (if c.scope ≤ 1 ∧ s.gt > c.since + capLimit c then min k 4 else k)
    let s := { s with flt := { s.flt with resetting := s.flt.caps.any fun e => decide (e.scope ≤ 1) } }
    if c.scope ≤ 1 then runReset s c.scope c.part c.num else s

/-- A higher-level reset that covers partition `p` is in progress. -/
def resetCovers (s : State) (p : Nat) : Bool := s.flt.caps.any fun c => c.scope == 1 || (c.scope == 0 && c.part == p)

end Sys2Proof.Machine
end

