-- ==== Sys2Proof/Machine/Faults.lean ====
section
/-! DEFINITION. Recovery: engine resets, takeover of a site, steering of a pipe, pairs, clocks, the island, escalation, host
recovery commands (R312 to R324, R329 to R332). -/

namespace Sys2Proof.Machine

/-! ### Escalation (R315) -/

/-- A fault's recovery escalates: its ending record with END and ESCALATED, its latch one overlap and one level on, counted. The
fault stays outstanding until the recovery that takes its place ends. -/
def faultEscalate (s : State) (f : OutFault) : State :=
  let l := latchGet s f.unit
  let s := { s with latches := tset latch0 s.latches f.unit { l with overlap := min 255 (l.overlap + 1), level := min 5 (l.level + 1) } }
  let s := faultRecord s 4 (faultBody f.cls f.action f.unit f.part (faultFlags f.masked true false (outside s) f.dbl true)
    (latchGet s f.unit).overlap f.detect s.gt f.addr ((s.gt - f.detect) / 1000) f.redisp 0)
  { s with faults := s.faults.map fun g => if g = f then { g with told := true } else g }

/-- The level to which an error in partition `p`'s scope escalates the recovery in progress there (R315): a partition reset to the
chip reset, a takeover or steering to the partition reset; none when the scope is not recovering. -/
def partLevel (s : State) (p : Nat) : Option Nat :=
  if s.flt.caps.any fun c => c.scope == 0 && c.part == p then some 4
  else if bit s.flt.takeover p || s.faults.any fun f => f.part == p && f.action == 5 && !f.told then some 3
  else none

/-- The recoveries in progress in partition `p`'s scope: takeover with and without a spare, steering, reset. -/
def partRecoveries (s : State) (p : Nat) : List OutFault :=
  s.faults.filter fun f => f.part == p && !f.told && [3, 4, 5, 9].contains f.action

/-- The recoveries `fs` of partition `p` escalate to level `lvl`, whose reset takes their place; `cause`: SEQ of the FAULT record. -/
def partEscalate (s : State) (fs : List OutFault) (p lvl cause cls : Nat) : State :=
  startReset (fs.foldl faultEscalate (bump s rFLT_ESCALATIONS)) (if lvl = 4 then 1 else 0) p cause cls

/-- The unmasked faults of a partition that its reset recovers, and the reset; the chip reset when its reset is in progress already. -/
def partFault (s : State) (cls unit p : Nat) (dbl : Bool) : State :=
  let lvl := partLevel s p
  let fs := partRecoveries s p
  let s := faultDetect s cls unit p 0 (if lvl = some 4 then 10 else 9) (lvl.getD 3) false dbl
  match lvl with
  | some k => partEscalate s fs p k (faultSeq s) cls
  | none => startReset s 0 p (faultSeq s) cls

/-! ### Engine reset (R319) -/

/-- The even member of a braid, or the tile itself. -/
def evenOf (s : State) (l : Nat) : Nat := if braidOdd s l then l - 1 else l

/-- Sort numbers upward. -/
def sortUp (l : List Nat) : List Nat := l.foldl (fun a x => sortedInsert x a) []

/-- The passes of a tile's Threshers go. -/
def passesClear (s : State) (l : Nat) : State :=
  let s := tilePut s l { tileGet s l with form := none, run := none }
  if braided s l then tilePut s (l + 1) { tileGet s (l + 1) with form := none, run := none } else s

/-- Clear engine `e` of tile `l`: its entries, the Thresher's queue and passes, the dispatcher's order; restart the contexts that
held an entry. -/
def engineClear (s : State) (l e : Nat) : State × List Nat :=
  let t := tileGet s l
  let cs := (sortUp (((sbUsed s l).filter fun x => x.2.engine == e).map fun x => x.2.ctx)).eraseDups
  let sb := t.sb.filter fun x => match x.2 with | some v => v.engine != e | none => false
  let t := { t with sb := sb }
  let t := if e = 0 then { t with rr := [], lastIssue := s.gt } else t
  let s := tilePut s l t
  (cs.foldl (fun s c => ctxRestart s c true) (if e = 2 then passesClear s l else s), cs)

/-- The recovery of a fault awaits the restarts of contexts; without one it ends now. -/
def awaitRestarts (s : State) (cls unit : Nat) (cs : List Nat) : State :=
  let cs := cs.filter fun c => (ctxGet s c).restart.isSome
  if cs.isEmpty then faultEnd s cls unit 0
  else { s with flt := { s.flt with waits := s.flt.waits ++ cs.map fun c => (cls, unit, c) } }

/-- An engine reset: counted for the device and for the site. -/
def engineReset (s : State) (l e : Nat) : State × List Nat :=
  let (s, cs) := engineClear s l e
  (lifeSite (bump s rFLT_ENG_RESETS) (tileSite s l) 15 8, cs)

/-! ### Takeover (R16 to R18, R320) -/

/-- Contexts of a tile in the order their regions are restored: descending PRIO, then ascending number. -/
def restoreOrder (s : State) (cs : List Nat) : List Nat :=
  cs.foldl (fun acc c =>
    let ahead := fun (x : Nat) => decide (prioOf s x > prioOf s c) || (decide (prioOf s x = prioOf s c) && decide (x < c))
    acc.takeWhile ahead ++ c :: acc.dropWhile ahead) []

/-- Slot `k` of `c` holds an image. -/
def slotHolds (s : State) (c k : Nat) : Bool := decide ((mslotGet s c k).state ≥ 2)

/-- A context with something to move or restore. -/
def ctxHolds (s : State) (c : Nat) : Bool := slotHolds s c 0 || slotHolds s c 1

/-- Contexts of tile `l` that hold an image, ascending. -/
def holders (s : State) (l : Nat) : List Nat :=
  (sortUp ((tileCtxs s l) ++ ((s.slots.map fun (e : Nat × ModelSlot) => e.1 / 2).filter fun (c : Nat) => c / 1024 == l))).eraseDups.filter (ctxHolds s)

/-- The engines of a tile stop with its site: scoreboard and passes go. -/
def tileStop (s : State) (l : Nat) : State :=
  passesClear (tilePut s l { tileGet s l with sb := [], rr := [], lastIssue := s.gt }) l

/-- A context restarts on its new site once its region is restored. -/
def ctxMoveIn (s : State) (c : Nat) : State :=
  let s := ctxRestart s c true
  if (ctxGet s c).state = 1 then ctxPut s c { ctxGet s c with restoring := true } else s

/-- Regions of contexts `cs` wait for their restore on tile `l`. -/
def restoreQueue (s : State) (l : Nat) (cs : List Nat) : State :=
  { s with flt := { s.flt with restore := tset [] s.flt.restore l (tget [] s.flt.restore l ++ restoreOrder s cs),
                               takeover := if bit s.flt.takeover (tilePart s l) then s.flt.takeover else s.flt.takeover + 2 ^ tilePart s l } }

/-- An address moved with the storage that holds it: moves as (old base, size, new base). -/
def shiftIn (mv : List (Nat × Nat × Nat)) (a : Nat) : Nat :=
  match mv.find? fun m => decide (m.1 ≤ a ∧ a < m.1 + m.2.1) with
  | some m => m.2.2 + (a - m.1)
  | none => a

/-- New places on tile `l` for the storage of space `sp` that the slots hold. -/
def replan (s : State) (l sp size : Nat) (ms : List ModelSlot) : Option (List (Nat × Nat × Nat)) :=
  let olds := ((ms.flatMap fun m => (m.allocs.filter fun a => a.1 == sp).map fun a => a.2).filter fun a => decide (a.2 > 0)).eraseDups
  olds.foldlM (fun (acc : List (Nat × Nat × Nat)) a => do
    let occ := occupied s sp (fun d => d / 1024 == l) ++ acc.map fun m => (m.2.2, m.2.1)
    let b ← firstFit occ 0 size (if sp = 0 then 64 else 1) a.2 fun _ => true
    return acc ++ [(a.1, a.2, b)]) []

/-- What a slot sets, with SRAM and knots moved. -/
def imgMoved (sram kn : List (Nat × Nat × Nat)) (v : SlotImg) : SlotImg :=
  { v with streamBase := shiftIn sram v.streamBase, regionBase := shiftIn sram v.regionBase, reqBase := shiftIn sram v.reqBase,
           knotBase := shiftIn kn v.knotBase,
           maps := v.maps.map fun e => if e.1 = 0 then (e.1, e.2.1, e.2.2.1, shiftIn sram e.2.2.2) else e }

/-- A slot with SRAM and knots moved. -/
def slotMoved (sram kn : List (Nat × Nat × Nat)) (m : ModelSlot) : ModelSlot :=
  { m with img := imgMoved sram kn m.img,
           kept := m.kept.map fun k => if k.type ≤ 2 then { k with addr := shiftIn sram k.addr } else k,
           allocs := m.allocs.map fun a => if a.1 = 0 then (0, shiftIn sram a.2.1, a.2.2) else if a.1 = 3 then (3, shiftIn kn a.2.1, a.2.2) else a }

/-- A free context number on tile `l`: FREE, both slots EMPTY, named by no binding (which one is open: log entry 14). -/
def ctxFree (s : State) (l : Nat) : Option Nat :=
  let used := ((s.ctxs.filter fun e => e.2.state != 0).map fun e => e.1) ++ (s.slots.map fun e => e.1 / 2)
  let bound := (List.range 4).flatMap fun q => (List.range 256).filterMap fun k => binding s q k
  ((List.range 1024).map fun i => 1024 * l + i).find? fun d => !used.contains d && !bound.contains d

/-- Bytes of SRAM of tile `l` that no slot holds. -/
def sramFree (s : State) (l : Nat) : Nat :=
  members s l * 20971520 - ((occupied s 0 fun d => d / 1024 == l).map fun a => a.2).sum

/-- Surviving logical tiles of a partition, the one with the most free SRAM first. -/
def survivors (s : State) (p l : Nat) : List Nat :=
  let ts := ((List.range 5).map fun i => firstTile s p + i).filter fun k =>
    tilePart s k == p && (tileGet s k).site.isSome && !braidOdd s k && k != l && !(braided s k && (tileGet s (k + 1)).site.isNone)
  ts.foldl (fun acc k => acc.takeWhile (fun x => decide (sramFree s x ≥ sramFree s k)) ++ k :: acc.dropWhile fun x => decide (sramFree s x ≥ sramFree s k)) []

/-- Every name of context `c` becomes `d`: bindings, journal, forward tables, frames, verdict units, sampling, waiting loads,
request queues, OWNER of its history and matrix records (R320). -/
def ctxRename (s : State) (c d : Nat) (recs : List Nat) : State :=
  let s := ((List.range 4).flatMap fun q => (List.range 256).map fun k => (q, k)).foldl (fun (t : State) e =>
    if binding s e.1 e.2 = some c then rgw t (rTIL_BIND e.1 e.2) (putBits (rg t (rTIL_BIND e.1 e.2)) 30 16 d) else t) s
  let swap := fun (x : Nat) => if x = c then d else x
  let jr := s.jrnl.map fun e => (e.1, e.2.map fun j => if j.ctx = c then
      { j with ctx := d, hdr := splice j.hdr 12 (leBytes 4 (putBits (leAt j.hdr 12 4) 31 17 (d / 1024 * 1024 + d % 1024))) } else j)
  let fw := s.pl.fwd.map fun e => (e.1, e.2.map fun f => { f with ctx := swap f.ctx })
  let fr := s.frames.map fun e => (e.1, e.2.map fun f => { f with hold := f.hold.map fun h => { h with ctx := swap h.ctx } })
  let vd := s.vds.map fun e => (e.1, { e.2 with inq := e.2.inq.map (fun i => { i with ctx := swap i.ctx }),
                                                samp := tset samp0 (tset samp0 e.2.samp c samp0) d (tget samp0 e.2.samp c) })
  let load := fun (b : Bytes) => if byteAt b 0 = 1 ∧ leAt b 4 2 = c then splice b 4 (leBytes 2 d) else b
  let ss := s.sessions.map fun e => (e.1, e.2.map fun v => { v with waiting := v.waiting.map load })
  let s := { s with jrnl := jr, pl := { s.pl with fwd := fw }, frames := fr, vds := vd, sessions := ss }
  let mine := fun (r : Req) => match jGet s r.part r.slot with | some j => j.ctx == d | none => false
  let a := tileGet s (c / 1024)
  let b := tileGet s (d / 1024)
  let s := tilePut (tilePut s (d / 1024) { b with rq := b.rq ++ a.rq.filter mine }) (c / 1024) { a with rq := a.rq.filter fun r => !mine r }
  recs.foldl (fun s r => memW s (tierBase + r + 12) (leBytes 2 d)) s

/-- Tier addresses of the history and matrix records of a slot's image. -/
def recordsOf (s : State) (c k : Nat) : List Nat :=
  let m := mslotGet s c k
  match retained s m with
  | some (b, _) => ((placedAll b).filter fun e => e.2.kind == 2).map (fun e => m.img.tierBase + e.2.off) ++ (m.kept.filter fun x => x.type == 9).map fun x => x.addr
  | none => []

/-- Move context `c` to tile `l`, if its slots fit there: the state and its new number. -/
def ctxMove (s : State) (c l : Nat) : Option (State × Nat) := do
  let ks := [0, 1].filter fun k => (mslotGet s c k).state != 0
  let ms := ks.map (mslotGet s c)
  let fits := ks.all fun k => match retained s (mslotGet s c k) with | some (b, _) => hdrTarget s (some l) b | none => true
  let _ ← (if fits then some () else none : Option Unit)
  let d ← ctxFree s l
  let sram ← replan s l 0 (members s l * 20971520) ms
  let kn ← replan s l 3 (members s l * 4096) ms
  let recs := ks.flatMap (recordsOf s c)
  let x := ctxGet s c
  let s := ctxPut (ctxPut s d { x with img := imgMoved sram kn x.img }) c { ctx0 with cfg := x.cfg, bound := x.bound, defCls := x.defCls }
  let s := ks.foldl (fun s k => mslotPut (mslotPut s d k (slotMoved sram kn (mslotGet s c k))) c k mslot0) s
  let s := { s with gens := tset 0 s.gens d (tget 0 s.gens c) }
  return (ctxRename s c d recs, d)

/-- Contexts of a tile that has lost its site move to the surviving tiles, ascending; one that fits nowhere is FAULTED with ENGINE.
Answers the contexts that restart. -/
def ctxsSpread (s : State) (p l : Nat) : State × List Nat :=
  (holders s l).foldl (fun (a : State × List Nat) c =>
    match (survivors a.1 p l).findSome? (ctxMove a.1 c) with
    | some (s, d) => (restoreQueue (ctxMoveIn s d) (d / 1024) [d], a.2 ++ [d])
    | none => (ctxFault a.1 c 0 (fltAt 8 0), a.2)) (s, [])

/-- Takeovers of a partition end when no region of it waits. -/
def takeoverEnd (s : State) (p : Nat) : State :=
  if bit s.flt.takeover p && !(s.flt.restore.any fun e => tilePart s e.1 == p && !e.2.isEmpty) then
    { s with flt := { s.flt with takeover := s.flt.takeover - 2 ^ p } }
  else s

/-- A takeover moves tile `l` to site `k`: a site marker goes before its next trace record (R370). -/
def siteMarker (s : State) (l k : Nat) : State := { s with obs := { s.obs with trSite := tset none s.obs.trSite l (some k) } }

/-- What the controller has been told of a failed site, and the state without it: its cube and its lanes (R151, R173). -/
def siteTold (s : State) (t : Nat) : (Option Nat × Nat) × State :=
  let mine := s.flt.siteOut.filter fun e => e.1 == t
  ((mine.findSome? fun e => e.2.1, mine.foldl (fun a e => a ||| e.2.2) 0),
   { s with flt := { s.flt with siteOut := s.flt.siteOut.filter fun e => e.1 != t } })

/-- SITE_FAIL: site `t` fails; `cube` the Sheaf cube that the diagnostics identify, `drops` the replies to it that were discarded.
A failure in a partition that is recovering already escalates (R315, Table FLT-10). -/
def siteFail (s : State) (t : Nat) (cube : Option Nat) (drops : Nat) : State :=
  let v := siteGet s t
  let p := t / 5
  let ((told, lanes), s) := siteTold s t
  let cube := cube.orElse fun _ => told
  if t ≥ 20 ∨ v.fenced ∨ v.role ≥ 2 then s else
  let spare := if unguarded s then none else ((List.range 5).map fun i => 5 * p + i).find? fun k => (siteGet s k).role == 1 && k != t
  let again := if v.lt ≥ 20 then none else partLevel s p
  let fs := partRecoveries s p
  let masked := spare.isSome && r5holds s && again.isNone
  let action := match again with | some k => if k = 4 then 10 else 9 | none => if spare.isSome || v.role == 1 then 3 else 4
  let s := lifeSite (faultDetect s 2 (unitCode 0 t) p 0 action (again.getD 3) masked false) t 7 0
  let cause := faultSeq s
  let took := rg s rGLB_EPOCH % 65536
  let s := epochAdvance (repairCommit (repairLanes (repairSite s t cube) t lanes)) 4
  let s := sitePut s t { role := 2, lt := 31, epoch := took, fenced := true }
  let s := bumpN s rFLT_FENCE_DROP drops
  if v.lt ≥ 20 then faultEnd s 2 (unitCode 0 t) 0
  else if let some lvl := again then
    let s := tileStop s (evenOf s v.lt)
    let s := tilePut s v.lt { tileGet s v.lt with site := spare }
    let s := match spare with
      | some k => siteMarker (sitePut s k { siteGet s k with role := 0, lt := v.lt }) v.lt k
      | none => (ctxsSpread s p (evenOf s v.lt)).1
    partEscalate s fs p lvl cause 2
  else
    let l := evenOf s v.lt
    let s := bump (tileStop s l) rFLT_TAKEOVERS
    match spare with
    | some k =>
      let s := siteMarker (sitePut s k { siteGet s k with role := 0, lt := v.lt }) v.lt k
      let s := tilePut s v.lt { tileGet s v.lt with site := some k }
      let cs := holders s l
      let s := restoreQueue (cs.foldl ctxMoveIn s) l cs
      takeoverEnd (awaitRestarts s 2 (unitCode 0 t) cs) p
    | none =>
      let s := tilePut s v.lt { tileGet s v.lt with site := none }
      let (s, cs) := ctxsSpread s p l
      awaitRestarts s 2 (unitCode 0 t) cs

/-- The controller acts on the sites it has been told have failed. -/
def sitesOut (s : State) : State := s.flt.siteOut.foldl (fun s e => siteFail s e.1 none 0) s

/-- The requests that an ARMED slot has admitted are re-dispatched into the buffers of its restored region (R17, R320). -/
def armedRefill (s : State) (c : Nat) : State :=
  match armedSlot s c with
  | none => s
  | some k =>
    let m := mslotGet s c k
    m.bufs.foldl (fun s e => match e.2.bind fun b => jGet s b.part b.slot with
      | some j => faultRedisp (bufWrite s (c / 1024) m.img e.1 (ctxGet s c).ply j) (tilePart s (c / 1024))
      | none => s) s

/-- REGION_RESTORE_END: the region of the first context that waits on its tile is restored from the retained copies; both copies
unreadable fault it. -/
def regionRestoreEnd (s : State) (c : Nat) : State :=
  let l := c / 1024
  match tget [] s.flt.restore l with
  | d :: rest =>
    if d ≠ c then s else
    let s := { s with flt := { s.flt with restore := tset [] s.flt.restore l rest } }
    let (s, lost) := [0, 1].foldl (fun (a : State × Bool) k =>
      if slotHolds a.1 c k then
        match refill a.1 c k with
        | some s => (s, a.2)
        | none => (a.1, a.2 || k == (ctxGet a.1 c).active)
      else a) (s, false)
    let s := armedRefill (ctxPut s c { ctxGet s c with restoring := false }) c
    let s := if lost then ctxFault s c 0 (fltAt 8 0) else restartEnd s c
    takeoverEnd s (tilePart s l)
  | [] => s

/-! ### Hangs (R312, R319) -/

/-- FLT_HANG.CMD in ns. -/
def hangNs (s : State) : Nat := clampN 1 1000 (rgf s rFLT_HANG 31 16) * 1000000

/-- Engine `e` of tile `l` hangs: an entry older than FLT_HANG.CMD, or an issuable head and no issue for 1 ms. -/
def engineHung (s : State) (l e : Nat) : Bool :=
  if e = 0 then (candidate s l).isSome && decide (s.gt ≥ (tileGet s l).lastIssue + 1000000)
  else (sbUsed s l).any fun x => x.2.engine == e && decide (s.gt ≥ x.2.issued + hangNs s)

/-- ENGINE_HANG: the engine is reset; a second hang within 10 ms fails the site. -/
def engineHang (s : State) (l e : Nat) : State :=
  let l := evenOf s l
  let site := tileSite s l
  if e ≥ 6 ∨ (tileGet s l).site.isNone ∨ !engineHung s l e then s else
  let unit := unitCode 1 (site * 8 + e)
  let again := match tget none s.flt.hang unit with | some t => decide (s.gt < t + 10000000) | none => false
  let s := faultDetect s 4 unit (tilePart s l) 0 8 2 (r5holds s) false
  let s := { s with flt := { s.flt with hang := tset none s.flt.hang unit (some s.gt) } }
  if again then siteFail (faultEnd s 4 unit 0) site none 0
  else
    let (s, cs) := engineReset s l e
    awaitRestarts s 4 unit cs

/-! ### Steering (R6, R81, R322) -/

/-- A context of a failed pipe's partition restarts without re-taking; its ADMITTED entries, an ARMED slot's among them, go to the
adopting partition's contexts. -/
def steerCtx (s : State) (q c : Nat) : State :=
  let x := ctxGet s c
  let held := x.bufs ++ match armedSlot s c with | some k => (mslotGet s c k).bufs | none => []
  if x.state ≠ 1 ∨ held.isEmpty then s else
  let rs := held.filterMap fun e => e.2.bind fun b => (jGet s b.part b.slot).map fun j => (j.order, b.part, b.slot)
  let rs := rs.foldl (fun acc r => acc.takeWhile (fun y => decide (y.1 ≤ r.1)) ++ r :: acc.dropWhile fun y => decide (y.1 ≤ r.1)) []
  let s := ctxRestart s c false
  let s := ctxPut s c { ctxGet s c with bufs := [] }
  let s := match armedSlot s c with | some k => mslotPut s c k { mslotGet s c k with bufs := [] } | none => s
  rs.foldl (fun s r =>
    match jGet s r.2.1 r.2.2 with
    | none => s
    | some j =>
      let s := faultRedisp s (tilePart s (c / 1024))
      match binding s q (leAt j.hdr 16 4 % 256) with
      | some d =>
        let hdr := splice j.hdr 12 (leBytes 4 (putBits (leAt j.hdr 12 4) 31 17 d))
        enqueueReq (jPut s r.2.1 r.2.2 (some { j with admitted := false, ctx := d, hdr := hdr })) r.2.1 r.2.2 d
      | none => refuse (bump s (rTIL_UNBOUND q)) r.2.1 r.2.2 c) s

/-- Frames of partition `p` whose descriptors are still in its ring, oldest entry first: queued, or waiting for their end status (R317,
R322). -/
def ringFrames (s : State) (p : Nat) : List Nat :=
  let n := (pipeGet s p).ringNext
  (s.frames.filterMap fun e => match e.2 with
    | some f => if f.part = p && (f.stage == .queued || f.stage == .parsed) then some ((f.ring + 131072 - n) % 131072, e.1) else none
    | none => none).foldl (fun acc x => acc.takeWhile (fun y => decide (y.1 ≤ x.1)) ++ x :: acc.dropWhile fun y => decide (y.1 ≤ x.1)) []
  |>.map fun e => e.2

/-- A ring entry is read for its replay: the descriptor waits at the adopting pipe, which reads the head from the cells; one that cannot
be read is lost, and its cells wait for the island (Table FLT-5). -/
def ringReplay (s : State) (p q h : Nat) : State :=
  match frameGet s h with
  | none => s
  | some f =>
    match generalBad s p (ringAt s f.ring) 32 with
    | some a =>
      let t := tmGet s p
      tierMiss { tmPut s p { t with lost := t.lost ++ f.cells } with frames := tset none s.frames h none } a
    | none =>
      let s := framePut s h { f with stage := .queued, headSlot := none, replayed := true, tables := none }
      pipePut s q { pipeGet s q with replay := (pipeGet s q).replay ++ [h] }

/-- PIPE_STEER: pipe `p` fails. The descriptors that it held for another partition go to the adopting pipe as they are. In a
partition that is recovering already the failure escalates (R315). -/
def pipeSteer (s : State) (p : Nat) : State :=
  let v := pipeGet s p
  let q := (p + 1) % 4
  if p ≥ 4 ∨ v.out.isSome then s else
  let others := (List.range 4).all fun i => i == p || (pipeGet s i).out.isNone
  let again := partLevel s p
  let fs := partRecoveries s p
  let action := match again with | some k => if k = 4 then 10 else 9 | none => 5
  let s := faultDetect s 8 (unitCode 2 p) p 0 action (again.getD 3) (others && r5holds s && again.isNone) false
  let cause := faultSeq s
  let s := pipePut (bump s rFLT_STEERS) p { v with dq := [], replay := [], out := some s.gt, bypass := false, headUsed := [] }
  let own := ringFrames s p
  let s := own.foldl (fun s h => ringReplay s p q h) s
  let w := pipeGet s q
  let s := pipePut s q (pipeFill { w with replay := w.replay ++ (v.dq ++ v.replay).filter fun h => !own.contains h })
  let s := ((sortUp (s.ctxs.map fun e => e.1)).filter fun c => tilePart s (c / 1024) == p).foldl (fun s c => steerCtx s q c) s
  match again with
  | some k => partEscalate s fs p k cause 8
  | none => s

/-- Descriptors of partition `p` wait for their replay. -/
def replaying (s : State) (p : Nat) : Bool :=
  let v := pipeGet s ((p + 1) % 4)
  (v.replay ++ v.dq).any fun h => match frameGet s h with | some f => f.replayed && f.part == p | none => false

/-- PIPE_REPLAY_END: the adopting pipe has replayed the ring. -/
def pipeReplayEnd (s : State) (p : Nat) : State :=
  if (pipeGet s p).out.isSome && !replaying s p then faultEnd s 8 (unitCode 2 p) 0 else s

/-! ### Traffic manager, pairs, clocks (R312, R323, R324) -/

/-- Queue `q` of partition `p` has dequeued nothing for 1 ms while its head waited. -/
def queueHung (s : State) (p q : Nat) : Bool :=
  let v := qGet s p q
  match v.ents with
  | e :: _ => decide (s.gt ≥ e.enq + 1000000 ∧ s.gt ≥ v.deqAt + 1000000)
  | [] => false

/-- An eligible queue on an up sub-port of partition `p` has dequeued nothing for tHANG_TM (R312 class 10). -/
def tmHung (s : State) (p : Nat) : Bool :=
  decide (p < 4) && (List.range 16).any fun i =>
    let n := 4 * p + i / 4
    let m := i % 4
    linkUp s n m && (subEligible s n m).any (queueHung s p)

/-- TM_HANG: no dequeue of an eligible queue on an up sub-port for 1 ms. -/
def tmHang (s : State) (p : Nat) : State := if tmHung s p then partFault s 10 (unitCode 3 (2 * p + 1)) p false else s

/-- PAIR_MISMATCH of pair `b` (0 verdict unit, 1 traffic manager) of `p`: the copy that reports an error is cut off; without one,
or on one copy already, the partition is reset. -/
def pairFail (s : State) (p b : Nat) (copy : Option Nat) : State :=
  if p ≥ 4 ∨ b ≥ 2 then s else
  let u := unitCode 3 (2 * p + b)
  match copy with
  | some k =>
    if tget 0 s.flt.pairCut (2 * p + b) = 0 then
      let s := { s with flt := { s.flt with pairCut := tset 0 s.flt.pairCut (2 * p + b) (2 ^ (k % 2)) } }
      faultInstant s 9 u p 0 6 3 (r5holds s) false
    else partFault s 9 u p false
  | none => partFault s 9 u p false

/-- PLL_LOSS_OF_LOCK: TCLK of `p` switches to the standby PLL; without one left the partition is reset. -/
def pllLoss (s : State) (p : Nat) : State :=
  if p ≥ 4 then s
  else if bit s.flt.pllOut p then partFault s 11 (unitCode 8 p) p false
  else
    let s := { s with flt := { s.flt with pllOut := s.flt.pllOut + 2 ^ p, pllSwap := tset 0 s.flt.pllSwap p (s.time.up + 100) } }
    let s := epochAdvance (repairCommit (repairSet s 4158 (s.flt.pllOut % 16))) 4
    faultInstant s 11 (unitCode 8 p) p 0 15 3 (r5holds s) false

/-! ### The island (R324) -/

/-- ISLAND_VOTE_DISAGREE: processor `k` is outvoted; on two processors the island halts. -/
def islandDisagree (s : State) (k : Nat) : State :=
  if s.flt.islHalted then s else
  match s.flt.islOut with
  | none => faultDetect { s with flt := { s.flt with islOut := some (k % 3) } } 12 (unitCode 9 0) 0xFF 0 14 0 (r5holds s) false
  | some _ => faultDetect { s with flt := { s.flt with islHalted := true } } 12 (unitCode 9 0) 0xFF 0 10 4 false true

/-- ISLAND_RESYNC_END: the third processor re-enters the vote. -/
def islandResync (s : State) : State :=
  if s.flt.islHalted ∨ s.flt.islOut.isNone then s
  else faultEnd { s with flt := { s.flt with islOut := none } } 12 (unitCode 9 0) 0

/-- The chip's recovery escalates to level 5: RESET_REQ_N until power is removed, and the start counter advances (Table FLT-10). -/
def chipEscalate (s : State) : State :=
  let fs := s.faults.filter fun f => !f.told
  startFail (fs.foldl faultEscalate (bump s rFLT_ESCALATIONS))

/-- ISLAND_WATCHDOG: a halted island restarts; its commands in progress are lost, and a chip reset starts. While one is in progress
already, the chip's recovery escalates (R315). -/
def islandWatchdog (s : State) : State :=
  if !s.flt.islHalted then s else
  let s := smbLatch s
  let s := { s with flt := { s.flt with islHalted := false }, mbox := { s.mbox with queue := [] }, sessions := [], wv := { s.wv with pending := none },
                    slots := s.slots.filter fun e => e.2.state != 1 }
  if chipReset_ s then chipEscalate s else startReset s 1 0xFF (faultSeq s) 12

/-! ### Escalation by time (R315) -/

/-- ESCALATION_TIMEOUT: level 2, an engine reset of unit index `u` past 50 µs; level 3, the recovery of partition `u`; level 4, the
chip reset. -/
def escalationTimeout (s : State) (level u : Nat) : State :=
  match level with
  | 2 =>
    match s.faults.find? fun f => f.unit == unitCode 1 u && f.action == 8 && !f.told && decide (s.gt ≥ f.detect + 50000) with
    | some f => startReset (faultEscalate (bump s rFLT_ESCALATIONS) f) 0 f.part (faultSeq s) f.cls
    | none => s
  | 3 =>
    let fs := s.faults.filter fun f => f.part == u && !f.told
    let s := fs.foldl faultEscalate (bump s rFLT_ESCALATIONS)
    startReset s 1 0xFF (if fs.isEmpty then 0 else faultSeq s) (match fs with | f :: _ => f.cls | [] => 0)
  | 4 => chipEscalate s
  | _ => s

/-! ### Host recovery commands (R332, Table FLT-15) -/

/-- FLT_CMD. -/
def fltCommand (s : State) (v : Nat) : State :=
  let done := fun (s : State) (r : Nat) => rgw s rFLT_CMD_STATUS (fld r 28)
  let t := bits v 27 23
  let e := bits v 22 20
  let p := bits v 19 18
  match bits v 31 28 with
  | 1 =>
    if e ≥ 6 ∨ t ≥ 20 then done s 5
    else if resetCovers s (t / 5) then done s 1
    else if (siteGet s t).lt ≥ 20 then done s 0
    else done (engineReset s (evenOf s (siteGet s t).lt) e).1 0
  | 2 => if resetCovers s p || starting s then done s 1 else startReset (done s 0) 0 p 0 0
  | 3 => if (s.flt.caps.any fun c => c.scope == 1) || starting s then done s 1 else startReset (done s 0) 1 0xFF 0 0
  | 4 => if resetCovers s p then done s 1 else capStart (done s 0) 2 (if bit v 17 then 0xFF else p) 0 0
  | _ => done s 5

/-- Computed FLT registers, by offset; FLT_LATCH_GT_LO and FLT_LATCH_ADDR_LO latch their high words. -/
def fltRegRead (s : State) (o : Nat) : Option (Nat × State) :=
  let l := latchGet s (rgf s rFLT_LATCH_SEL 15 0)
  match o with
  | 0x004 => some (fltStatus s, s)
  | 0x014 => some (b2n (!s.flt.caps.isEmpty) * 2 ^ 31 + rgf s rFLT_CMD_STATUS 30 28 * 2 ^ 28, s)
  | 0x024 => some (l.cls % 256 * 2 ^ 24 + l.overlap * 65536 + b2n l.valid * 32768 + l.level % 8 * 4096, s)
  | 0x028 => some (l.gt % 2 ^ 32, rgw s rFLT_LATCH_GT_HI (l.gt / 2 ^ 32))
  | 0x030 => some (l.addr % 2 ^ 32, rgw s rFLT_LATCH_ADDR_HI (l.addr / 2 ^ 32))
  | _ => none

/-- Writes to FLT registers that are not plain storage. -/
def fltRegWrite (s : State) (o v : Nat) : Option State :=
  match o with
  | 0x010 => some (fltCommand s v)
  | _ => none

/-! ### The commands -/

/-- ENGINE_HANG (R319). -/
def execEngineHang (l e : Nat) (s : State) : Host.Outcome State Fault Refusal := .next (engineHang s l e)

/-- PIPE_STEER (R322). -/
def execPipeSteer (p : Nat) (s : State) : Host.Outcome State Fault Refusal := .next (pipeSteer s p)

/-- PIPE_REPLAY_END (R322). -/
def execPipeReplayEnd (p : Nat) (s : State) : Host.Outcome State Fault Refusal := .next (pipeReplayEnd s p)

/-- TM_HANG (R312). -/
def execTmHang (p : Nat) (s : State) : Host.Outcome State Fault Refusal := .next (tmHang s p)

/-- PAIR_MISMATCH (R323). -/
def execPairMismatch (p b : Nat) (copy : Option Nat) (s : State) : Host.Outcome State Fault Refusal := .next (pairFail s p b copy)

/-- PLL_LOSS_OF_LOCK (R324). -/
def execPllLoss (p : Nat) (s : State) : Host.Outcome State Fault Refusal := .next (pllLoss s p)

/-- ISLAND_VOTE_DISAGREE (R324). -/
def execIslandDisagree (k : Nat) (s : State) : Host.Outcome State Fault Refusal := .next (islandDisagree s k)

/-- ISLAND_RESYNC_END (R324). -/
def execIslandResync (s : State) : Host.Outcome State Fault Refusal := .next (islandResync s)

/-- ISLAND_WATCHDOG (R324). -/
def execIslandWatchdog (s : State) : Host.Outcome State Fault Refusal := .next (islandWatchdog s)

/-- SITE_FAIL (R320). -/
def execSiteFail (site : Nat) (cube : Option Nat) (drops : Nat) (s : State) : Host.Outcome State Fault Refusal := .next (siteFail s site cube drops)

/-- REGION_RESTORE_END (R320). -/
def execRegionRestoreEnd (ctx : Nat) (s : State) : Host.Outcome State Fault Refusal := .next (regionRestoreEnd s ctx)

/-- ESCALATION_TIMEOUT (R315). -/
def execEscalationTimeout (level unit : Nat) (s : State) : Host.Outcome State Fault Refusal := .next (escalationTimeout s level unit)

/-- ENGINE_RESET: FLT_CMD with OP 1 (R319). -/
def execEngineReset (site engine : Nat) (s : State) : Host.Outcome State Fault Refusal :=
  .next (fltCommand s (2 ^ 28 + site % 32 * 2 ^ 23 + engine % 8 * 2 ^ 20))

/-- PART_RESET: FLT_CMD with OP 2 (R328). -/
def execPartReset (p : Nat) (s : State) : Host.Outcome State Fault Refusal := .next (fltCommand s (2 * 2 ^ 28 + p % 4 * 2 ^ 18))

/-- CHIP_RESET: FLT_CMD with OP 3 (R328). -/
def execChipReset (s : State) : Host.Outcome State Fault Refusal := .next (fltCommand s (3 * 2 ^ 28))

/-- CAPTURE: FLT_CMD with OP 4 (R329). -/
def execCapture (p : Nat) (chip : Bool) (s : State) : Host.Outcome State Fault Refusal :=
  .next (fltCommand s (4 * 2 ^ 28 + p % 4 * 2 ^ 18 + b2n chip * 2 ^ 17))

/-- CAPTURE_END (R329). -/
def execCaptureEnd (num sections : Nat) (s : State) : Host.Outcome State Fault Refusal := .next (captureEnd s num sections)

end Sys2Proof.Machine
end

