-- ==== Sys2Proof/Machine/Power.lean ====
section
/-! DEFINITION. The power and thermal controller: budget, windows and grants, throttle steps, droop, sensors, trip, loss of
power (R291 to R311, R178, R180, R348, R349). -/

namespace Sys2Proof.Machine

/-! ### The budget (R291 to R293) -/

/-- The grade's package power limit in W (Table SCP-1). -/
def gradeLimit (s : State) : Nat := if rgf s rGLB_CONFIG 31 30 = 0 then 760 else 660

/-- PWR_CAP.HOST as it acts (Table PWR-7), of a register value. -/
def hostCap (s : State) (v : Nat) : Nat := clampN 300 (gradeLimit s) (v % 1024)

/-- The cap that pins encode (Table PWR-1). -/
def pinCap (s : State) (pins : Nat) : Nat :=
  let w := match pins with | 0 => 300 | 1 => 350 | 2 => 400 | 3 => 450 | 4 => 500 | 5 => 560 | 6 => 620 | _ => gradeLimit s
  min w (gradeLimit s)

/-- The grade is known: B is at most its limit, which is the reset value of PWR_CAP too (R291, Table PWR-7). -/
def budgetGrade (s : State) : State :=
  let s := if rg s rPWR_CAP = (regReset rPWR_CAP).toNat then rgw s rPWR_CAP (gradeLimit s) else s
  { s with pwr := { s.pwr with budget := min s.pwr.budget (gradeLimit s) } }

/-- SOURCE of the budget in force: grade limit, host cap, pins, in that order among equals. -/
def budgetSource (s : State) : Nat :=
  if s.pwr.budget = gradeLimit s then 0 else if s.pwr.budget = hostCap s (pwrEff s rPWR_CAP) then 1 else 2

/-- Highest of a list of temperatures, -128 of none. -/
def hottest (l : List Int) : Int := l.foldl max (-128)

/-- Highest Tj or tier temperature of a partition, or of the device for 0xFF. -/
def partTemp (s : State) (p : Nat) : Int :=
  if p < 4 then max (pwrGet s p).tj (pwrGet s p).tier
  else hottest ((List.range 4).flatMap fun q => [(pwrGet s q).tj, (pwrGet s q).tier])

/-- STEP of a record: of the partition, or for 0xFF the highest. -/
def recStep (s : State) (p : Nat) : Nat :=
  if p < 4 then (pwrGet s p).step else ((List.range 4).map fun q => (pwrGet s q).step).foldl max 0

/-- A POWER record (Table PWR-3). -/
def pwrRecord (s : State) (event p trig : Nat) : State :=
  stage s 14 (rgf s rPWR_RQ 5 0) (if event ≥ 4 then 6 else 4) 0x0A
    (leBytes 1 event ++ leBytes 1 p ++ leBytes 1 (recStep s p) ++ leBytes 1 trig ++ leBytes 2 s.pwr.budget ++ leBytes 1 (budgetSource s) ++
     leBytes 1 (ofSigned 8 (partTemp s p)) ++ leBytes 8 s.gt ++ leBytes 8 0)

/-! ### Windows and grants (R294 to R297, R300) -/

/-- Registers that take effect at a boundary (R311). -/
def pwrLive : List Nat :=
  [rPWR_CAP, rPWR_GUARD, rPWR_WEIGHT, rPWR_FLOOR, rPWR_THERM, rPWR_DROOP, rPWR_ECOST0, rPWR_ECOST1, rPWR_ECOST2, rPWR_ECOST3, rPWR_ECOST4,
   rPWR_ECOST5, rPWR_ECOST6, rPWR_ECOST7]

/-- They take effect. -/
def pwrLatch (s : State) : State :=
  { s with pwr := { s.pwr with eff := pwrLive.foldl (fun t a => tset (regReset a) t a (tget (regReset a) s.regs a)) s.pwr.eff } }

/-- Weight of a partition: 0 acts as 1. -/
def pwrWeight (s : State) (p : Nat) : Nat := max 1 (bits (pwrEff s rPWR_WEIGHT) (8 * p + 7) (8 * p))

/-- A partition's pipe is in service. -/
def pipeIn (s : State) (p : Nat) : Bool := (pipeGet s p).out.isNone

/-- The tile budget t in 0.1 W. -/
def tileBudget (s : State) (pOther : Nat) : Int := 10 * (s.pwr.budget : Int) - pOther - 10 * ((pwrEff s rPWR_GUARD) % 128 : Nat)

/-- share(p) in nJ. -/
def pwrShare (s : State) (t : Int) (p : Nat) : Nat :=
  let w := ((List.range 4).map fun q => if pipeIn s q then pwrWeight s q else 0).sum
  if pipeIn s p then t.toNat * 1000 * pwrWeight s p / max 1 w else 0

/-- The oldest outstanding request of a context is older than LAT_BOUND / 2. -/
def waitsLong (s : State) (c : Nat) : Bool :=
  let x := ctxGet s c
  x.bufs.any fun e => match e.2.bind fun b => jGet s b.part b.slot with
    | some j => decide (2 * (s.gt - leAt j.hdr 0 8) > latBound x)
    | none => false

/-- Contexts that raise the energy demand input: token-blocked at the head, oldest request past half its bound (R300). -/
def pwrDemands (s : State) : List Nat :=
  (s.ctxs.map fun e => e.1).filter fun c => tokenBlocked s (c / 1024) c && waitsLong s c

/-- The contexts that raise the energy demand input now raise it for the window (R300). -/
def demandNow (s : State) : State :=
  match pwrDemands s with
  | [] => s
  | cs =>
    let s := cs.foldl (fun s c => demand s (tilePart s (c / 1024)) c) s
    { s with pwr := { s.pwr with demanded := true } }

/-- The energy demand of the window that ends. -/
def demandAll (s : State) : State :=
  let s := demandNow s
  if s.pwr.demanded then bump { s with pwr := { s.pwr with demanded := false } } rPWR_DEMAND else s

/-- B takes its new value at the boundary: whether it fell. -/
def budgetStep (s : State) : Bool × State :=
  let b := min (gradeLimit s) (min (hostCap s (pwrEff s rPWR_CAP)) (pinCap s s.pwr.pins))
  if b = s.pwr.budget then (false, s)
  else (decide (b < s.pwr.budget), pwrRecord { s with pwr := { s.pwr with budget := b } } 1 0xFF 0)

/-- The grant of partition `p`, capped at twice its share; when B fell the bucket is clamped to the share (R293, R295, R296). A
partition out of service has no share. -/
def grantPart (t : Int) (fell : Bool) (eMeas : List Nat) (s : State) (p : Nat) : State :=
  let v := pwrGet s p
  let share := pwrShare s t p
  let excess := eMeas.getD p 0 - v.spent
  let grant := if s.pwr.fail || !pipeIn s p then 0 else share - excess
  let b := min (v.bucket + grant) (2 * share : Nat)
  let b := if fell then min b share else b
  pwrPut s p { v with bucket := b, grant := grant, share := share, spent := 0 }

/-- A window in which B leaves nothing for the tiles (R297). -/
def capUnmet (s : State) (t : Int) : State :=
  if t > 0 then s else
  let s := bump s rPWR_CAP_UNMET
  let due := match s.pwr.unmetAt with | some x => decide (s.gt ≥ x + 1000000) | none => true
  if due then pwrRecord { s with pwr := { s.pwr with unmetAt := some s.gt } } 4 0xFF 0 else s

/-! ### Throttle steps (R301 to R303) -/

/-- TJ_SOFT and TIER_SOFT as they act. -/
def tjSoft (s : State) : Int := (clampN 85 104 (bits (pwrEff s rPWR_THERM) 7 0) : Nat)
/-- TIER_SOFT. -/
def tierSoft (s : State) : Int := (clampN 90 104 (bits (pwrEff s rPWR_THERM) 15 8) : Nat)

/-- Triggers of a partition (R302). -/
def triggers (s : State) (p : Nat) : Nat :=
  let v := pwrGet s p
  b2n (decide (v.tj > tjSoft s)) + 2 * b2n (decide (v.tier > tierSoft s)) + 4 * b2n (decide (s.pwr.history.sum > 1000 * s.pwr.budget)) +
  8 * b2n (decide (v.stretches > pwrEff s rPWR_DROOP % 65536))

/-- The step moves by R302. -/
def stepPart (s : State) (p : Nat) : State :=
  let v := pwrGet s p
  let g := triggers s p
  let calm := g == 0 && decide (v.tj ≤ tjSoft s - 2 ∧ v.tier ≤ tierSoft s - 2)
  let v := { v with trig := g, stretches := 0, calmAt := if calm then v.calmAt else s.gt }
  let due := match v.upAt with | some x => decide (s.gt ≥ x + 100000) | none => true
  if g != 0 && decide (v.step < 7) && due then
    pwrRecord (bump (pwrPut s p { v with step := v.step + 1, upAt := some s.gt, gliding := true }) rPWR_STEP_UP) 2 p g
  else if calm && decide (v.step > 0 ∧ s.gt ≥ v.calmAt + 1000000) && !s.pwr.fail then
    pwrRecord (pwrPut s p { v with step := v.step - 1, calmAt := s.gt, gliding := true }) 3 p g
  else pwrPut s p v

/-- WINDOW_BOUNDARY: `pOther` in 0.1 W, `eMeas` the energy of VDD_P0 to VDD_P3 in nJ, over the window that ends. -/
def windowBoundary (s : State) (pOther : Nat) (eMeas : List Nat) : State :=
  let s := pwrLatch (demandAll s)
  let pack := pOther + ((List.range 4).map fun p => eMeas.getD p 0).sum / 1000
  let e := s.pwr.packE + pack * 1000
  let s := cinc { s with pwr := { s.pwr with history := (pack :: s.pwr.history).take 100, packE := e % 1000000 } } (cDev 1) (e / 1000000)
  let s := rgw (rgw s rPWR_POWER (min pack 65535)) rPWR_OTHER (min pOther 65535)
  let (fell, s) := budgetStep s
  let t := tileBudget s pOther
  let s := [0, 1, 2, 3].foldl (grantPart t fell eMeas) (capUnmet s t)
  [0, 1, 2, 3].foldl stepPart s

/-- STEP_GLIDE_END. -/
def stepGlideEnd (s : State) (p : Nat) : State := if p < 4 then pwrPut s p { pwrGet s p with gliding := false } else s

/-- The voltage identifier that the fuses give a partition's throttle step: codes 20 to 100 (R301, Table LP-3). -/
def vidCode (s : State) (p : Nat) : Nat := 20 + Config.stepFuse (pwrGet s p).step (rgf s rGLB_CONFIG 31 30) % 81

/-- The voltage of VDD_Pp in mV: 0.600 V and 2.5 mV for each code, 650 to 850 mV (R435). -/
def stepVolts (s : State) (p : Nat) : Nat := (6000 + 25 * vidCode s p) / 10

/-- Current TCLK target in MHz (Table PWR-2). -/
def tclk (s : State) (p : Nat) : Nat := (if rgf s rGLB_CONFIG 31 30 = 0 then 3600 else 3200) * (16 - (pwrGet s p).step) / 16

/-! ### Droop (R304) -/

/-- DROOP: a stretch event begins. -/
def droop (s : State) (p : Nat) : State :=
  let v := pwrGet s p
  if p ≥ 4 ∨ v.stretching then s
  else bump (pwrPut s p { v with stretching := true, stretchAt := s.time.up, stretches := v.stretches + 1, stretchAll := v.stretchAll + 1 }) rPWR_STRETCH

/-- The stretch has lasted the 16 cycles, each of twice its period, that it lasts at least (R304). -/
def stretchLong (s : State) (p : Nat) : Bool := decide ((s.time.up - (pwrGet s p).stretchAt) * tclk s p ≥ 32000)

/-- STRETCH_END: the voltage has recovered; not before the stretch's least length. -/
def stretchEnd (s : State) (p : Nat) : State :=
  if p < 4 ∧ stretchLong s p then pwrPut s p { pwrGet s p with stretching := false } else s

/-! ### Sensors (R305 to R307) -/

/-- Sensor `i`: 0 to 79 on the die, 80 + 2g and 81 + 2g of group g. -/
def sensorGet (s : State) (i : Nat) : Int × Bool := (tget none s.pwr.sensors i).getD (0, false)

/-- Sensors of one site or group are sampled: an out-of-range reading, or one more than 15 °C from all the others, marks its sensor
failed for good, with a FAULT record; failed ones are ignored. -/
def sensorsTake (s : State) (first n cls unit part : Nat) (vs : List Int) : State :=
  let ok := fun (i : Nat) => !(sensorGet s (first + i)).2
  let r := fun (i : Nat) => vs.getD i 0
  let bad := fun (i : Nat) =>
    let others := (List.range n).filter fun j => j != i && ok j
    decide (r i < -40 ∨ r i > 150) || (!others.isEmpty && others.all fun j => decide (r i - r j > 15 ∨ r j - r i > 15))
  (List.range n).foldl (fun t i =>
    let fresh := ok i && bad i
    let t := { t with pwr := { t.pwr with sensors := tset none t.pwr.sensors (first + i) (some (r i, !ok i || bad i)) } }
    if fresh then faultInstant t cls unit part 0 12 0 (r5holds t) false else t) s

/-- What a site or group reads: its hottest sensor that has not failed, else 105. -/
def sensorsRead (s : State) (first n : Nat) : Int :=
  let l := (List.range n).filterMap fun i => let v := sensorGet s (first + i); if v.2 then none else some v.1
  if l.isEmpty then 105 else hottest l

/-- BT_THERM.HOT as it acts. -/
def thHot (s : State) : Nat := clampN 85 100 (rgf s rBT_THERM 23 16)
/-- BT_THERM.CRIT as it acts. -/
def thCrit (s : State) : Nat := clampN (thHot s + 2) 104 (rgf s rBT_THERM 15 8)

/-- A state above a limit, with 2 °C of hysteresis. -/
def hyst (now : Bool) (t limit : Int) : Bool := if now then decide (t ≥ limit - 2) else decide (t > limit)

/-- A group takes its temperature: refresh mode, hot and critical states with a record at each entry (R178, R180). -/
def groupHeat (s : State) (g : Nat) (t : Int) : State :=
  let v := groupGet s g
  let hot := hyst v.hot t (thHot s)
  let crit := hyst v.crit t (thCrit s)
  let r2x := if v.r2x then decide (t ≥ 83) else decide (t > 85)
  let s := groupPut s g { v with temp := t, hot := hot, crit := crit, r2x := r2x }
  let rec_ := fun (s : State) (event : Nat) => stage s 8 (rgf s rBT_CFG 5 0) 4 4
    (leBytes 1 event ++ leBytes 1 g ++ leBytes 1 0 ++ leBytes 1 (ofSigned 8 t) ++ leBytes 4 0 ++ leBytes 8 s.gt ++ leBytes 8 0)
  let s := if hot && !v.hot then rec_ s 6 else s
  if crit && !v.crit then rec_ s 7 else s

/-- Histogram bin of a temperature (Table FLS-6). -/
def tempBin (t : Int) : Nat := if t < 40 then 0 else min 15 ((t - 35).toNat / 5)

/-- The minute being watched: when a new one begins, the old one's maxima count in LIFE. -/
def minuteStep (s : State) (tj tier : Int) : State :=
  let m := s.gt / 60000000000
  match s.pwr.minute with
  | none => { s with pwr := { s.pwr with minute := some (m, tj, tier) } }
  | some (k, a, b) =>
    if k = m then { s with pwr := { s.pwr with minute := some (m, max a tj, max b tier) } }
    else
      let s := lifeInc (lifeInc s (24 + 4 * tempBin a)) (88 + 4 * tempBin b)
      { s with pwr := { s.pwr with minute := some (m, tj, tier) } }

/-- The device trips (R307): THERMTRIP_N for good, clocks stopped, frames lost. -/
def thermTrip (s : State) (part sensor : Nat) (t : Int) : State :=
  if s.pwr.tripped then s else
  let s := pwrRecord s 6 part 0
  let s := smpEvent { s with pwr := { s.pwr with tripped := true } } 0x20 (padTo 8 (leBytes 1 part ++ leBytes 1 sensor ++ leBytes 1 (ofSigned 8 t)))
  [0, 1, 2, 3].foldl framesLost s

/-- Consecutive samples at or above a trip threshold. -/
def tripCount (s : State) (key : Nat) (above : Bool) (part sensor : Nat) (t : Int) : State :=
  let n := if above then tget 0 s.pwr.trips key + 1 else 0
  let s := { s with pwr := { s.pwr with trips := tset 0 s.pwr.trips key n } }
  if n ≥ 2 then thermTrip s part sensor t else s

/-- The sensor of a range that reads highest among those in use. -/
def hotSensor (s : State) (first n : Nat) : Nat :=
  let t := sensorsRead s first n
  match (List.range n).find? fun i => let v := sensorGet s (first + i); !v.2 && v.1 == t with | some i => first + i | none => first

/-- SENSOR_SAMPLE: 80 readings of the die, 128 of the tier. -/
def sensorSample (s : State) (die tier : List Int) : State :=
  let s := (List.range 20).foldl (fun s t => sensorsTake s (4 * t) 4 17 (unitCode 0 t) (t / 5) (die.drop (4 * t))) s
  let s := (List.range 64).foldl (fun s g => sensorsTake s (80 + 2 * g) 2 17 (unitCode 4 g) (g / 16) (tier.drop (2 * g))) s
  let s := (List.range 64).foldl (fun s g => groupHeat s g (sensorsRead s (80 + 2 * g) 2)) s
  let s := (List.range 4).foldl (fun s p =>
    let tj := hottest ((List.range 5).map fun i => sensorsRead s (20 * p + 4 * i) 4)
    let tr := hottest ((List.range 16).map fun i => (groupGet s (16 * p + i)).temp)
    pwrPut s p { pwrGet s p with tj := tj, tier := tr }) s
  let s := minuteStep s (hottest ((List.range 4).map fun p => (pwrGet s p).tj)) (hottest ((List.range 4).map fun p => (pwrGet s p).tier))
  let s := (List.range 4).foldl (fun s p =>
    let t := (pwrGet s p).tj
    tripCount s p (decide (t ≥ 112)) p (hotSensor s (20 * p) 20) t) s
  (List.range 64).foldl (fun s g =>
    let t := (groupGet s g).temp
    tripCount s (16 + g) (decide (t ≥ 110)) 0xFF (hotSensor s (80 + 2 * g) 2) t) s

/-! ### Loss of power (R308, R348, R356) -/

/-- Unflushed bytes of the live ring. -/
def smpUnflushed (s : State) : Nat := ((smpDirty s).map smpLen).sum

/-- PWR_FAIL_ASSERT. -/
def pwrFailAssert (s : State) : State :=
  if s.pwr.fail then s else
  let s := s.flt.caps.foldl (fun s c => captureEnd s c.num 1) s
  let s := { s with pwr := { s.pwr with fail := true } }
  let s := [0, 1, 2, 3].foldl (fun s p =>
    let v := pwrGet s p
    if v.step < 7 then pwrRecord (bump (pwrPut s p { v with step := 7, upAt := some s.gt, gliding := true }) rPWR_STEP_UP) 2 p v.trig else s) s
  let s := pwrRecord s 5 0xFF 0
  let s := smpAccept s 0x16 (leBytes 8 (smpUnflushed s))
  let s := if flsMounted s then smpFlush s else s
  lifeCommit s

/-- PWR_FAIL_DEASSERT: grants resume at the next boundary. -/
def pwrFailDeassert (s : State) : State := { s with pwr := { s.pwr with fail := false } }

/-! ### Registers (R311) -/

/-- Computed PWR registers, by offset. -/
def pwrRegRead (s : State) (o : Nat) : Option Nat :=
  let p := rgf s rPWR_PART_SEL 1 0
  let v := pwrGet s p
  match o with
  | 0x004 => some (s.pwr.pins % 8 * 2 ^ 29 + b2n s.pwr.fail * 2 ^ 28 + budgetSource s * 2 ^ 26 + s.pwr.budget % 1024)
  | 0x084 => some (v.step % 8 * 2 ^ 29 + v.trig % 16 * 2 ^ 25 + b2n v.gliding * 2 ^ 24 + tclk s p)
  | 0x088 => some (ofSigned 32 v.bucket)
  | 0x08C => some (v.grant % 2 ^ 32)
  | 0x090 => some (ofSigned 8 v.tier * 256 + ofSigned 8 v.tj)
  | 0x0A4 =>
    let i := rgf s rPWR_SENSOR_SEL 6 0
    if i < 80 then some (b2n (sensorGet s i).2 * 256 + ofSigned 8 (sensorGet s i).1) else some 0
  | _ => none

/-! ### The commands -/

/-- WINDOW_BOUNDARY (R295). -/
def execWindowBoundary (pOther : Nat) (eMeas : List Nat) (s : State) : Host.Outcome State Fault Refusal := .next (windowBoundary s pOther eMeas)

/-- STEP_GLIDE_END (R303). -/
def execStepGlideEnd (p : Nat) (s : State) : Host.Outcome State Fault Refusal := .next (stepGlideEnd s p)

/-- PWR_LIMIT_CHANGE: two samples of the pins agree (R292). -/
def execPwrLimitChange (pins : Nat) (s : State) : Host.Outcome State Fault Refusal := .next { s with pwr := { s.pwr with pins := pins % 8 } }

/-- PWR_CAP_WRITE (R293). -/
def execPwrCapWrite (v : Nat) (s : State) : Host.Outcome State Fault Refusal := .next (rgw s rPWR_CAP (v % 1024))

/-- DROOP (R304). -/
def execDroop (p : Nat) (s : State) : Host.Outcome State Fault Refusal := .next (droop s p)

/-- STRETCH_END (R304). -/
def execStretchEnd (p : Nat) (s : State) : Host.Outcome State Fault Refusal := .next (stretchEnd s p)

/-- SENSOR_SAMPLE (R305). -/
def execSensorSample (die tier : List Int) (s : State) : Host.Outcome State Fault Refusal := .next (sensorSample s die tier)

/-- PWR_FAIL_ASSERT (R308). -/
def execPwrFailAssert (s : State) : Host.Outcome State Fault Refusal := .next (pwrFailAssert s)

/-- PWR_FAIL_DEASSERT (R308). -/
def execPwrFailDeassert (s : State) : Host.Outcome State Fault Refusal := .next (pwrFailDeassert s)

end Sys2Proof.Machine
end

