-- ==== Sys2Proof/Machine/Thresher.lean ====
section
/-! DEFINITION. The Thresher: EVAL, STREAM, passes and the THR registers (R154 to R174). -/

namespace Sys2Proof.Machine

/-! ### Ensembles (R154 to R160) -/

/-- A command's parameter record and ensemble header (Tables THR-1 and THR-4): `hdr` the header's operand address in
space `sp`, `cin` the SRAM address of the first CIN row. -/
structure Thr where
  sp : Nat
  hdr : Nat
  d : Nat
  round : Bool
  c : Nat
  tfirst : Nat
  tcount : Nat
  nf : Nat
  ns : Nat
  foff : Nat
  ss : Nat
  os : Nat
  cin : Nat
  samples : Nat
  rows : Nat
deriving Repr, Inhabited

/-- Values of a leaf (R155). -/
def thrV (round : Bool) (c : Nat) : Nat := if round then 1 else c
/-- Bytes of a node array. -/
def thrNodeBytes (d : Nat) : Nat := cdiv ((2 ^ d - 1) * 4) 64 * 64
/-- Bytes of a tree. -/
def thrStride (d : Nat) (round : Bool) (c : Nat) : Nat := thrNodeBytes d + cdiv (2 ^ d * thrV round c * 4) 64 * 64
/-- Offset of tree `t` from the header. -/
def thrTreeOff (d : Nat) (round : Bool) (c t : Nat) : Nat := 64 + cdiv (4 * c) 64 * 64 + t * thrStride d round c

/-- The comparison bit of a node for a feature word (R158). -/
def thrBit (node feat : Nat) : Bool :=
  if bit node 20 then bit node 19
  else if bit node 21 then FNum.lt (decBf16 (node % 65536)) (decBf16 feat)
  else decide (toSigned 16 (node % 65536) < toSigned 16 feat)

/-- A node that reads a NaN feature (R160). -/
def thrNan (node feat : Nat) : Bool := !bit node 20 && bit node 21 && (decBf16 feat).isNan

/-- The path of a tree from node `i` at leaf prefix `k`: leaf index, a NaN feature on the path (R159, R160). -/
def thrPath (nodes : Nat → Nat) (feat : Nat → Nat) : Nat → Nat → Nat → Bool → Nat × Bool
  | 0, _, k, n => (k, n)
  | l + 1, i, k, n =>
    let w := nodes i
    let f := feat (bits w 31 22)
    let b := b2n (thrBit w f)
    thrPath nodes feat l (2 * i + 1 + b) (2 * k + b) (n || thrNan w f)

/-- What evaluating trees does to a sample: outputs, STATUS bits NAN and FEAT_RANGE (R157 to R162). -/
structure ThrAcc where
  out : List Nat
  nan : Bool
  range : Bool
deriving Repr, Inhabited

/-- Bytes of the nodes of a tree, without padding. -/
def thrNodes (d : Nat) : Nat := (2 ^ d - 1) * 4

/-- The leaf that a sample reaches in a tree with these node bytes, a NaN feature on the path, a node that reads no feature of the
sample (R157 to R160). -/
def thrLeaf (d nf : Nat) (nodes sample : Bytes) : Nat × Bool × Bool :=
  let node := fun i => leAt nodes (4 * i) 4
  let feat := fun f => if f ≥ nf then 0 else leAt sample (2 * f) 2
  let (k, n) := thrPath node feat d 0 0 false
  (k, n, (List.range (2 ^ d - 1)).any fun i => !bit (node i) 20 && decide (bits (node i) 31 22 ≥ nf))

/-- Add a leaf of tree `t`, its absolute index, to a sample (R162). -/
def thrAdd (round : Bool) (c t : Nat) (leaf : Bytes) (nan range : Bool) (a : ThrAcc) : ThrAcc :=
  let v := fun o => leAt leaf (4 * o) 4
  let out := if round then lset a.out (t % c) (f32add (a.out.getD (t % c) 0) (v 0))
    else (List.range c).map fun o => f32add (a.out.getD o 0) (v o)
  { out := out, nan := a.nan || nan, range := a.range || range }

/-- Add one tree to a sample from the tree's bytes. -/
def thrTree (d : Nat) (round : Bool) (c nf t : Nat) (tree sample : Bytes) (a : ThrAcc) : ThrAcc :=
  let (k, n, r) := thrLeaf d nf (slice tree 0 (thrNodes d)) sample
  thrAdd round c t (slice tree (thrNodeBytes d + 4 * k * thrV round c) (4 * thrV round c)) n r a

/-! ### Checks (R163, R165) -/

/-- The parameter record and header of a command, read and checked for iteration `j`. -/
def thrSetup (s : State) (l : Nat) (x : Job) (j : Nat) : Except CtxFlt Thr := do
  let v := x.img
  let w := x.w
  let stream := cwOp w == 1
  let at_ := fun i => (opdOf v x.b j (cwOpd w i)).a
  let rec_ ← rdChk s l v 0 (opdOf v x.b j (noRel (cwOpd w 3))).a 32
  let r := words8 rec_
  let p := fun i => r.getD i 0
  let sp := if stream then 2 else 0
  let h ← rdChk s l v sp (at_ 1) 64
  let f := cwFlags w
  let trees := leAt h 0 4 % 2 ^ 17
  let d := byteAt h 4 % 16
  let c' := byteAt h 5 % 128
  let round := bit (byteAt h 5) 7
  let maxf := leAt h 8 2 % 1024
  let tcount := p 0 % 2 ^ 17
  let tfirst := p 1 / 65536
  let nf := p 1 % 2048
  let ns := bits (p 2) 24 16
  let foff := p 2 % 4096
  let ss := p 3
  let os := p 4
  let resHdr := leAt h 0 4 / 2 ^ 17 != 0 || byteAt h 4 / 16 != 0 || leAt h 6 2 != 0 || leAt h 8 2 / 1024 != 0 ||
    (slice h 10 54).any fun b => b != 0
  let resRec := p 0 / 2 ^ 17 != 0 || bits (p 1) 15 11 != 0 || p 2 / 2 ^ 25 != 0 || bits (p 2) 15 12 != 0 || p 6 != 0 || p 7 != 0
  let resFlg := f % 512 != 0 || (!stream && bits f 16 9 != 0)
  let dims := decide (trees = 0 ∨ trees > 65536 ∨ d = 0 ∨ d > 8 ∨ c' = 0 ∨ c' > 64 ∨ tcount = 0 ∨ tcount > 65536 ∨ nf = 0 ∨
    nf > 1024 ∨ ns = 0 ∨ ns > 256 ∨ tfirst + tcount > trees ∨ nf ≤ maxf ∨ foff % 2 = 1 ∨ ss % 2 = 1 ∨ os % 64 ≠ 0 ∨ os < 4 * c' + 4)
  if resHdr || resRec || resFlg || dims then .error (fltAt 4 0)
  else
    let acc := bit f 18
    let cin := opdOf v x.b j (p 5)
    let far := thrTreeOff d round c' (tfirst + tcount)
    let near := thrTreeOff d round c' tfirst
    let bad := fun (sp a n : Nat) => if inWin v sp a n then none else some (fltAt 3 (physA s l v sp a))
    let out := (bad sp (at_ 1) (thrTreeOff d round c' 0)).orElse fun _ =>
      (bad sp (at_ 1 + near) (far - near)).orElse fun _ =>
      (List.range ns).findSome? fun i =>
        (bad 0 (at_ 0 + i * ss) (foff + 2 * nf)).orElse fun _ => (bad 0 (at_ 2 + i * os) (4 * c' + 4)).orElse fun _ =>
        if acc then (if cin.sp ≠ 0 then some (rangeFault s l v cin) else bad 0 (cin.a + i * os) (4 * c')) else none
    match out with
    | some e => .error e
    | none => .ok { sp := sp, hdr := at_ 1, d := d, round := round, c := c', tfirst := tfirst, tcount := tcount, nf := nf, ns := ns,
                    foff := foff, ss := ss, os := os, cin := if acc then cin.a + 1 else 0, samples := at_ 0, rows := at_ 2 }

/-- FP32 words of bytes. -/
def f32s (n : Nat) (b : Bytes) : List Nat := (List.range n).map fun i => leAt b (4 * i) 4

/-- The outputs with which sample `i` starts: its CIN row, or the base block (R162). -/
def thrStart (s : State) (l : Nat) (v : SlotImg) (x : Thr) (i : Nat) : Except CtxFlt (List Nat) := do
  let b ← if x.cin ≠ 0 then rdChk s l v 0 (x.cin - 1 + i * x.os) (4 * x.c) else rdChk s l v x.sp (x.hdr + 64) (4 * x.c)
  return f32s x.c b

/-- Feature bytes of sample address `a` (R157). -/
def thrSample (s : State) (l : Nat) (v : SlotImg) (a foff nf : Nat) : Except CtxFlt Bytes := rdChk s l v 0 (a + foff) (2 * nf)

/-- Trees `t` to `t + n - 1` of an ensemble added to a sample, in ascending index (R162): of each tree its nodes and one leaf are
read (R155, R166). -/
def thrTrees (s : State) (l : Nat) (v : SlotImg) (x : Thr) (sample : Bytes) : Nat → Nat → ThrAcc → Except CtxFlt ThrAcc
  | 0, _, a => .ok a
  | n + 1, t, a =>
    let at_ := x.hdr + thrTreeOff x.d x.round x.c t
    match rdChk s l v x.sp at_ (thrNodes x.d) with
    | .error e => .error e
    | .ok b =>
      let (k, nan, range) := thrLeaf x.d x.nf b sample
      match rdChk s l v x.sp (at_ + thrNodeBytes x.d + 4 * k * thrV x.round x.c) (4 * thrV x.round x.c) with
      | .error e => .error e
      | .ok leaf => thrTrees s l v x sample n (t + 1) (thrAdd x.round x.c t leaf nan range a)

/-- A sample's output row (R164). -/
def thrRow (a : ThrAcc) : Bytes := (a.out.flatMap (leBytes 4)) ++ leBytes 4 (b2n a.nan + 2 * b2n a.range)

/-! ### Mismatch (R171, R173) -/

/-- A lane fails: THR_STATUS marks it, and the controller is told (R173). -/
def thrLaneFail (s : State) (l lane : Nat) : State :=
  let site := tileSite s l
  siteTell (rgwb s (rTHR_STATUS site) (20 + lane % 8) true) site none (2 ^ (lane % 8))

/-- A mismatch in a lane: counted; the third within 10 ms fails the lane. -/
def thrMismatch (s : State) (l lane : Nat) : State :=
  let site := tileSite s l
  let s := bump (tileCheck s l 2) (rTHR_CHECK_ERR site)
  let (n, s) := mismatchNote s (unitCode 1 (site * 8 + 2) * 8 + lane % 8)
  if n ≥ 3 then thrLaneFail s l lane else s

/-- The repetition after a mismatch; a second mismatch in it fails the lane and answers true. -/
def thrRepeat (s : State) (l lane : Nat) (recurs : Bool) : State × Bool :=
  let s := bump s (rTHR_RETRY (tileSite s l))
  if recurs then (thrLaneFail (thrMismatch s l lane) l lane, true) else (s, false)

/-- Counters of an evaluated sample. -/
def thrCount (s : State) (l : Nat) (a : ThrAcc) : State :=
  let site := tileSite s l
  let s := if a.nan then bump s (rTHR_NAN site) else s
  if a.range then bump s (rTHR_FEAT_RANGE site) else s

/-- Set the NaN latch of a request buffer (R161). -/
def nanLatch (s : State) (c i : Nat) : State :=
  let x := ctxGet s c
  match tget none x.bufs i with
  | some b => ctxPut s c { x with bufs := tset none x.bufs i (some { b with nan := true }) }
  | none => s

/-- The request buffer that sample `i` of iteration `j` is linked to, when it lies within the batch (R161). -/
def thrLink (x : Job) (j i : Nat) : Option Nat :=
  if bit (cwFlags x.w) 17 && decide (j + i < x.n) then some (x.b + j + i) else none

/-- The setups of all iterations, checked before any output is written (R165). -/
def thrChecks (s : State) (l : Nat) (x : Job) : Except CtxFlt (List Thr) := (List.range x.iters).mapM (thrSetup s l x)

/-! ### EVAL (R166) -/

/-- One sample of an EVAL on the Thresher of member `lm`. An uncorrectable error in a sample that a mismatch strikes too is not
repeated (Table THR-6). -/
def evalSample (l lm c : Nat) (x : Job) (y : Thr) (j : Nat) (s : State) (i : Nat) : State × Option CtxFlt :=
  let v := x.img
  let r : Except CtxFlt ThrAcc := do
    let o ← thrStart s l v y i
    let f ← thrSample s l v (y.samples + i * y.ss) y.foff y.nf
    thrTrees s l v y f y.tcount y.tfirst { out := o, nan := false, range := false }
  let hit := mismatchAt x.hits (j * y.ns + i)
  let s := match hit with | some (lane, _, _) => thrMismatch s lm lane | none => s
  match r with
  | .error e => (s, some e)
  | .ok a =>
    let (s, stop) := match hit with | some (lane, _, recurs) => thrRepeat s lm lane recurs | none => (s, false)
    if stop then (s, some (fltAt 8 0))
    else
      let (s, e) := wrChk s l v 0 (y.rows + i * y.os) (thrRow a)
      if e.isSome then (s, e)
      else
        let s := bumpDiv (thrCount s lm a) (rTHR_EVALS (tileSite s lm)) y.tcount 1024
        let s := if a.nan then (match thrLink x j i with | some b => nanLatch s c b | none => s) else s
        (s, none)

/-- EVAL: samples in order, for each iteration. -/
def runEval (c m : Nat) : EngineRun := fun s l _ x =>
  match thrChecks s l x with
  | .error e => (s, some e)
  | .ok ys => iterate x.iters (fun s j => let y := ys.getD j default; iterate y.ns (evalSample l (l + m) c x y j) s) s

/-! ### STREAM and passes (R167 to R170) -/

/-- Iteration `j` of a STREAM as a pass with one member. -/
def streamPart (s : State) (l : Nat) (e : SbEnt) (slot : Nat) (x : Job) (j : Nat) : Except CtxFlt Pass := do
  let v := x.img
  let y ← thrSetup s l x j
  let acc ← (List.range y.ns).mapM fun i => thrStart s l v y i
  let is := List.range y.ns
  let m : PMember := { slot := slot, ctx := e.ctx, ply := e.ply, samples := is.map fun i => y.samples + i * y.ss,
                       rows := is.map fun i => y.rows + i * y.os, links := is.map (thrLink x j), nf := y.nf, foff := y.foff,
                       joined := s.gt, window := 10 * bits (cwFlags x.w) 16 9, acc := acc, stat := is.map fun _ => 0 }
  return { addr := physA s l v 2 y.hdr, tfirst := y.tfirst, tcount := y.tcount, depth := y.d, round := y.round, outputs := y.c,
           members := [m], done := 0, part := 0, closed := false }

/-- Samples of a pass. -/
def passSamples (p : Pass) : Nat := (p.members.map fun m => m.samples.length).sum

/-- Commands of a pass. -/
def passCmds (p : Pass) : List Nat := (p.members.map fun m => m.slot).eraseDups

/-- A part of a STREAM joins or opens the forming pass, or closes it and waits (R168). Answers the forming pass after it and whether it
joined. -/
def passJoin (form : Option Pass) (p : Pass) : Option Pass × Bool :=
  match form with
  | none => (some p, true)
  | some f =>
    if !f.closed && f.addr == p.addr && f.tfirst == p.tfirst && f.tcount == p.tcount &&
       decide ((passCmds f ++ passCmds p).eraseDups.length ≤ 16) && decide (passSamples f + passSamples p ≤ 256) then
      (some { f with members := f.members ++ p.members }, true)
    else (some { f with closed := true }, false)

/-- The iterations of a STREAM from `j` on join in order until one must wait: the forming pass, and the iteration that waits. -/
def passFill (s : State) (l : Nat) (e : SbEnt) (slot : Nat) (x : Job) : Nat → Nat → Option Pass → Except CtxFlt (Option Pass × Nat)
  | 0, j, form => .ok (form, j)
  | n + 1, j, form =>
    if j ≥ x.iters then .ok (form, j)
    else match streamPart s l e slot x j with
      | .error f => .error f
      | .ok p => match passJoin form p with
        | (form, true) => passFill s l e slot x n (j + 1) form
        | (form, false) => .ok (form, j)

/-- The STREAM at the head of member `lm`'s queue joins the forming pass as far as it can; it leaves the queue with its last iteration.
Its checks come before its first iteration joins. -/
def runStream (s : State) (l lm slot : Nat) (e : SbEnt) (x : Job) : State × Option CtxFlt :=
  match (if x.next = 0 then thrChecks s l x else .ok []) with
  | .error f => (s, some f)
  | .ok ys =>
    let s := match ys.head? with | some y => spCount s l x.img y.sp y.hdr (thrTreeOff y.d y.round y.c 0) | none => s
    match passFill s l e slot x x.iters x.next (tileGet s lm).form with
    | .error f => (s, some f)
    | .ok (form, j) =>
      let s := tilePut s lm { tileGet s lm with form := form }
      (sbPut s l slot (some { e with inPass := e.inPass || decide (x.next < j),
                                     todo := if j ≥ x.iters then none else some { x with next := j } }), none)

/-- The forming pass may start: 256 samples, closed, or its oldest member's window elapsed (R168). -/
def passReady (p : Pass) (gt : Nat) : Bool :=
  decide (passSamples p ≥ 256) || p.closed || (match p.members.head? with | some m => decide (gt ≥ m.joined + m.window) | none => false)

/-- The tile whose scoreboard a Thresher's commands are in. -/
def thrLead (s : State) (l : Nat) : Nat := if braidOdd s l then l - 1 else l

/-- PASS_START: the forming pass runs. A full pass that starts while a STREAM waits at the queue's head is a demand of the contexts it
holds and of the one that waits (Table VD-6). -/
def passStart (s : State) (l : Nat) : State :=
  let t := tileGet s l
  match t.run, t.form with
  | none, some p =>
    if passReady p s.gt then
      let s := tilePut s l { t with run := some p, form := none }
      let k := thrLead s l
      match thrQueue s k (l - k) with
      | (_, e) :: _ =>
        if e.op = 1 ∧ passSamples p ≥ 256 then
          (p.members.map (fun m => m.ctx) ++ [e.ctx]).eraseDups.foldl (fun s c => demand s (tilePart s l) c) s
        else s
      | [] => s
    else s
  | _, _ => s

/-- Bytes of a tree that are read, as ranges of it: nodes and leaves without padding (R155). -/
def treeParts (p : Pass) : List (Nat × Nat) :=
  [(0, thrNodes p.depth), (thrNodeBytes p.depth, 2 ^ p.depth * thrV p.round p.outputs * 4)]

/-- Trees of the next chunk of up to 64 KiB, and how far it reaches into the tree after them: a tree of more than 64 KiB comes in
pieces. -/
def passTrees (p : Pass) : Nat × Nat :=
  let n := thrStride p.depth p.round p.outputs
  if n ≤ 65536 then (min (65536 / n) (p.tcount - p.done), 0)
  else if p.part + 65536 < n then (0, p.part + 65536) else (1, 0)

/-- The uncorrectable codeword that the next chunk meets. -/
def passBad (s : State) (p : Pass) (n part : Nat) : Option Nat :=
  let at_ := fun t => p.addr + thrTreeOff p.depth p.round p.outputs t
  if s.bad.isEmpty then none
  else (List.range (n + min 1 part)).findSome? fun i =>
    let lo := if i = 0 then p.part else 0
    let hi := if i = n then part else thrStride p.depth p.round p.outputs
    (treeParts p).findSome? fun r =>
      let a := max lo r.1
      let z := min hi (r.1 + r.2)
      if a < z then memBad s (at_ (p.tfirst + p.done + i) + a) (z - a) else none

/-- A command whose member faults has stopped; its members leave the pass (R172). -/
def passDrop (s : State) (l c slot : Nat) (e : CtxFlt) : State :=
  let t := tileGet s l
  let less := fun (o : Option Pass) => match o with
    | some p =>
      let ms := p.members.filter fun m => m.slot != slot
      if ms.isEmpty then none else some { p with members := ms }
    | none => none
  let k := thrLead s l
  engFault (cmdStopped (tilePut s l { t with run := less t.run, form := less t.form }) k c slot) k c 2 2 e

/-- A chunk's trees against one member. -/
def chunkMember (s : State) (l : Nat) (p : Pass) (trees : List (Nat × Bytes)) (m : PMember) : Except CtxFlt PMember := do
  let v := (ctxGet s m.ctx).img
  let rs ← (List.range m.samples.length).mapM fun i => do
    let f ← thrSample s l v (m.samples.getD i 0) m.foff m.nf
    let st := m.stat.getD i 0
    return trees.foldl (fun a t => thrTree p.depth p.round p.outputs m.nf t.1 t.2 f a)
      { out := m.acc.getD i [], nan := bit st 0, range := bit st 1 }
  return { m with acc := rs.map fun a => a.out, stat := rs.map fun a => b2n a.nan + 2 * b2n a.range }

/-- A command that has no member left in a pass and none to come has completed its work. -/
def passLeft (s : State) (l slot : Nat) : State :=
  let t := tileGet s l
  let k := thrLead s l
  let holds := fun (o : Option Pass) => match o with | some p => (passCmds p).contains slot | none => false
  match tget none (tileGet s k).sb slot with
  | some x => if x.todo.isSome || holds t.form || holds t.run then s else sbPut s k slot (some { x with inPass := false })
  | none => s

/-- A member's rows after the last chunk: written, counted, its request latches set (R169). -/
def passWrite (s : State) (l : Nat) (p : Pass) (m : PMember) : State :=
  if (tget none (tileGet s (thrLead s l)).sb m.slot).isNone then s else
  let v := (ctxGet s m.ctx).img
  let accs := (List.range m.samples.length).map fun i =>
    ({ out := m.acc.getD i [], nan := bit (m.stat.getD i 0) 0, range := bit (m.stat.getD i 0) 1 } : ThrAcc)
  let (s, e) := wrAll (thrLead s l) v 0 ((m.rows.zip accs).map fun r => (r.1, thrRow r.2)) s
  match e with
  | some e => passDrop s l m.ctx m.slot e
  | none =>
    let s := accs.foldl (fun s a => thrCount s l a) s
    let s := (m.links.zip accs).foldl (fun s r => match r.1 with
      | some b => if r.2.nan then nanLatch s m.ctx b else s
      | none => s) s
    let s := bumpN s (rTHR_PASS_SAMPLES (tileSite s l)) m.samples.length
    bumpDiv s (rTHR_EVALS (tileSite s l)) (m.samples.length * p.tcount) 1024

/-- Every member of the running pass faults. -/
def passFault (s : State) (l : Nat) (p : Pass) (e : CtxFlt) : State :=
  ((p.members.map fun m => (m.ctx, m.slot)).eraseDups).foldl (fun s m => passDrop s l m.1 m.2 e) s

/-- The mismatches of a chunk: the first has the chunk repeated; another one in the repetition, or one that recurs, stops the pass. -/
def chunkHits (s : State) (l : Nat) (hits : List EngHit) : State × Bool :=
  let ms := hits.filterMap fun h => match h with | .mismatch u _ _ r => some (u, r) | _ => none
  match ms with
  | [] => (s, false)
  | (u, r) :: rest => let s := thrMismatch s l u
    match rest with
    | [] => thrRepeat s l u r
    | (k, _) :: _ => let (s, _) := thrRepeat s l u false; (thrLaneFail (thrMismatch s l k) l k, true)

/-- PASS_CHUNK: the next chunk's trees against every sample of every member; after the last, the rows are written. -/
def passChunk (s : State) (l : Nat) (hits : List EngHit) : State :=
  match (tileGet s l).run with
  | none => s
  | some p =>
    let (n, part) := passTrees p
    let at_ := fun t => p.addr + thrTreeOff p.depth p.round p.outputs t
    let size := thrStride p.depth p.round p.outputs
    match passBad s p n part with
    | some a => passFault s l p (fltAt 8 a)
    | none =>
      let s := lpCount s 0 (at_ (p.tfirst + p.done) + p.part) (n * size + part - p.part)
      let (s, stop) := chunkHits s l hits
      if stop then passFault s l p (fltAt 8 0)
      else
        let trees := (List.range n).map fun i => (p.tfirst + p.done + i, memR s (at_ (p.tfirst + p.done + i)) size)
        let rs := p.members.map fun m => (m, chunkMember s (thrLead s l) p trees m)
        let good := rs.filterMap fun r => match r.2 with | .ok m => some m | .error _ => none
        let s := tilePut s l { tileGet s l with
          run := if good.isEmpty then none else some { p with members := good, done := p.done + n, part := part } }
        let s := rs.foldl (fun s r => match r.2 with | .error e => passDrop s l r.1.ctx r.1.slot e | .ok _ => s) s
        if p.done + n < p.tcount || good.isEmpty then s
        else
          let s := good.foldl (fun s m => passWrite s l p m) s
          let s := bump (tilePut s l { tileGet s l with run := none }) (rTHR_PASSES (tileSite s l))
          (passCmds p).foldl (fun s i => passLeft s l i) s

/-! ### Registers (R174) -/

/-- Computed THR registers of site `t`. -/
def thrRegRead (s : State) (t o : Nat) : Option Nat :=
  match o with
  | 0x000 =>
    let failed := rgf s (rTHR_STATUS t) 27 20
    match siteMember s t with
    | none => some (failed * 2 ^ 20)
    | some (l, m) =>
      let x := tileGet s (l + m)
      let q := thrQueue s l m
      let busy := (sbEngine s l 2).any fun e => e.2.op == 0 && e.2.span == m && e.2.todo.isNone
      some (b2n busy * 2 ^ 31 + b2n x.run.isSome * 2 ^ 30 + b2n x.form.isSome * 2 ^ 29 +
        b2n (match q.head? with | some e => e.2.op == 1 | none => false) * 2 ^ 28 + failed * 2 ^ 20 + min 4 q.length * 2 ^ 16 +
        (match x.form with | some p => passSamples p | none => 0))
  | _ => none

end Sys2Proof.Machine
end

