-- ==== Sys2Proof/Machine/Registers.lean ====
section
/-! DEFINITION. Register access: reads and writes of every block, with their side effects (R9, R10, R12, R58, R417, R418, R420,
R422 to R430, R453). -/

namespace Sys2Proof.Machine

/-! ### Host-port registers (R417, R418, R420) -/

/-- Milliseconds counted in the current start (R391): not in host-load state or safe start, nor after the start has ended. -/
def startElapsed (s : State) : Nat :=
  if !s.boot.main then 0
  else
    let now := match s.boot.heldAt with
      | some t => t
      | none => if s.boot.stage = stRun ∨ s.boot.stage = stFailed then s.boot.stageAt else s.gt
    min 65535 ((now - s.boot.began - s.boot.held) / 1000000)

/-- Commands queued or running. -/
def mboxPending (s : State) : Nat := s.mbox.queue.length + mboxRunning s

/-- A doorbell: the block joins the queue of 16, or OVERRUN is set. -/
def doorbell (s : State) : State :=
  if mboxPending s ≥ 16 then rgwb s rHP_MBOX_STATUS 30 true
  else
    let b := (List.range 16).flatMap fun i => leBytes 4 (rg s (rHP_MBOX_CMD i))
    { s with mbox := { s.mbox with queue := s.mbox.queue ++ [b] } }

/-- A read of HP_MBOX_DONE pops one completion word, or returns 0. -/
def mboxPop (s : State) : Nat × State :=
  match s.mbox.done with
  | [] => (0, s)
  | w :: r => (w, { s with mbox := { s.mbox with done := r } })

/-! ### Device registers (R428 to R430) -/

/-- GLB_INT_STATUS (Table GLB-8). -/
def intStatus (s : State) : Nat :=
  let any64 := fun (f : Nat → Bool) => (List.range 64).any f
  b2n (any64 (rqAlerting s)) + 2 * b2n (any64 fun i => (rqGet s i).overrun) + 4 * b2n (decide (rg s rFLS_STATUS % 16 ≠ 0)) +
  8 * b2n (rgb s rFLT_STATUS 31) + 16 * b2n (outside s) + 32 * b2n s.flt.resetting + 64 * b2n s.pwr.fail +
  128 * b2n (rgb s rOBS_TRC_STATUS 31 || rgb s rOBS_SMPL_STATUS 31) +
  256 * b2n (rgb s rPL_CFG 31 && [0, 1, 2, 3].any fun l => !(linkGet s l).up) + 512 * b2n s.flt.islOut.isSome

/-- The device interrupt summary (R429). -/
def intSummary (s : State) : Bool := (intStatus s &&& rg s rGLB_INT_EN) != 0

/-- HP_ISR as read (R418). -/
def hpIsr (s : State) : Nat := rg s rHP_ISR &&& 0xC ||| (2 * b2n (!s.mbox.done.isEmpty) + b2n (intSummary s))

/-- ALERT_N is asserted (R418). -/
def alertN (s : State) : Bool := s.boot.ready && (hpIsr s &&& rg s rHP_IE) != 0

/-- EPOCH_READ: the epoch, with its cause latched. -/
def epochRead (s : State) : Nat × State := (rg s rGLB_EPOCH, rgw s rGLB_EPOCH_CAUSE s.epochCause)

/-- GLOBAL_TIME_READ: the low word, with the high word latched. -/
def timeRead (s : State) : Nat × State := (s.gt % 2 ^ 32, rgw s rGLB_GT_HI (s.gt / 2 ^ 32))

/-- Reads of the GLB block beyond stored values. -/
def glbRegRead (s : State) (o : Nat) : Option (Nat × State) :=
  match o with
  | 0x004 => some (Config.dieId.toNat % 2 ^ 32, rgw s rGLB_DIE_ID_HI (Config.dieId.toNat / 2 ^ 32))
  | 0x010 => some (epochRead s)
  | 0x020 => some (timeRead s)
  | 0x030 => some (intStatus s, s)
  | _ => none

/-- Reads of the HP block beyond stored values. -/
def hpRegRead (s : State) (o : Nat) : Option (Nat × State) :=
  match o with
  | 0x008 => some (s.boot.stage % 256 * 2 ^ 24 + min 255 s.boot.f * 65536 + startElapsed s, s)
  | 0x010 => some (hpIsr s, s)
  | 0x020 => some (s.hp.errAddr % 2 ^ 32, rgw s rHP_ERR_ADDR_HI (s.hp.errAddr / 2 ^ 32))
  | 0x140 => some (0, s)
  | 0x144 => some (b2n (decide (mboxPending s ≥ 16)) * 2 ^ 31 + b2n (rgb s rHP_MBOX_STATUS 30) * 2 ^ 30 + mboxPending s % 32 * 65536 + s.mbox.done.length, s)
  | 0x148 => some (mboxPop s)
  | _ => none

/-- Reads of the LP block beyond stored values (Table LP-15). -/
def lpRegRead (s : State) (o : Nat) : Option Nat :=
  if o = 0x014 then
    let c := rgf s rLP_CH_SEL 3 0
    let ce := (s.lp.recent.filter fun e => e.1 == c && decide (e.2 + 1000000000 > s.gt)).length
    some (b2n (rgb s rLP_STATUS (16 + c)) * 2 ^ 31 + b2n (bit s.lp.warm c) * 2 ^ 30 + min 255 ce * 256 + tget 0 s.lp.ues c)
  else none

/-- Reads of a front port: MISMATCH; the odd port's PAIR_MODE is the even port's (R34, R58). -/
def fpRegRead (s : State) (n o : Nat) : Option Nat :=
  match o with
  | 0x000 => some (putBits (rg s (rFP_CFG n)) 28 27 (rgf s (rFP_CFG (n / 2 * 2)) 28 27))
  | 0x004 => some (putBits (rg s (rFP_STATUS n)) 23 23 (b2n (pairMismatch s n)))
  | _ => none

/-- Reads of a pipe: status, parse nodes, transition entries. -/
def pipeRegRead (s : State) (p o : Nat) : Option Nat :=
  if o = 0x004 then
    some (b2n (pipeGet s p).bypass * 2 ^ 31 + b2n ((List.range 4).any fun q => q != p && (pipeGet s q).out.isSome && procPart s q == p) * 2 ^ 30 +
      (pipeGet s p).dq.length)
  else if 0x8000 ≤ o ∧ o < 0xA000 then some ((tget [] s.weave.nodes ((o - 0x8000) / 32)).getD (o % 32 / 4) 0)
  else if 0xA000 ≤ o ∧ o < 0xE000 then
    let e := tget (0, 0, 0) s.weave.trans ((o - 0xA000) / 16)
    some (match o % 16 / 4 with | 0 => e.1 | 1 => e.2.1 | 2 => e.2.2 | _ => 0)
  else none

/-! ### The whole map -/

/-- Reads that give more than a stored value. -/
def regSpecial (s : State) (b : Block) (i o : Nat) : Option (Nat × State) :=
  let pure_ := fun (r : Option Nat) => r.map fun v => (v, s)
  match b with
  | .fp => if i < 16 then pure_ (fpRegRead s i o) else none
  | .pipe => pure_ (pipeRegRead s i o)
  | .grn => pure_ (grnRegRead s i o)
  | .bind => none
  | .vd => vdRegRead s i o
  | .tm => tmRegRead s i o
  | .til => pure_ (tilRegRead s i o)
  | .shf => pure_ (shfRegRead s i o)
  | .thr => pure_ (thrRegRead s i o)
  | .bt => pure_ (btRegRead s o)
  | .rq => pure_ (rqRegRead s o)
  | .pl => pure_ (plRegRead s o)
  | .pll => pure_ (pllRegRead s i o)
  | .pwr => pure_ (pwrRegRead s o)
  | .flt => fltRegRead s o
  | .fls => pure_ (flsRegRead s o)
  | .smp => smpRegRead s o
  | .obs => obsRegRead s o
  | .hp => hpRegRead s o
  | .glb => glbRegRead s o
  | .lp => pure_ (lpRegRead s o)

/-- The site of a site block is retired or fenced: it keeps its last values and ignores writes (R425). -/
def siteFrozen (s : State) (b : Block) (i : Nat) : Bool :=
  (b == .til || b == .shf || b == .thr) && ((siteGet s i).fenced || (siteGet s i).role == 2)

/-- Read the register at device address `a`: its value, and the state after. RC fields clear (R9); an offset that no chapter defines
reads zero (R422). -/
def regRead (s : State) (a : Nat) : Nat × State :=
  match decodeReg a with
  | none => (0, s)
  | some (b, i, o) =>
    match regSpecial s b i o with
    | some r => r
    | none =>
      match regRow a with
      | none => (0, s)
      | some r => (rg s a, if siteFrozen s b i || r.rc == 0 then s else rgw s a (rg s a - (rg s a &&& r.rc)))

/-- A word with the bits of `mask` taken from `v`. -/
def mergeBits (old v mask : Nat) : Nat := old - (old &&& mask) + (v &&& mask)

/-- Sub-ports of a pair go down when their port is disabled or held disabled (R33, R34). -/
def pairDown (s : State) (n : Nat) : State :=
  [n / 2 * 2, n / 2 * 2 + 1].foldl (fun s q =>
    if rgb s (rFP_CFG q) 31 && !pairMismatch s q then s
    else [0, 1, 2, 3].foldl (fun s m => if rgb s (rFP_STATUS q) (28 + m) then subDown s q m else s) s) s

/-- A write of FP_CFG: BREAKOUT and PAIR_MODE stay while EN is 1; the odd port's PAIR_MODE ignores writes (R58). -/
def fpCfgWrite (s : State) (n v : Nat) : State :=
  let old := rg s (rFP_CFG n)
  let mask := if bit old 31 then 0x80FF3FFF else if n % 2 = 1 then 0x87FF3FFF else 0x9FFF3FFF
  pairDown (rgw s (rFP_CFG n) (mergeBits old v mask)) n

/-- The plain write of a row: RW bits stored, RW1C bits cleared by ones; a live field advances the epoch (R9, R325). -/
def rowWrite (s : State) (a v : Nat) (r : RegRow) : State :=
  let old := mergeBits (rg s a) v r.rw
  let s := rgw s a (old - (old &&& (v &&& r.w1c)))
  if r.live then epochAdvance s 3 else s

/-- Write the register at device address `a`. -/
def regWrite (s : State) (a v : Nat) : State :=
  match decodeReg a, regRow a with
  | some (b, i, o), some r =>
    let plain := rowWrite s a v r
    if siteFrozen s b i then s else
    match b with
    | .fp => if o = 0 then fpCfgWrite s i v else plain
    | .grn => match grnRegWrite s i o v with | some (s, live) => if live then epochAdvance s 3 else s | none => plain
    | .vd => match vdRegWrite s i o v with | some (s, live) => if live then epochAdvance s 3 else s | none => plain
    | .tm => match tmRegWrite s i o v with | some s => epochAdvance s 3 | none => plain
    | .til => (tilRegWrite s i o v).getD plain
    | .bt => (btRegWrite s o).getD plain
    | .rq => (rqRegWrite s o v).getD plain
    | .pl => if o = 0 ∧ rgb s rPL_CFG 31 then s else if o = 0 ∨ o = 4 ∨ 0x800 ≤ o then ringUpdate plain else plain
    | .flt => match fltRegWrite s o v with | some s => s | none => if o = 4 then rowWrite (smbLatch s) a v r else plain
    | .fls => if o = 0x020 then flsCommand s (bits v 31 28) (bits v 27 24) else plain
    | .smp => if o = 0x020 then smpCommand s (bits v 31 28) else plain
    | .obs => match obsRegWrite s o v with | some s => rowWrite s a v r | none => plain
    | .hp => if o = 0x140 then doorbell s else plain
    | .pipe | .bind | .shf | .thr | .pll | .pwr | .glb | .lp => plain
  | _, _ => s

end Sys2Proof.Machine
end

