-- ==== Sys2Proof/Machine/Electrical.lean ====
section
/-! DEFINITION. Global Time sources and the SMBus target (R442, R444). -/

namespace Sys2Proof.Machine

/-! ### Global Time (R442) -/

/-- The first valid source: TIME_REF with TIME_1PPS_IN, PTP, free running. -/
def timeSource (v : TimeState) : Nat := if v.ref && v.pps then 1 else if v.ptp then 2 else 3

/-- GLB_CONFIG.TSRC: 0 until a source first sets Global Time. -/
def tsrcShow (s : State) : State := rgwf s rGLB_CONFIG 28 27 (if s.time.isSet then s.time.source else 0)

/-- Global Time is `off` ns ahead of its source: an offset beyond 1 ms is stepped, another is left to be slewed. -/
def timeSlew (s : State) (off : Int) : State :=
  if off.natAbs > 1000000 then
    tsrcShow { s with gt := ((s.gt : Int) - off).toNat, time := { s.time with isSet := true, slew := 0, count := 0 } }
  else tsrcShow { s with time := { s.time with isSet := true, slew := -off, count := 0 } }

/-- A valid 1 PPS edge, Global Time `off` ns ahead of the second: it counts under source 1. -/
def ppsEdge (s : State) (off : Int) : State := if s.time.source = 1 then timeSlew s off else s

/-- The TIME Sampler record: its TYPE and body are not stated, so both are free (log entry 38). -/
def timeRecord (s : State) : State :=
  let (t, s) := drawFree s 16
  let (n, s) := drawFree s 8
  let (b, s) := drawFree s (8 * n)
  smpEvent s (65536 + t) (leBytes n b)

/-- Which inputs are valid changes: with a change of source Global Time slews to the new one, `off` ns behind it, and a TIME record
is written; free running continues from where it stands. -/
def timeChange (s : State) (ref pps ptp : Bool) (off : Int) : State :=
  let t := { s.time with ref := ref, pps := pps, ptp := ptp }
  let n := timeSource t
  let s := { s with time := { t with source := n } }
  if n = t.source then s
  else
    let s := if n = 3 then tsrcShow { s with time := { s.time with slew := 0, count := 0 } } else timeSlew s off
    timeRecord s

/-! ### Pins that the main supplies govern (R438) -/

/-- Outputs of supply stages 2 to 6 are in high impedance. -/
def outputsOff (s : State) : Bool := !s.boot.main

/-- LP_RESET_N[7:0] is driven low. -/
def lpResetLow (s : State) : Bool := !s.boot.main

/-! ### SMBus (R444, Table LP-9) -/

/-- The target's 7-bit address. -/
def smbTarget (s : State) : Nat := 0x58 + s.hp.smbAddr % 4

/-- SMB_ALERT_N is asserted. -/
def smbAlert (s : State) : Bool := s.hp.alert || smbCause s

/-- The 10 µs sample of the telemetry: each word by its code, the voltages at 0x20 + p. -/
def smbSample (s : State) : State :=
  let parts : List Nat := [0, 1, 2, 3]
  let heat := ofSigned 8 (hottest ((List.range 64).map fun g => (groupGet s g).temp)) * 256 + ofSigned 8 (hottest (parts.map fun p => (pwrGet s p).tj))
  let words := [(1, rg s rPWR_POWER % 65536), (2, s.pwr.budget % 65536), (3, heat),
    (4, b2n (faultN s) * 2 ^ 15 + b2n s.pwr.tripped * 2 ^ 14 + s.boot.stage % 256)] ++
    parts.map (fun p => (0x10 + p, (pwrGet s p).step % 8 * 2 ^ 13 + ofSigned 8 (pwrGet s p).tj)) ++ parts.map fun p => (0x20 + p, stepVolts s p)
  { s with hp := { s.hp with tele := words.foldl (fun t e => tset 0 t e.1 e.2) s.hp.tele } }

/-- A telemetry word: as the last sample took it (R444). -/
def smbWord (s : State) (code : Nat) : Option Nat :=
  match code with
  | 0x00 => some 0x0960
  | 0x01 | 0x02 | 0x03 | 0x04 | 0x10 | 0x11 | 0x12 | 0x13 => some (tget 0 s.hp.tele code)
  | _ => none

/-- What Table LP-9 names of the 32-byte block, 24 bytes: codes 0x01 to 0x04 and 0x10 to 0x13, then VDD_P0 to VDD_P3 in mV. -/
def smbBlock (s : State) : Bytes :=
  (([1, 2, 3, 4, 0x10, 0x11, 0x12, 0x13] : List Nat).flatMap fun c => leBytes 2 ((smbWord s c).getD 0)) ++
  (([0, 1, 2, 3] : List Nat).flatMap fun p => leBytes 2 (tget 0 s.hp.tele (0x20 + p)))

/-- The data of a read with its PEC, over the address and command bytes of the transfer too (log entry 6). -/
def smbReply (s : State) (code : Nat) (data : Bytes) : State :=
  let a := smbTarget s
  { s with reply := data ++ [pec (leBytes 1 (2 * a) ++ leBytes 1 code ++ leBytes 1 (2 * a + 1) ++ data)] }

/-- Read Word: an address that is not the target's and a code that is no word are not acknowledged. -/
def smbReadWord (s : State) (addr code : Nat) : State :=
  if s.boot.aon && addr == smbTarget s then
    match smbWord s code with
    | some w => smbReply s code (leBytes 2 w)
    | none => { s with reply := [] }
  else { s with reply := [] }

/-- Block Read of code 0x20: the byte count, the block; its last 8 bytes are not stated, so they are free. -/
def smbBlockRead (s : State) (addr code : Nat) : State :=
  if s.boot.aon && addr == smbTarget s && code == 0x20 then
    let (b, s) := drawFree s 64
    smbReply s code (leBytes 1 32 ++ smbBlock s ++ leBytes 8 b)
  else { s with reply := [] }

/-- Alert Response Address read: the asserting target answers with its address; SMB_ALERT_N clears once its cause has ended. -/
def smbAlertResponse (s : State) : State :=
  if s.boot.aon && smbAlert s then
    let (b, t) := drawFree s 1
    let d := leBytes 1 (2 * smbTarget s + b)
    { t with reply := d ++ [pec (leBytes 1 0x19 ++ d)], hp := { t.hp with alert := smbCause s } }
  else { s with reply := [] }

/-! ### The commands -/

/-- TIME_1PPS_EDGE (R442). -/
def execTime1ppsEdge (off : Int) (s : State) : Host.Outcome State Fault Refusal := .next (ppsEdge s off)

/-- TIME_SOURCE_CHANGE (R442). -/
def execTimeSourceChange (ref pps ptp : Bool) (off : Int) (s : State) : Host.Outcome State Fault Refusal := .next (timeChange s ref pps ptp off)

/-- SMBUS_READ_WORD (R444). -/
def execSmbusReadWord (addr code : Nat) (s : State) : Host.Outcome State Fault Refusal := .next (smbReadWord s addr code)

/-- SMBUS_BLOCK_READ (R444). -/
def execSmbusBlockRead (addr code : Nat) (s : State) : Host.Outcome State Fault Refusal := .next (smbBlockRead s addr code)

/-- SMBUS_ALERT_RESPONSE (R444). -/
def execSmbusAlertResponse (s : State) : Host.Outcome State Fault Refusal := .next (smbAlertResponse s)

end Sys2Proof.Machine
end

