-- ==== Sys2Proof/Machine/Engines.lean ====
section
/-! DEFINITION. How the engines take the commands of their queues: starts in queue order, the work of a command at its start, and
the rows that issue, complete and run passes (R99, R102, R134, R167, R168, R180, R182, R199). -/

namespace Sys2Proof.Machine

/-! ### Starting a command -/

/-- The command of scoreboard entry `i` leaves its engine's queue and starts: its work is done, or a fault stops it. One whose context
has been torn down or restarted since its issue does no work (R199; log entries 17 and 141). -/
def engineStart (s : State) (l i : Nat) (x : SbEnt) (run : EngineRun) : State :=
  match x.todo with
  | none => s
  | some j =>
    if x.ply ≠ (ctxGet s x.ctx).ply then sbPut s l i (some { x with todo := none, gone := true })
    else match run (hitsStrike (sbPut s l i (some { x with todo := none })) j.hits) l i j with
      | (s, none) => s
      | (s, some f) => engFault (cmdStopped s l x.ctx i) l x.ctx x.engine (unitOf x.engine x.quarters) f

/-! ### The Sheaf, VX and the Mover (R134) -/

/-- Start the Sheaf's commands in queue order while quarters are free; `n` bounds how many. -/
def shfPump (l : Nat) : Nat → State → State
  | 0, s => s
  | n + 1, s =>
    let s := shfAssign s l
    match (waiting (sbEngine s l 1)).find? fun e => e.2.quarters != 0 with
    | some (i, x) => shfPump l n (engineStart s l i x runMatmul)
    | none => s

/-- Start the commands of VX or the Mover in queue order, one at a time on each member. -/
def fifoPump (l e : Nat) (run : EngineRun) : Nat → State → State
  | 0, s => s
  | n + 1, s =>
    let es := sbEngine s l e
    match waiting es with
    | [] => s
    | (i, x) :: w => if es.length - (w.length + 1) < members s l then fifoPump l e run n (engineStart s l i x run) else s

/-! ### The Thresher (R167, R168) -/

/-- An EVAL is in progress on member `m`'s Thresher. -/
def evalBusy (s : State) (l m : Nat) : Bool :=
  (sbEngine s l 2).any fun e => e.2.op == 0 && e.2.span == m && e.2.todo.isNone

/-- The STREAM at the head of member `m`'s queue joins as far as it can; what it meets strikes once. -/
def streamStart (s : State) (l m i : Nat) (x : SbEnt) (j : Job) : State :=
  if x.ply ≠ (ctxGet s x.ctx).ply then sbPut s l i (some { x with todo := none, gone := true })
  else
    let j' := { j with hits := [] }
    let x' := { x with todo := some j' }
    match runStream (hitsStrike (sbPut s l i (some x')) j.hits) l (l + m) i x' j' with
    | (s, none) => s
    | (s, some f) => engFault (cmdStopped s l x.ctx i) l x.ctx x.engine (unitOf x.engine x.quarters) f

/-- Serve member `m`'s queue in order while its head can go on: an EVAL when none is in progress, a STREAM until it must wait. -/
def thrPump (l m : Nat) : Nat → State → State
  | 0, s => s
  | n + 1, s =>
    match thrQueue s l m with
    | [] => s
    | (i, x) :: _ =>
      if x.op = 0 then (if evalBusy s l m then s else thrPump l m n (engineStart s l i x (runEval x.ctx m)))
      else match x.todo with
        | none => s
        | some j =>
          let t := streamStart s l m i x j
          if ((thrQueue t l m).map fun e => e.1).head? = some i then t else thrPump l m n t

/-! ### The score port (R180, R182) -/

/-- The bank groups of the commands that would start now. -/
def spMark (s : State) (l : Nat) : State :=
  ((waiting (spRunning (members s l) (sbEngine s l 5))).filterMap fun e => e.2.todo.map fun j => (e.1, e.2, j)).foldl
    (fun s e => sbPut s l e.1 (some { e.2.1 with groups := spGroups s l e.2.1.ctx e.2.2 })) s

/-- Start the score port's commands in queue order; one that works on a critical group stays in progress and waits (R180). -/
def spPump (l : Nat) : Nat → State → State
  | 0, s => s
  | n + 1, s =>
    let s := spMark s l
    match (waiting (spRunning (members s l) (sbEngine s l 5))).find? fun e =>
        e.2.ply != (ctxGet s e.2.ctx).ply || !spHeld s e.2 with
    | some (i, x) => spPump l n (engineStart s l i x (runScore x.ctx))
    | none => s

/-! ### All engines of a tile -/

/-- Every engine of tile `l` starts what it can; a stopped TCLK starts nothing (R307). -/
def enginesPump (s : State) (l : Nat) : State :=
  let n := (sbUsed s l).length
  if s.pwr.tripped || (waiting (sbUsed s l)).isEmpty then s
  else spPump l n (fifoPump l 4 runMov n (fifoPump l 3 runVx n (thrPump l 1 n (thrPump l 0 n (shfPump l n s)))))

/-- Every tile's engines, and the bank operations that wait. -/
def enginesAll (s : State) : State := bankPump ((s.tiles.map fun t => t.1).foldl enginesPump s)

/-- A row that issues on engine `e`: the issue, then the engines start what they can. -/
def issueRun (e op l : Nat) (hits : List EngHit) (s : State) : State := enginesPump (issueRow e op l hits s) l

/-! ### The commands -/

/-- COMMAND_COMPLETE (R97, R102). -/
def execCommandComplete (l slot : Nat) (s : State) : Host.Outcome State Fault Refusal := .next (enginesPump (commandComplete s l slot) l)

/-- QUIESCE_TIMEOUT (R103). -/
def execQuiesceTimeout (ctx : Nat) (s : State) : Host.Outcome State Fault Refusal := .next (enginesPump (quiesceTimeout s ctx) (ctx / 1024))

/-- PASS_START (R168). -/
def execPassStart (l : Nat) (s : State) : Host.Outcome State Fault Refusal := .next (enginesPump (passStart s l) (thrLead s l))

/-- PASS_CHUNK (R169). -/
def execPassChunk (l : Nat) (hits : List EngHit) (s : State) : Host.Outcome State Fault Refusal :=
  .next (enginesPump (passChunk (hitsStrike s hits) l hits) (thrLead s l))

/-- MATMUL (R135). -/
def execMatmul (l : Nat) (hits : List EngHit) (s : State) : Host.Outcome State Fault Refusal := .next (issueRun 1 0 l hits s)

/-- EVAL (R166). -/
def execEval (l : Nat) (hits : List EngHit) (s : State) : Host.Outcome State Fault Refusal := .next (issueRun 2 0 l hits s)

/-- STREAM (R168). -/
def execStream (l : Nat) (hits : List EngHit) (s : State) : Host.Outcome State Fault Refusal := .next (issueRun 2 1 l hits s)

/-- EW (R106). -/
def execEw (l : Nat) (hits : List EngHit) (s : State) : Host.Outcome State Fault Refusal := .next (issueRun 3 0 l hits s)

/-- FMA (R106). -/
def execFma (l : Nat) (hits : List EngHit) (s : State) : Host.Outcome State Fault Refusal := .next (issueRun 3 1 l hits s)

/-- REDUCE (R106). -/
def execReduce (l : Nat) (hits : List EngHit) (s : State) : Host.Outcome State Fault Refusal := .next (issueRun 3 2 l hits s)

/-- SOFTMAX (R106). -/
def execSoftmax (l : Nat) (hits : List EngHit) (s : State) : Host.Outcome State Fault Refusal := .next (issueRun 3 3 l hits s)

/-- NORM (R106). -/
def execNorm (l : Nat) (hits : List EngHit) (s : State) : Host.Outcome State Fault Refusal := .next (issueRun 3 4 l hits s)

/-- LUT (R106). -/
def execLut (l : Nat) (hits : List EngHit) (s : State) : Host.Outcome State Fault Refusal := .next (issueRun 3 5 l hits s)

/-- QUANT (R106). -/
def execQuant (l : Nat) (hits : List EngHit) (s : State) : Host.Outcome State Fault Refusal := .next (issueRun 3 6 l hits s)

/-- DEQUANT (R106). -/
def execDequant (l : Nat) (hits : List EngHit) (s : State) : Host.Outcome State Fault Refusal := .next (issueRun 3 7 l hits s)

/-- COMBINE (R106). -/
def execCombine (l : Nat) (hits : List EngHit) (s : State) : Host.Outcome State Fault Refusal := .next (issueRun 3 8 l hits s)

/-- CONVERT (R106). -/
def execConvert (l : Nat) (hits : List EngHit) (s : State) : Host.Outcome State Fault Refusal := .next (issueRun 3 9 l hits s)

/-- COPY (R107). -/
def execCopy (l : Nat) (hits : List EngHit) (s : State) : Host.Outcome State Fault Refusal := .next (issueRun 4 0 l hits s)

/-- GATHER (R107). -/
def execGather (l : Nat) (hits : List EngHit) (s : State) : Host.Outcome State Fault Refusal := .next (issueRun 4 1 l hits s)

/-- SCATTER (R107). -/
def execScatter (l : Nat) (hits : List EngHit) (s : State) : Host.Outcome State Fault Refusal := .next (issueRun 4 2 l hits s)

/-- TRANSPOSE (R107). -/
def execTranspose (l : Nat) (hits : List EngHit) (s : State) : Host.Outcome State Fault Refusal := .next (issueRun 4 3 l hits s)

/-- FILL (R107). -/
def execFill (l : Nat) (hits : List EngHit) (s : State) : Host.Outcome State Fault Refusal := .next (issueRun 4 4 l hits s)

/-- ATTEND (R186). -/
def execAttend (l : Nat) (hits : List EngHit) (s : State) : Host.Outcome State Fault Refusal := .next (issueRun 5 0 l hits s)

/-- TOPK (R191). -/
def execTopk (l : Nat) (hits : List EngHit) (s : State) : Host.Outcome State Fault Refusal := .next (issueRun 5 1 l hits s)

/-- HAPPEND (R184). -/
def execHappend (l : Nat) (hits : List EngHit) (s : State) : Host.Outcome State Fault Refusal := .next (issueRun 5 2 l hits s)

/-- GEMV (R192). -/
def execGemv (l : Nat) (hits : List EngHit) (s : State) : Host.Outcome State Fault Refusal := .next (issueRun 5 3 l hits s)

/-- XPOSE (R193). -/
def execXpose (l : Nat) (hits : List EngHit) (s : State) : Host.Outcome State Fault Refusal := .next (issueRun 5 4 l hits s)

end Sys2Proof.Machine
end

