-- ==== Sys2Proof/Machine/LpOps.lean ====
section
/-! DEFINITION. The LPDDR5X controller: capacity, training, channel retirement, patrol scrub, retraining (R327, R372, R445, R452). -/

namespace Sys2Proof.Machine

/-- GiB of LPDDR5X fitted, by the raw capacity code of a channel (R445). -/
def lpFitted (chcap : Nat) : Nat := match chcap with | 0 => 62 | 1 => 124 | 2 => 248 | _ => 0

/-- LP_GIB: the fitted capacity less one sixteenth for each retired channel (R327, R422). -/
def lpMount (s : State) : State := rgwf s rGLB_CONFIG 8 0 (lpFitted (rgf s rLP_STATUS 13 12) * (lpChans s).length / 16)

/-- A channel leaves service: the repair map, LP_STATUS, the mounted capacity, the epoch. -/
def lpOut (s : State) (c : Nat) : State :=
  let i := 4156 + c / 8
  let s := repairCommit (repairSet s i (repairAt s i ||| 2 ^ (c % 8)))
  lpMount (epochAdvance (rgwb s rLP_STATUS (16 + c) true) 6)

/-- The library entry that holds a slot's image. -/
def lpBacked (s : State) (m : ModelSlot) : Option Bytes :=
  ((libAll s).map fun e => e.2).find? fun b => imgDigest b == m.digest

/-- An ACTIVE slot loses storage with a channel: spilled history segments, or an LPDDR5X window whose image no library entry holds. -/
def lpLoses (s : State) (m : ModelSlot) : Bool :=
  decide (((m.allocs.filter fun a => a.1 == 2 && decide (a.2.2 > 0)).length > (if m.img.lpSize = 0 then 0 else 1))) ||
  (decide (m.img.lpSize > 0) && (lpBacked s m).isNone)

/-- What a slot holds in LPDDR5X is made whole again: its retained copies from their partners, its streamed sections from the
library. -/
def lpRebuild (s : State) (c k : Nat) : State :=
  let m := mslotGet s c k
  if m.copyLen = 0 then s else
  let s := match retained s m with
    | some (b, t) => memW (memW t (lpBase + m.copyAt) b) (lpBase + m.copyAt + roundUp m.copyLen 64) b
    | none => s
  match lpBacked s m with
  | some b => if m.img.lpSize = 0 then s else placeSects s (c / 1024) m.img b (sectShared s c k b) fun sp => sp == 2
  | none => s

/-- LP_CHANNEL_RETIRE (R327): class 15, reported; regions re-placed, those backed by flash refetched and retained copies rebuilt, the
sample rings, the trace and the export region start empty, contexts that lost spilled segments or streamed ensembles fault with ENGINE. -/
def lpRetire (s : State) (c : Nat) : State :=
  if c ≥ 16 ∨ rgb s rLP_STATUS (16 + c) then s
  else
    let s := lpOut (faultDetect s 15 (unitCode 5 c) 0xFF 0 13 0 false false) c
    let s := obsRestart s
    let s := (List.range 4).foldl (fun s p => rgw (rgw s (rTM_SRING_WR p) 0) (rVD_CAP_WR p) 0) s
    let s := (s.slots.map fun e => e.1).foldl (fun s i => lpRebuild s (i / 2) (i % 2)) s
    let hit := s.ctxs.filter fun e => e.2.state == 1 && lpLoses s (mslotGet s e.1 e.2.active)
    let s := hit.foldl (fun s e => ctxFault s e.1 0 (fltAt 8 0)) s
    faultEnd s 15 (unitCode 5 c) 0

/-- A unit found uncorrectable in the counter sample ring or the trace region is zeroed and counted (R372). -/
def lpZero (s : State) (a : Nat) : State :=
  let within := fun (r : Nat) => let (b, z) := lpRegion s r; decide (lpBase + b ≤ a ∧ a < lpBase + b + z)
  if within 9 || within 10 then bump (memW s (cwOf a) (leBytes 64 0)) rOBS_LP_UE else s

/-- Corrections on a channel: counted, and remembered for a second. -/
def lpCe (s : State) (a : Nat) : State :=
  let s := cinc (bump s rLP_CE) (cChan (lpChan s a) 2) 1
  { s with lp := { s.lp with recent := (s.lp.recent.filter fun e => decide (e.2 + 1000000000 > s.gt)) ++ [(lpChan s a, s.gt)] } }

/-- LP_PATROL_SCRUB (R452): one stretch of a pass over LPDDR5X corrects errors at addresses, and finds every uncorrectable unit in
its range. -/
def lpPatrol (s : State) (from_ upTo : Nat) (ces : List Nat) : State :=
  let s := (ces.filter fun a => decide (lpBase + from_ ≤ a ∧ a < lpBase + upTo)).foldl lpCe (lpCount s 0 (lpBase + from_) (upTo - from_))
  let ues := (s.bad.filter fun e => decide (lpBase + from_ ≤ e.1 ∧ e.1 < lpBase + upTo)).map fun e => e.1
  ues.foldl (fun s a => lpZero (lpUe s a) a) s

/-- LP_PERIODIC_RETRAIN (R452). -/
def lpRetrain (s : State) (c : Nat) : State := if c < 16 ∧ !rgb s rLP_STATUS (16 + c) then bump s rLP_RETRAIN else s

/-- SRAM_PATROL_SCRUB (R312, R455): class 3. Corrected codewords are reported as such, uncorrectable ones at each pass that finds
them, unchanged. -/
def sramPatrol (s : State) (site : Nat) (ces : List Nat) : State :=
  if site ≥ 20 then s else
  let mine := fun (a : Nat) => decide (sramBase site ≤ a ∧ a < sramBase site + 20971520)
  let s := (ces.filter mine).foldl sramCorrected s
  ((s.bad.filter fun e => mine e.1).map fun e => e.1).foldl (fun s a => faultInstant s 3 (unitCode 0 site) (site / 5) a 16 1 false true) s

/-! ### The commands -/

/-- LP_CHANNEL_RETIRE (R327). -/
def execLpChannelRetire (ch : Nat) (s : State) : Host.Outcome State Fault Refusal := .next (lpRetire s ch)

/-- SRAM_PATROL_SCRUB (R312). -/
def execSramPatrolScrub (site : Nat) (ces : List Nat) (s : State) : Host.Outcome State Fault Refusal := .next (sramPatrol s site ces)

/-- LP_PATROL_SCRUB (R452). -/
def execLpPatrolScrub (first last : Nat) (ces : List Nat) (s : State) : Host.Outcome State Fault Refusal := .next (lpPatrol s first last ces)

/-- LP_PERIODIC_RETRAIN (R452). -/
def execLpPeriodicRetrain (ch : Nat) (s : State) : Host.Outcome State Fault Refusal := .next (lpRetrain s ch)

end Sys2Proof.Machine
end

