-- ==== Sys2Proof/Machine/WeaveFields.lean ====
section
/-! DEFINITION. The limits of weave fields (R379): registers under R377, table elements of Table WV-4, the LAYOUT and PLACE elements;
what an image run collects. -/

namespace Sys2Proof.Machine

/-- An image while it is applied: the state, weave records raised so far as (event, what they say), clamps, rejects, FP_CFG.EN of
the ports that the image enables, section and element in hand,
the section and element that last named the LAYOUT or a region, by its record address. -/
structure WvRun where
  st : State
  recs : List (Nat × WvInfo)
  clamps : Nat
  rejects : Nat
  en : List Nat
  sect : Nat
  elem : Nat
  named : List (Nat × Nat × Nat) := []
deriving DecidableEq, Repr, Inhabited

/-- A CLAMPED record (R379). -/
def clampRec (r : WvRun) (addr req res : Nat) : WvRun :=
  { r with clamps := r.clamps + 1,
           recs := r.recs ++ [(1, { section_ := r.sect, entry := r.elem, requested := req % 2 ^ 32, result := res % 2 ^ 32, addr := addr })] }

/-- The element in hand names the field of key `k`. -/
def nameField (r : WvRun) (k : Nat) : WvRun := { r with named := (k, r.sect, r.elem) :: r.named }

/-- The section and element that named a field last; zeros where none did. -/
def namedBy (r : WvRun) (k : Nat) : Nat × Nat := ((r.named.find? fun e => e.1 == k).map fun e => e.2).getD (0, 0)

/-- A CLAMPED record of a dependent limit (R380): of a LAYOUT or PLACE field, section and element are those that named it;
of a register, zeros. DEDUCED (log entry 43). -/
def depRec (r : WvRun) (k addr req res : Nat) : WvRun :=
  { clampRec { r with sect := (namedBy r k).1, elem := (namedBy r k).2 } addr req res with sect := r.sect, elem := r.elem }

/-- A REJECTED record (R376, R377, R380). -/
def rejectRec (r : WvRun) (addr : Nat) : WvRun :=
  { r with rejects := r.rejects + 1, recs := r.recs ++ [(2, { section_ := r.sect, entry := r.elem, addr := addr })] }

/-- Change the state. -/
def WvRun.put (r : WvRun) (s : State) : WvRun := { r with st := s }

/-! ### Fields of table elements (Tables FP-3 and WV-4) -/

/-- A checked field of an element: its unit's byte offset and size, its bits, the value applied for a value requested. -/
structure ElemField where
  off : Nat
  size : Nat
  hi : Nat
  lo : Nat
  act : Nat → Nat

/-- ADDR of a table record (Table WV-6). -/
def tabAddr (type i off : Nat) : Nat := type * 2 ^ 40 + i % 65536 * 65536 + off

/-- Check one field; the byte offset recorded is that of the byte the field starts in. -/
def clampField (type i : Nat) (a : Bytes × WvRun) (f : ElemField) : Bytes × WvRun :=
  let w := leAt a.1 f.off f.size
  let v := bits w f.hi f.lo
  let x := f.act v
  if x = v then a else (splice a.1 f.off (leBytes f.size (putBits w f.hi f.lo x)), clampRec a.2 (tabAddr type i (f.off + f.lo / 8)) v x)

/-- PARAM's range by KIND. -/
def paramAct (kind v : Nat) : Nat :=
  match kind with
  | 6 => clampN 1 15 v
  | 7 => min 15 v
  | 10 => clampN 8 32 v
  | 11 => min 15 v
  | _ => v

/-- Fields of an element of types 3 to 9, after those before them in it have been checked. -/
def elemFields (type : Nat) (b : Bytes) : List ElemField :=
  match type with
  | 3 => [⟨4, 4, 18, 14, min 16⟩, ⟨8, 4, 18, 13, min 32⟩] ++ (List.range 4).map fun i => ⟨16 + 4 * i, 4, 29, 24, min 62⟩
  | 5 => ⟨1, 1, 7, 0, min 16⟩ :: (List.range (min 16 (byteAt b 1))).flatMap fun e => [⟨8 + 2 * e, 1, 7, 0, min 63⟩, ⟨9 + 2 * e, 1, 7, 0, clampN 1 16⟩]
  | 6 => (List.range 8).flatMap fun i => [⟨8 + 2 * i, 1, 7, 0, min 63⟩, ⟨9 + 2 * i, 1, 7, 0, min 15⟩]
  | 7 => [⟨0, 1, 7, 0, min 128⟩, ⟨2, 2, 15, 0, clampN 2 65535⟩, ⟨4, 4, 31, 0, clampN 1 1000000⟩, ⟨8, 8, 63, 0, clampN 1 16⟩] ++
      ((List.range (min 128 (byteAt b 0))).flatMap fun j =>
        let kind := if byteAt b (16 + 8 * j) > 11 then 0 else byteAt b (16 + 8 * j)
        [⟨16 + 8 * j, 1, 7, 0, fun v => if v > 11 then 0 else v⟩, ⟨17 + 8 * j, 1, 7, 0, min 66⟩, ⟨18 + 8 * j, 1, 7, 0, paramAct kind⟩]) ++
      (List.range 64).map fun t => ⟨1040 + 2 * t, 2, 15, 12, fun v => if v > 5 then 0 else v⟩
  | 8 => [⟨2, 2, 15, 0, min 256⟩]
  | 9 => [⟨0, 4, 3, 2, fun v => if v = 3 then 0 else v⟩]
  | _ => []

/-- SYMMETRIC is cleared where a pair breaks R50. -/
def symCheck (i : Nat) (a : Bytes × WvRun) : Bytes × WvRun :=
  let b := a.1
  let n := byteAt b 1
  let cnt := fun (k : Nat) => byteAt b (9 + 2 * byteAt b k)
  let ok := (List.range 4).all (fun k => decide (byteAt b (2 + k) < n)) && cnt 2 == cnt 3 && cnt 4 == cnt 5
  if bit (byteAt b 0) 7 && !ok then (splice b 0 (leBytes 1 (putBits (byteAt b 0) 7 7 0)), clampRec a.2 (tabAddr 5 i 0) 1 0) else a

/-! ### Feature profiles (R454) -/

/-- Features of a primitive, its indicator included. -/
def primCount (a : Prim) : Nat :=
  let n := match a.kind with | 0 => 0 | 8 => 8 | 10 => 2 | 11 => if bit a.flags 3 then 16 else 1 | k => if k ≤ 11 then 1 else 0
  if bit a.flags 2 && decide (n ≠ 0) then n + 1 else n

/-- Bytes that the states of the first primitives take. -/
def primEnd (l : List Prim) : Nat := ((primOffs l 0).map fun e => e.2 + primSize e.1.kind).foldl max 0

/-- The primitive count under step 1. -/
def primFit (l : List Prim) : Nat → Nat
  | 0 => 0
  | n + 1 => if primEnd (l.take (n + 1)) ≤ 1024 ∧ ((l.take (n + 1)).map primCount).sum ≤ 1024 then n + 1 else primFit l n

/-- Units of 64 bytes that states and trailer take. -/
def stateUnits (e : Nat) (nth tick : Bool) : Nat := cdiv (e + 4 * b2n nth + 8 * b2n tick) 64

/-- The three steps of R454. -/
def featCheck (i : Nat) (a : Bytes × WvRun) : Bytes × WvRun :=
  let addr := fun o => tabAddr 7 i o
  let (b, r) := a
  let n := byteAt b 0
  let k := primFit (prims b) n
  let (b, r) := if k = n then (b, r) else (splice b 0 (leBytes 1 k), clampRec r (addr 0) n k)
  let e := primEnd (prims b)
  let tick := trigEn b 3
  let nth := trigEn b 1
  let noTick := tick && decide (stateUnits e nth tick > 16)
  let noNth := nth && decide (stateUnits e nth (tick && !noTick) > 16)
  let need := stateUnits e (nth && !noNth) (tick && !noTick)
  let have_ := leAt b 8 8
  let (b, r) := if have_ ≥ need then (b, r) else (splice b 8 (leBytes 8 need), clampRec r (addr 8) have_ need)
  let (b, r) := if noTick then (splice b 1 (leBytes 1 (putBits (byteAt b 1) 7 7 0)), clampRec r (addr 1) 1 0) else (b, r)
  if noNth then (splice b 1 (leBytes 1 (putBits (byteAt b 1) 5 5 0)), clampRec r (addr 1) 1 0) else (b, r)

/-- Check an element of types 3 to 9 or 11. -/
def elemCheck (type i : Nat) (b : Bytes) (r : WvRun) : Bytes × WvRun :=
  let a := (elemFields type b).foldl (clampField type i) (b, r)
  if type = 5 then symCheck i a else if type = 7 then featCheck i a else a

/-! ### Register fields (R379) -/

/-- A checked field of a register: its bits, the value applied as a function of the word so far and the value requested. -/
structure RegField where
  hi : Nat
  lo : Nat
  act : Nat → Nat → Nat

/-- A numeric range. -/
def rngField (hi lo a b : Nat) : RegField := ⟨hi, lo, fun _ v => clampN a b v⟩

/-- Values from `n` on act as, or fall to, 0. -/
def zeroField (hi lo n : Nat) : RegField := ⟨hi, lo, fun _ v => if v ≥ n then 0 else v⟩

/-- PL_CFG: NX and NY by the TOPO in force (R269). -/
def plCfgFields : List RegField :=
  [zeroField 30 29 3, ⟨13, 8, fun w v => if bits w 30 29 = 2 then clampN 2 8 v else clampN 2 32 v⟩,
   ⟨3, 0, fun w v => if bits w 30 29 = 2 then clampN 2 8 v else v⟩]

/-- PWR_FLOOR and PWR_TJ (R295, R303). -/
def pwrFields (o : Nat) : List RegField :=
  match o with
  | 0x014 => [rngField 31 24 1 255, rngField 23 16 1 255, rngField 15 8 1 255, rngField 7 0 1 255]
  | 0x018 => [rngField 7 0 0 64, ⟨15, 8, fun w v => clampN (bits w 7 0) 64 v⟩, ⟨23, 16, fun w v => clampN (bits w 15 8) 64 v⟩]
  | 0x01C => [rngField 15 8 90 104, rngField 7 0 85 104]
  | _ => []

/-- Traffic-manager fields. -/
def tmFields (o : Nat) : List RegField :=
  match o with
  | 0x008 => [rngField 15 0 646 65535]
  | 0x024 => [rngField 31 0 1 0xFFFFFFFF]
  | 0x030 => [rngField 9 0 1 1000]
  | 0x034 => [⟨29, 16, fun w v => max (bits w 13 0) v⟩]
  | 0x084 => [rngField 14 0 1 16384]
  | 0x08C => [rngField 23 0 0 12500000]
  | 0x090 => [rngField 15 0 1 65535]
  | 0x0C4 => [rngField 14 0 1 16384]
  | 0x0C8 => [rngField 23 0 0 12500000]
  | 0x0CC => [rngField 15 0 1 65535]
  | _ => if 0x300 ≤ o ∧ o < 0x700 then [rngField 19 16 0 8] else []

/-- Granary fields. -/
def grnFields (o : Nat) : List RegField :=
  match o with
  | 0x000 => [rngField 26 24 0 4, rngField 4 0 8 18]
  | 0x004 => [rngField 4 0 8 17]
  | 0x008 => [rngField 31 0 0 2700000000]
  | 0x00C => [rngField 31 0 0 2700000000]
  | 0x038 => [rngField 26 24 1 7, rngField 23 16 1 255]
  | 0x03C => [rngField 23 16 1 64, rngField 7 0 5 255]
  | 0x040 => [rngField 31 16 1 65535]
  | 0x044 => [rngField 31 0 1 0xFFFFFFFF]
  | _ => []

/-- Bonded-tier fields. -/
def btFields (o : Nat) : List RegField :=
  match o with
  | 0x004 => [rngField 13 8 0 31, ⟨5, 0, fun w v => min (32 - bits w 13 8) v⟩]
  | 0x008 => [rngField 23 16 85 100, ⟨15, 8, fun w v => clampN (bits w 23 16 + 2) 104 v⟩]
  | 0x00C => [rngField 7 0 16 96]
  | 0x010 => [rngField 31 16 1 65535, rngField 7 0 1 255]
  | _ => []

/-- The checked fields of a register. -/
def regFields (b : Block) (o : Nat) : List RegField :=
  match b with
  | .fp => if o = 0 then [zeroField 28 27 2, zeroField 26 24 4, rngField 13 0 64 9600] else []
  | .grn => grnFields o
  | .til => if o = 0x01C then [rngField 22 16 1 64, rngField 14 8 1 64, rngField 6 0 1 64] else if o = 0x020 then [rngField 15 0 1 65535] else []
  | .bt => btFields o
  | .vd =>
    if o = 0x008 then [rngField 31 16 1 65535] else if o = 0x010 then [rngField 31 24 1 255]
    else if o = 0x024 then [zeroField 3 2 3]
    else if 0x040 ≤ o ∧ o < 0x080 then [⟨13, 0, fun _ v => if 1 ≤ v ∧ v < 64 then 64 else v⟩] else []
  | .tm => tmFields o
  | .rq => if o = 0x02C then [rngField 19 0 8 524288] else []
  | .pl =>
    if o = 0 then plCfgFields else if o = 8 then [rngField 11 0 1 4095]
    else if 0x400 ≤ o ∧ o < 0x440 then (List.range 16).map fun i => zeroField (2 * i + 1) (2 * i) 3 else []
  | .pwr => pwrFields o
  | .flt => if o = 0x008 then [rngField 31 16 1 1000] else if o = 0x00C then [rngField 16 0 4096 65536] else []
  | .fls =>
    if o = 0x004 then [rngField 31 16 1 65535, rngField 7 0 1 100] else if o = 0x008 then [rngField 23 16 1 255, rngField 15 0 1 65535]
    else if o = 0x00C then [rngField 15 0 1 65535] else []
  | .smp => if o = 0 then [rngField 31 16 1 65535] else []
  | .obs =>
    if o = 0x018 then [⟨26, 16, fun w v => max (bits w 10 0) v⟩]
    else if 0x040 ≤ o ∧ o < 0x090 then [zeroField 29 27 6] else if o = 0x100 then [rngField 9 0 1 1000] else []
  | .lp => if o = 0x004 then [rngField 15 0 1 65535] else []
  | .pipe | .bind | .shf | .thr | .pll | .hp | .glb => []

/-- Check the fields of a register word that MASK touches. -/
def regClamp (b : Block) (o addr mask w : Nat) (r : WvRun) : Nat × WvRun :=
  (regFields b o).foldl (fun a f =>
    let v := bits a.1 f.hi f.lo
    let x := f.act a.1 v
    if x = v ∨ bits mask f.hi f.lo = 0 then a else (putBits a.1 f.hi f.lo x, clampRec a.2 addr v x)) (w, r)

/-! ### LAYOUT and PLACE (R379, Table WV-5) -/

/-- Least size of an LPDDR5X region in 64 KiB units, greatest, default. -/
def placeLimits (n : Nat) : Nat × Nat × Nat :=
  match n with
  | 1 => (1024, 131072, 4096)
  | 2 => (4096, 1048576, 65536)
  | 3 => (1024, 16384, 4096)
  | 4 => (1, 2097152, 0)
  | 9 => (1, 16384, 256)
  | 10 => (1, 262144, 0)
  | _ => (1, 16384, 256)

/-- The size applied for a size requested: regions 4 and 10 may be 0; crash capture in whole slots of 64 MiB. -/
def placeAct (n v : Nat) : Nat :=
  let (lo, hi, _) := placeLimits n
  if (n = 4 ∨ n = 10) ∧ v = 0 then 0
  else
    let x := clampN lo hi v
    if n = 3 then x / 1024 * 1024 else x

end Sys2Proof.Machine
end

