-- ==== Sys2Proof/Machine/WeaveApply.lean ====
section
/-! DEFINITION. Applying a weave image: the checks of R375, sections, elements and registers, the dependent limits, the digests (R374
to R386). -/

namespace Sys2Proof.Machine

/-! ### Addresses -/

/-- The physical address of a register address: the alias of a logical tile reaches the site it occupies; none: undecoded (R425). -/
def resolveReg (s : State) (a : Nat) : Option Nat :=
  if 0x22000000 ≤ a ∧ a < 0x23400000 then
    (tileGet s ((a - 0x22000000) / 0x100000)).site.map fun t => 0x20000000 + t * 0x100000 + a % 0x100000
  else if (decodeReg a).isSome then some a else none

/-! ### Sections (Tables WV-2 and WV-3) -/

/-- A section entry. -/
structure WSect where
  type : Nat
  live : Bool
  first : Nat
  off : Nat
  size : Nat
deriving DecidableEq, Repr, Inhabited

/-- Section `i` of an image; LIVE is honoured on types 3 to 11 only. -/
def wsectOf (b : Bytes) (i : Nat) : WSect :=
  let a := 256 + 32 * i
  let t := byteAt b a
  { type := t, live := bit (byteAt b (a + 1)) 0 && decide (3 ≤ t ∧ t ≤ 11), first := leAt b (a + 2) 2, off := leAt b (a + 8) 8, size := leAt b (a + 16) 8 }

/-- SECTIONS. -/
def wsectCount (b : Bytes) : Nat := leAt b 10 2

/-- Sections of an image. -/
def wsects (b : Bytes) : List WSect := (List.range (wsectCount b)).map (wsectOf b)

/-- Element size and number of elements of a section type; none: unknown, or no limit. -/
def sectKind (t : Nat) : Option (Nat × Option Nat) :=
  match t with
  | 1 => some (16, some 1)
  | 2 => some (8, some 10)
  | 3 => some (32, some 256)
  | 4 => some (12, some 1024)
  | 5 => some (48, some 16)
  | 6 => some (48, some 512)
  | 7 => some (1280, some 64)
  | 8 => some (1040, some 16)
  | 9 => some (16, some 4096)
  | 10 => some (16, none)
  | 11 => some (1, some 256)
  | _ => none

/-- The structure digest of an image (R382). -/
def weaveStructure (b : Bytes) : Bytes := digest64 (((wsects b).filter fun x => !x.live).flatMap fun x => slice b x.off x.size)

/-! ### Rejection of an image (R375) -/

/-- MAGIC, FORMAT, reserved header fields, KIND. -/
def weaveHeader (b : Bytes) (kind : Nat) : Bool :=
  leAt b 0 4 == 0x56414557 && leAt b 4 2 == 1 && decide (byteAt b 6 < 4) && byteAt b 7 == kind && decide (byteAt b 12 < 64) && zeros b 13 3 &&
  zeros b 40 24 && zeros b 128 128 && (kind == 1 || zeros b 64 64)

/-- Every section lies inside the image, and no two overlap. -/
def weaveTable (b : Bytes) : Bool :=
  let base := 256 + 32 * wsectCount b
  let l := wsects b
  (l.all fun x => decide (base ≤ x.off ∧ x.off + x.size ≤ imgLen b)) &&
  (List.range l.length).all fun i => (List.range i).all fun j =>
    !overlaps (l.getD i default).off (l.getD i default).size (l.getD j default).off (l.getD j default).size

/-- The STATUS with which an image is rejected whole, if it is. -/
def weaveCheck (s : State) (b : Bytes) (kind : Nat) : Option Nat :=
  let r := byteAt b 6 % 4
  if !weaveHeader b kind || !weaveTable b then some 1
  else if leAt b 8 2 ≠ 0x00B2 then some 2
  else if kind = 1 ∧ slice b 64 64 ≠ slice s.wv.structure_ 0 64 then some 3
  else if rootState s r ≠ 1 then some 5
  else if Config.slhVerify (rootKey s r) (imgDigest b) (slice b (imgLen b) sigBytes) then none else some 4

/-! ### Table elements -/

/-- An element list of zeros is the default. -/
def normElem (b : Bytes) : Bytes := if b.all fun x => x == 0 then [] else b

/-- Write element `i` of a table. -/
def putElem (s : State) (type i : Nat) (b : Bytes) : State :=
  let w := s.weave
  match type with
  | 3 =>
    let ws := (List.range 8).map fun j => leAt b (4 * j) 4
    { s with weave := { w with nodes := tset [] w.nodes i (if ws.all fun x => x == 0 then [] else ws) } }
  | 4 => { s with weave := { w with trans := tset (0, 0, 0) w.trans i (leAt b 0 4, leAt b 4 4, leAt b 8 4) } }
  | 5 => { s with weave := { w with keyProfs := tset [] w.keyProfs i (normElem b) } }
  | 6 => { s with weave := { w with classes := tset [] w.classes i (normElem b) } }
  | 7 => { s with weave := { w with featProfs := tset [] w.featProfs i (normElem b) } }
  | 8 => { s with weave := { w with cats := tset [] w.cats i (normElem b) } }
  | 9 => (List.range 4).foldl (fun s j => actWrite s (i / 1024) (i % 1024) j (leAt b (4 * j) 4)) s
  | 11 => { s with weave := { w with profMap := tset (i % 64) w.profMap i (byteAt b 0 % 64) } }
  | _ => s

/-- One element of a table section: checked, written. -/
def tableElem (type i : Nat) (b : Bytes) (r : WvRun) : WvRun :=
  let (b, r) := elemCheck type i b r
  r.put (putElem r.st type i b)

/-! ### REG elements (R377) -/

/-- Bits of a register that are RW as the weave image sees them: SLOTS of FLT_JRNL is RW to the image only (R330). -/
def weaveMask (b : Block) (o : Nat) (r : RegRow) : Nat := if b == .flt && o == 0x00C then 0x1FFFF else r.rw

/-- Live bits of a register: of the Granary configurations only the report queue (R325). -/
def liveMask (b : Block) (o : Nat) (r : RegRow) : Nat :=
  if !r.live then 0 else if b == .grn && (o == 0 || o == 4) then 0x60000000 else r.rw

/-- Bits of a weave-settable register that hold a field which is not RW: QBASE and QCOUNT of TM_PORT_CFG. A reserved field ("—") holds
nothing, and the value written to it is ignored (R10, log entry 40). -/
def roFields (b : Block) (o : Nat) : Nat := if b == .tm && decide (0x010 ≤ o ∧ o ≤ 0x01C) then 0x0CF00000 else 0

/-- Mask bits for which a REG element is rejected (R377): a field that is not RW, and in a patch a field that is not live. -/
def regForbidden (full : Bool) (b : Block) (o : Nat) (r : RegRow) : Nat :=
  roFields b o ||| (if full then 0 else weaveMask b o r ^^^ (weaveMask b o r &&& liveMask b o r))

/-- The plain store of a row's RW bits. -/
def rowPut (s : State) (a v mask : Nat) : State := rgw s a (mergeBits (rg s a) v mask)

/-- Store a register as a start does: no lock of a unit in service stands in the way. -/
def startPut (s : State) (a v : Nat) (b : Block) (i o : Nat) (r : RegRow) : State :=
  let plain := rowPut s a v (weaveMask b o r)
  match b with
  | .fp => if o = 0 then rowPut s a v (if i % 2 = 1 then 0x07FF3FFF else 0x1FFF3FFF) else plain
  | .grn => if o = 0x044 then evictSeedWrite s i v else plain
  | .rq =>
    let q := rgf s rRQ_SEL 5 0
    if o = 0x024 then rqPut s q { rqGet s q with cfg := BitVec.ofNat 32 (v &&& 0xC7000000) }
    else if o = 0x028 then rqPut s q { rqGet s q with min := v % 2 ^ 20 }
    else if o = 0x02C then rqPut s q { rqGet s q with limit := v % 2 ^ 20 }
    else plain
  | .vd => match vdRegWrite s i o v with | some e => e.1 | none => plain
  | .tm => (tmRegWrite s i o v).getD plain
  | .til | .obs => regWrite s a v
  | _ => plain

/-- A patched MIN that would break the sum of R240. -/
def minBreaks (s : State) (b : Block) (o v : Nat) : Bool :=
  let q := rgf s rRQ_SEL 5 0
  b == .rq && o == 0x028 && decide (((List.range 64).map fun i => if i = q then 0 else (rqGet s i).min).sum + v % 2 ^ 20 > 524288)

/-- One REG element. -/
def regElem (full : Bool) (e : Bytes) (r : WvRun) : WvRun :=
  let addr := leAt e 0 8
  let v := leAt e 8 4
  let mask := leAt e 12 4
  match resolveReg r.st addr with
  | none => rejectRec r addr
  | some a =>
    match decodeReg a, regRow a with
    | some (b, i, o), some row =>
      if !row.weave || decide (addr % 4 ≠ 0) || decide (mask &&& regForbidden full b o row ≠ 0) || (!full && !row.live) then rejectRec r addr
      else
        let mask := mask &&& weaveMask b o row
        let (w, r') := regClamp b o addr mask (mergeBits (regRead r.st a).1 v mask) r
        if full then
          let r' := if b == .fp && o == 0 && bit mask 31 then
              { r' with en := (r'.en.filter fun n => n != i) ++ (if bit w 31 then [i] else []) } else r'
          r'.put (startPut r'.st a w b i o row)
        else if minBreaks r.st b o w then rejectRec r addr
        else r'.put (regWrite r'.st a w)
    | _, _ => rejectRec r addr

/-! ### LAYOUT and PLACE elements (R379, Table WV-5) -/

/-- The LAYOUT element. -/
def layoutElem (b : Bytes) (r : WvRun) : WvRun :=
  let r := nameField r (tabAddr 1 0 0)
  let mode := byteAt b 0
  let r := if mode > 1 then clampRec r (tabAddr 1 0 0) mode 0 else r
  let pool := clampN 1 8 (byteAt b 2)
  let r := if pool = byteAt b 2 then r else clampRec r (tabAddr 1 0 2) (byteAt b 2) pool
  let c := putBits (putBits (putBits (rg r.st rGLB_CONFIG) 29 29 (if mode = 1 then 1 else 0)) 23 16 (byteAt b 1)) 15 12 pool
  r.put ((List.range 16).foldl (fun s n => rgwf s (rTM_PORT_CFG (n / 4) (n % 4)) 27 26 (bits (leAt b 4 4) (2 * n + 1) (2 * n))) (rgw r.st rGLB_CONFIG c))

/-- Size of a region in hand. -/
def regionSize (s : State) (n : Nat) : Nat := (tget (0, 0) s.wv.regions n).2

/-- Store a region: offset, size in 64 KiB units. -/
def regionPut (s : State) (n off size : Nat) : State := { s with wv := { s.wv with regions := tset (0, 0) s.wv.regions n (off, size) } }

/-- A PLACE element. -/
def placeElem (i : Nat) (b : Bytes) (r : WvRun) : WvRun :=
  let n := byteAt b 0
  if n < 1 ∨ n > 10 then rejectRec r (tabAddr 2 i 0)
  else
    let v := leAt b 4 4
    let x := placeAct n v
    let r := if x = v then r else clampRec r (tabAddr 2 i 4) v x
    (nameField r (tabAddr 2 n 0)).put (regionPut r.st n 0 x)

/-! ### Sections in turn (R376, R386) -/

/-- A section is skipped: unknown, of a wrong size, past the last element, a second one of its type in a full image; in a patch, not
replaceable. -/
def sectSkipped (full : Bool) (s : State) (seen : List Nat) (x : WSect) : Bool :=
  match sectKind x.type with
  | none => true
  | some (z, n) =>
    x.size % z != 0 ||
    (match n with | some n => decide ((if x.type ≤ 2 then 0 else x.first) + x.size / z > n) | none => false) ||
    (if full then x.type != 10 && seen.contains x.type else decide (x.type ≤ 2) || (x.type != 10 && !s.wv.live.contains x.type))

/-- The elements of a section. -/
def sectElems (full : Bool) (b : Bytes) (x : WSect) (r : WvRun) : WvRun :=
  match sectKind x.type with
  | none => r
  | some (z, _) =>
    (List.range (x.size / z)).foldl (fun r i =>
      let e := slice b (x.off + z * i) z
      let r := { r with elem := i }
      match x.type with
      | 1 => layoutElem e r
      | 2 => placeElem i e r
      | 10 => regElem full e r
      | t => tableElem t (x.first + i) e r) r

/-- Every section of an image in section-table order. -/
def runSects (full : Bool) (b : Bytes) (r : WvRun) : WvRun :=
  ((List.range (wsectCount b)).foldl (fun (a : WvRun × List Nat) i =>
    let x := wsectOf b i
    let r := { a.1 with sect := i, elem := 0 }
    (if sectSkipped full r.st a.2 x then rejectRec r 0 else sectElems full b x r, x.type :: a.2)) (r, [])).1

/-- A run that begins. -/
def runOf (s : State) : WvRun := { st := s, recs := [], clamps := 0, rejects := 0, en := [], sect := 0, elem := 0 }

/-! ### Dependent limits (R380) -/

/-- Repeat a step that lowers something until there is nothing to lower. -/
def lowerAll (f : WvRun → Option WvRun) : Nat → WvRun → WvRun
  | 0, r => r
  | n + 1, r => match f r with | some r => lowerAll f n r | none => r

/-- The place of the largest value, the highest-numbered of several. -/
def topIndex (l : List Nat) : Nat := (List.range l.length).foldl (fun a i => if l.getD i 0 ≥ l.getD a 0 then i else a) 0

/-- Step 1: one QCOUNT of partition `p` is lowered a step. -/
def qcountStep (p : Nat) (r : WvRun) : Option WvRun :=
  let l := (List.range 4).map fun i => rgf r.st (rTM_PORT_CFG p i) 27 26
  if (l.map fun c => 1024 * 2 ^ c).sum ≤ 16384 then none
  else
    let i := topIndex l
    let v := l.getD i 0
    some ((depRec r (tabAddr 1 0 0) (tabAddr 1 0 (4 + p)) v (v - 1)).put (rgwf r.st (rTM_PORT_CFG p i) 27 26 (v - 1)))

/-- QBASE: the blocks of a partition's ports follow each other. -/
def qbases (s : State) (p : Nat) : State :=
  ((List.range 4).foldl (fun (a : State × Nat) i =>
    (rgwf a.1 (rTM_PORT_CFG p i) 23 20 a.2, a.2 + 2 ^ rgf a.1 (rTM_PORT_CFG p i) 27 26)) (s, 0)).1

/-- Step 2: MIN values are lowered from queue 63 downward (R240). -/
def minFit (r : WvRun) : WvRun :=
  ((List.range 64).map fun i => 63 - i).foldl (fun r q =>
    let excess := ((List.range 64).map fun i => (rqGet r.st i).min).sum - 524288
    let v := (rqGet r.st q).min
    let x := v - excess
    if x = v then r else (clampRec r rRQ_Q_MIN v x).put (rqPut r.st q { rqGet r.st q with min := x })) r

/-- Step 3: one endpoint WAY_LOG2 is lowered (R61). -/
def epStep (r : WvRun) : Option WvRun :=
  let l := (List.range 4).map fun p => wayLog2 r.st p true
  if (l.map fun w => 32 * 2 ^ w).sum ≤ 4194304 then none
  else
    let p := topIndex l
    let v := l.getD p 0
    some ((clampRec r (rGRN_EP_CFG p) v (v - 1)).put (rgwf r.st (rGRN_EP_CFG p) 4 0 (v - 1)))

/-- Step 4: a region takes its place after those before it, or shrinks to what is left. -/
def regionStep (a : WvRun × Nat) (n : Nat) : WvRun × Nat :=
  let (r, at_) := a
  let z := regionSize r.st n
  let room := rgf r.st rGLB_CONFIG 8 0 * 16384 - at_
  let x := if n = 3 then room / 1024 * 1024 else room
  let y := if z ≤ room then z else if x < (placeLimits n).1 then 0 else x
  let r := if y = z then r else depRec r (tabAddr 2 n 0) (tabAddr 2 (namedBy r (tabAddr 2 n 0)).2 4) z y
  (r.put (regionPut r.st n at_ y), at_ + y)

/-- Registers that show where the capture region, the rings and the trace lie. -/
def regionRegs (s : State) : State :=
  let e := fun (n : Nat) => tget (0, 0) s.wv.regions n
  let s := rgw (rgw s rOBS_SRING_BASE (e 9).1) rOBS_SRING_SIZE (e 9).2
  let s := rgw (rgw s rOBS_TRC_BASE (e 10).1) rOBS_TRC_SIZE (e 10).2
  let s := (List.range 4).foldl (fun s p => rgw (rgw s (rVD_CAP_BASE p) (e 4).1) (rVD_CAP_SIZE p) (e 4).2) s
  (List.range 4).foldl (fun s p => rgw (rgw s (rTM_SRING_BASE p) (e (5 + p)).1) (rTM_SRING_SIZE p) (e (5 + p)).2) s

/-- Every region in turn; what is left is the model pool. -/
def placeRegions (r : WvRun) : WvRun :=
  let (r, at_) := ([1, 2, 3, 4, 5, 6, 7, 8, 9, 10] : List Nat).foldl regionStep (r, 0)
  r.put (regionRegs { r.st with wv := { r.st.wv with poolAt := at_ } })

/-- FS_STRIDE rises to the largest state of a profile that a class of the class table, or class 255, uses (R63). -/
def strideFit (p : Nat) (r : WvRun) : WvRun :=
  let cs : List Nat := 255 :: (r.st.weave.classes.filter fun e => bit (byteAt e.2 6) 7).map fun e => byteAt e.2 40
  let z := (cs.map fun k => stateSize (profileOf r.st k).2).foldl max 64
  let c := (([0, 1, 2, 3, 4] : List Nat).find? fun c => decide (z ≤ 64 * 2 ^ c)).getD 4
  let v := rgf r.st (rGRN_FLOW_CFG p) 26 24
  if c ≤ v then r else (clampRec r (rGRN_FLOW_CFG p) v c).put (rgwf r.st (rGRN_FLOW_CFG p) 26 24 c)

/-- Home space of partition `p` beside its history regions and the report queues' pool (R380 step 5). -/
def homeSpace (s : State) (p : Nat) : Nat :=
  2 ^ 31 - ((List.range 1024).map fun i => let e := histRegion s (1024 * p + i); e.2 - e.1).sum - (if p = 3 then 34 * 2 ^ 20 else 0)

/-- A structure of every partition fits. -/
def poolFits (s : State) : Bool := (List.range 4).all fun p => decide (tierPool s ≤ homeSpace s p)

/-- Step 5, first: the pool is lowered by 256 MiB. -/
def poolStep (r : WvRun) : Option WvRun :=
  let v := rgf r.st rGLB_CONFIG 15 12
  if poolFits r.st || decide (v ≤ 1) then none else some ((depRec r (tabAddr 1 0 0) (tabAddr 1 0 2) v (v - 1)).put (rgwf r.st rGLB_CONFIG 15 12 (v - 1)))

/-- Step 5, then: SLOTS is halved. -/
def slotsStep (r : WvRun) : Option WvRun :=
  let v := jSlots r.st
  let x := max 4096 (v / 2)
  if poolFits r.st || decide (v ≤ 4096) then none else some ((clampRec r rFLT_JRNL v x).put (rgw r.st rFLT_JRNL x))

/-- Step 5, last: a flow WAY_LOG2 is lowered. -/
def flowStep (p : Nat) (r : WvRun) : Option WvRun :=
  let v := wayLog2 r.st p false
  if tierPool r.st + tierTables r.st p ≤ homeSpace r.st p ∨ v ≤ 8 then none
  else some ((clampRec r (rGRN_FLOW_CFG p) v (v - 1)).put (rgwf r.st (rGRN_FLOW_CFG p) 4 0 (v - 1)))

/-- The dependent limits in order. -/
def dependents (r : WvRun) : WvRun :=
  let r := { r with sect := 0, elem := 0 }
  let r := (List.range 4).foldl (fun r p => let r := lowerAll (qcountStep p) 16 r; r.put (qbases r.st p)) r
  let r := minFit r
  let r := lowerAll epStep 64 r
  let r := placeRegions r
  let r := (List.range 4).foldl (fun r p => strideFit p r) r
  let r := lowerAll slotsStep 8 (lowerAll poolStep 8 r)
  (List.range 4).foldl (fun r p => lowerAll (flowStep p) 16 r) r

/-! ### A full image (R384, R385) -/

/-- Every field at its reset value, before the image's own: the registers and tables that an image sets; those that keep their values
across a chip reset only where the default image asks for it (`all`; log entry 97). -/
def weaveReset (s : State) (all : Bool) : State :=
  let regs := s.regs.filter fun e => match regRow e.1 with | some r => !r.weave || (r.keep && !all) | none => true
  let s := { s with regs := regs, tms := [], vds := [], weave := { nodes := [], trans := [], keyProfs := [], classes := [], cats := [], profMap := [], featProfs := [] },
                    rq := { s.rq with queues := s.rq.queues.map fun e => (e.1, { e.2 with cfg := rqQueue0.cfg, min := 0, limit := rqQueue0.limit }) } }
  let s := rgwf (rgwf (rgwf s rGLB_CONFIG 29 29 0) rGLB_CONFIG 23 16 0) rGLB_CONFIG 15 12 2
  ([1, 2, 3, 4, 5, 6, 7, 8, 9, 10] : List Nat).foldl (fun s n => regionPut s n 0 (placeLimits n).2.2) s

/-- The tables of the default parse graph (R384). -/
def defaultTables (s : State) : State :=
  let s := (List.range 19).foldl (fun s i => putElem s 3 i (slice (Config.defaultParseNode i) 0 32)) s
  let s := (List.range 1024).foldl (fun s i => let e := Config.defaultTrans i; putElem s 4 i (leBytes 4 e.1 ++ leBytes 4 e.2.1 ++ leBytes 4 e.2.2)) s
  putElem s 5 15 (slice Config.defaultKeyProf 0 48)

/-- Tables that are enabled start empty with their budgets full (R84). -/
def enableTables (s : State) : State :=
  (List.range 4).foldl (fun s p => [false, true].foldl (fun s ep => if grnOn s p ep then grnEnable s p ep else s) s) s

/-- Records of a run go to the island, which holds them until the report queues are loaded. -/
def holdAll (s : State) (q : Nat) (l : List (Nat × WvInfo)) : State := l.foldl (fun s e => wvHold s q e.1 e.2) s

/-- An image's values are in force: the dependent limits, digests, epoch, sites, APPLIED, and the ports enabled last. -/
def applyEnd (r : WvRun) (q : Nat) (structure_ : Bytes) (live : List Nat) (default_ : Bool) (slot : Nat) (oldMode : Bool) : State :=
  let r := dependents r
  let s := r.st
  let s := { s with wv := { s.wv with structure_ := structure_, live := live, default_ := default_, slot := slot } }
  let s := ringUpdate (epochAdvance (enableTables s) 1)
  let s := if unguarded s != oldMode then (List.range 4).foldl assignSites s else s
  let s := wvLast (holdAll s q r.recs) q 3 { count := r.clamps, rejects := r.rejects }
  r.en.foldl (fun s n => fpCfgWrite s n (rg s (rFP_CFG n) ||| 2 ^ 31)) s

/-- Apply a full image of slot `slot`. -/
def applyImage (s : State) (slot : Nat) (b : Bytes) : State :=
  let mode := unguarded s
  let live := ((wsects b).filter fun x => x.live).map fun x => x.type
  applyEnd (runSects true b (runOf (weaveReset s false))) (byteAt b 12) (weaveStructure b) live.eraseDups false slot mode

/-- Apply the built-in default image. -/
def applyDefault (s : State) : State :=
  let mode := unguarded s
  applyEnd (runOf (defaultTables (weaveReset s true))) 0 (slice Config.defaultStructure 0 64) [] true s.wv.slot mode

/-- Weave slots that hold an image, the higher SEQ first. -/
def weaveSlots (s : State) : List (Nat × Nat × Bytes) :=
  let get := fun (k : Nat) => match weaveGet s k with | some e => [(k, e)] | none => []
  match get 0, get 1 with
  | [a], [b] => if b.2.1 > a.2.1 then [b, a] else [a, b]
  | a, b => a ++ b

/-- The weave stage (R384): the newest image that passes, else the default; a failing slot raises FAILED. -/
def weaveStage (s : State) : State :=
  if s.boot.defWeave || !flsMounted s then applyDefault s
  else
    let l := weaveSlots s
    let bad := l.takeWhile fun e => (weaveCheck s e.2.2 0).isSome
    let s := bad.foldl (fun s e => wvHold s (byteAt e.2.2 12) 5 { status := (weaveCheck s e.2.2 0).getD 0 }) s
    match l.drop bad.length with
    | e :: _ => applyImage s e.1 e.2.2
    | [] => applyDefault s

/-! ### A patch (R386, R387) -/

/-- What a patch does at its switch, epoch apart. -/
def patchRun (s : State) (b : Bytes) : WvRun := runSects false b (runOf s)

end Sys2Proof.Machine
end

