-- ==== Sys2Proof/Machine/Start.lean ====
section
/-! DEFINITION. Starts: the stages, their bounds and findings, RUNNING, safe start and host-load state, supplies (R390 to R402, R405,
R410, R437 to R440). -/

namespace Sys2Proof.Machine

/-! ### Secrets and stored identity (R402, R404, R405) -/

/-- ASCII bytes. -/
def ascii (t : String) : Bytes := t.toList.map fun c => BitVec.ofNat 8 c.toNat

/-- The identity seed. -/
def idSeed : Bytes := shake256 96 (ascii "AX960-IK" ++ Config.uds)

/-- K_store. -/
def kStore : Bytes := shake256 32 (ascii "AX960-ST" ++ Config.uds)

/-- The public part of IK. -/
def ikPublic : Bytes := slice (Config.slhPublic idSeed) 0 64

/-- The tag of an ENROL body. -/
def enrolTag (b : Bytes) : Bytes := shake256 32 (kStore ++ slice b 0 264)

/-- An ENROL body: EPOCH, the four slots of 65 bytes, the tag. -/
def enrolMake (epoch : Nat) (slots : Bytes) : Bytes :=
  let b := leBytes 4 epoch ++ slice slots 0 260
  b ++ enrolTag b

/-- Copies of ENROL that are intact: the tag holds, EPOCH is E or E + 1. -/
def enrolIntact (s : State) (c : Option (Nat × Bytes)) : Option (Nat × Bytes) :=
  match c with
  | some x => if slice x.2 264 32 = enrolTag x.2 ∧ (leAt x.2 0 4 = s.boot.epoch ∨ leAt x.2 0 4 = s.boot.epoch + 1) then some x else none
  | none => none

/-- ENROL before its resolution at a mount: a change that was cut short is completed (R402). -/
def enrolMount (s : State) : State :=
  let l := (copiesOf s 2).map (enrolIntact s)
  let newer : Option (Nat × Bytes) → Bool := fun c => match c with | some x => leAt x.2 0 4 == s.boot.epoch + 1 | none => false
  let keep := fun (s : State) (ok : Option (Nat × Bytes) → Bool) =>
    (List.range 3).foldl (fun t i => if (fUnitOf s 2 0 i).isSome && !ok (l.getD i none) then fUnitDrop t 2 0 i else t) s
  if l.any newer then keep { s with boot := { s.boot with epoch := s.boot.epoch + 1 } } newer else keep s fun c => c.isSome

/-- The first ENROL of a device, cut short before its last fuse, is completed: LIFECYCLE becomes CLAIMED (R402, R403). -/
def claimMount (s : State) : State :=
  if s.boot.lifecycle = 1 ∧ s.boot.epoch ≠ 0 then { s with boot := { s.boot with lifecycle := 2 } } else s

/-! ### Firmware (R398) -/

/-- Status of a firmware image: 0, or the code of Table STA-6 of the check that fails. -/
def fwCheck (s : State) (b : Bytes) : Nat :=
  let v := byteAt b 6 % 2
  let n := leAt b 16 8
  if !Config.slhVerify (slice (Config.vroot v) 0 64) (digest64 (b.take n)) (slice b n sigBytes) then 2
  else if !(leAt b 0 4 == 0x57524946 && leAt b 4 2 == 1 && decide (byteAt b 6 < 2) && decide (byteAt b 7 < 2) && leAt b 8 2 == 0x00B2 &&
            byteAt b 11 == 0 && zeros b 24 232 && n % 64 == 0 && decide (n + sigBytes ≤ 2 ^ 23) && decide (byteAt b 10 ≤ 64)) then 5
  else if bit s.boot.revoked v then 5
  else if byteAt b 10 < s.boot.svnMin then 3
  else 0

/-- SVN of the running firmware. -/
def fwSvn (s : State) : Nat := byteAt s.boot.fw 10

/-! ### Bounds (R391) -/

/-- The bound of a stage in ms; `long`: the mount rebuilds by scan, or links are retrained. -/
def stageBound (s : State) (long : Bool) : Nat :=
  match s.boot.stage with
  | 1 => 50
  | 2 => 5
  | 3 => if long then 3500 else 1500
  | 4 => 50
  | 5 => 1
  | 6 => 2500
  | 7 => 10
  | 8 => if s.boot.warm then 20 else 1500
  | 9 => if s.boot.warm then (if long then 1500 else 50) else 2000
  | 10 => 200
  | _ => if s.boot.warm then 1200 else 500

/-- The stage, or the whole start, has exceeded its bound. -/
def stageLate (s : State) (long : Bool) : Bool :=
  decide (s.gt > s.boot.stageAt + stageBound s long * 1000000) ||
  decide (s.gt - s.boot.began - s.boot.held > (if s.boot.warm then 3 else 12) * 1000000000)

/-- A stage runs and may end: supplies stand, nothing has stopped the device. -/
def stageRuns (s : State) : Bool := starting s && s.boot.main && !s.pwr.fail && !s.pwr.tripped && !s.flt.islHalted

/-! ### Host-load state and safe start (R396, R399) -/

/-- The start waits in host-load state, for a cause. -/
def hostLoad (s : State) (cause : Nat) : State :=
  stageEnter (startRecord { s with boot := { s.boot with heldAt := some s.gt, fw := [] } } 0x34 (leBytes 1 cause)) stHost

/-- Time that was not counted ends. -/
def heldEnd (s : State) : State :=
  match s.boot.heldAt with
  | some t => { s with boot := { s.boot with held := s.boot.held + (s.gt - t), heldAt := none } }
  | none => s

/-- After stage 0x04: firmware runs; the check of R396, then stage 0x05. -/
def firmwareRuns (s : State) (fw : Bytes) (byHost : Bool) : State :=
  let s := { s with boot := { s.boot with fw := fw, hostLoaded := byHost } }
  if s.boot.f ≥ 3 then safeStart s else stageEnter s 5

/-! ### Stage 0x03: mount (R345, R346, R349, R352, R394) -/

/-- F from the newest start record of the log. -/
def restoreF (s : State) : Nat :=
  match ((smpLogged s).filter fun r => decide (0x30 ≤ r.type ∧ r.type ≤ 0x33)).getLast? with
  | none => 0
  | some r => if r.type = 0x31 then 0 else if r.type = 0x32 then byteAt r.body 1 else byteAt r.body 0

/-- The newest LIFE_SNAP of the log (rebuild of LIFE by scan). -/
def lifeScan (s : State) : Option Bytes := ((smpLogged s).filter fun r => r.type == 0x15).getLast?.map fun r => r.body

/-- A copy is found not intact: its mark is gone; of the firmware, a page cannot be read (Table STA-10). -/
def copyLost (s : State) (e : Nat × Nat) : State :=
  match (fUnitsNewest (fUnitsScan s)).find? (fUnitIs (copyKind e.1) 0 e.2) with
  | none => s
  | some u =>
    let k := pgKey u.blk (if e.1 = 9 then 0 else u.pages)
    { s with flash := { s.flash with pages := tset fpage0 s.flash.pages k (if e.1 = 9 then { pageGet s k with lost := [0] } else fpage0) } }

/-- A flash channel whose targets break no limit of R333. -/
def fcFits (l : List FlashTarget) : Bool :=
  match l with
  | [] => false
  | t :: r => decide (r.length < 8) && r.all (fun u => u == t) && decide (t.page = 16384 ∧ 1920 ≤ t.spare ∧ 1 ≤ t.planes ∧ t.planes ≤ 4)

/-- Capacity that a channel's targets report. -/
def fcGib (l : List FlashTarget) : Nat := (l.map fun t => t.gib).sum

/-- GEOMETRY: the flash channels that are not mounted (R333). -/
def fcUnmounted (i : StageIn) : Nat :=
  let total := fcGib i.fc0 + fcGib i.fc1
  if total < 64 ∨ 4096 < total then 3 else b2n (!fcFits i.fc0) + 2 * b2n (!fcFits i.fc1)

/-- The flash as its mounted channels report it; their interface runs NV-LPDDR4 (R333, R334). -/
def fcMount (s : State) (i : StageIn) : State :=
  let u := fcUnmounted i
  let t := ((if bit u 0 then [] else i.fc0) ++ if bit u 1 then [] else i.fc1)
  let p := t.headD default
  let s := { s with flash := { s.flash with blockPages := p.blockPages, levels := p.levels, lpddr4 := 3 - u } }
  rgw (rgwf (rgwb (rgwb s rFLS_STATUS 31 true) rFLS_STATUS 30 false) rFLS_STATUS 28 27 u) rFLS_CAPACITY (fcGib t % 65536)

/-- What a mount meets before resolution: copies and log pages that cannot be read. -/
def mountDamage (s : State) (i : StageIn) : State :=
  let s := i.lost.foldl copyLost s
  let gone := s.smp.log.filter fun p => i.gaps.contains p.num
  bumpN { s with smp := { s.smp with log := s.smp.log.filter fun p => !i.gaps.contains p.num } } rSMP_GAPS gone.length

/-- No structure of any kind has an intact copy. -/
def flashFresh (s : State) : Bool := !(fUnitsScan s).any fun u => decide (1 ≤ u.kind ∧ u.kind ≤ 8) || u.kind == 0x43

/-- Format a fresh flash: every area empty, the blocks with a factory mark bad, a checkpoint of the empty MAP. -/
def flashFormat (s : State) (factory : List Nat) : State :=
  let s := rgwb { s with smp := { s.smp with log := [], pages := 0 },
                         flash := { s.flash with pages := [], units := [], journal := [], nextBatch := 1, unusable := [], nextCap := 0,
                                                 blocks := s.flash.blocks.map fun e => (e.1, { e.2 with valid := false }) } } rFLS_STATUS 30 true
  checkpoint (checkpoint (factory.foldl (fun s b => blkRetire s b 1) s))

/-- The bad blocks that the log's BLOCK_RETIRE records and the factory marks give. -/
def bbtScan (s : State) (factory : List Nat) : List Nat :=
  factory ++ ((smpLogged s).filter fun r => r.type == 0x13).map fun r =>
    byteAt r.body 0 * 2 ^ 28 + byteAt r.body 1 * 2 ^ 24 + byteAt r.body 2 * 2 ^ 20 + leAt r.body 3 4

/-- The copies of MAP or bad-block table that a scan finds. -/
def ckptCopies (s : State) (scan : List FUnit) (n : Nat) : List (Option (Nat × Bytes)) :=
  ([0, 1] : List Nat).map fun i => (scan.find? (fUnitIs n 0 i)).bind (fUnitRead s)

/-- The MAP and the bad blocks as they are mounted (R342): the checkpoint resolved under R345, then the batches after it in SEQ order;
a MAP without a usable copy is rebuilt by scan. Answers what was rebuilt too, as a bitmap by structure. -/
def mapMount (s : State) (factory : List Nat) : (List FUnit × List Nat) × Nat :=
  let scan := fUnitsNewest (fUnitsScan s)
  let r7 := resolve 7 (ckptCopies s scan 7) (some (mapBody (scan.filter fun u => u.kind != 0x40)))
  let r6 := resolve 6 (ckptCopies s scan 6) (some (bbtBody (bbtScan s factory)))
  let units := ((jEntries r7.body).foldl jApply ([], [])).1
  let bad := (List.range (r6.body.length / 8)).map fun i => leAt r6.body (8 * i) 8
  let all := fUnitsScan s
  let a := if r7.rebuilt then (units, bad) else jReplay s all all.length (maxSeq (ckptCopies s scan 7) + 1) (units, bad)
  (a, 2 ^ 6 * b2n r6.rebuilt + 2 ^ 7 * b2n r7.rebuilt)

/-- The working MAP after a mount: its units, the blocks that hold them or are bad, the two checkpoint structures resolved and written
anew with a SEQ above every one seen. -/
def mapLoad (s : State) (factory : List Nat) : State × Nat :=
  let scan := fUnitsScan s
  let ck := (fUnitsNewest scan).filter fun u => u.kind == 6 || u.kind == 7
  let ((units, bad), bits_) := mapMount s factory
  let all := units ++ ck
  let flags := fun (e : Nat × FBlock) => (e.1, { e.2 with valid := all.any (fun u => u.blk == e.1), bad := bad.contains e.1 })
  let s := { s with flash := { s.flash with units := all, journal := [], blocks := s.flash.blocks.map flags } }
  let s := bad.foldl (fun s b => blkPut s b { blkGet s b with bad := true, valid := false }) s
  let s := all.foldl (fun s u => blkPut s u.blk { blkGet s u.blk with valid := true }) s
  let s := ([6, 7] : List Nat).foldl (fun s n =>
    copyReport s n (resolve n (ckptCopies s (fUnitsNewest scan) n) (some []))) s
  let q := (scan.filter fun u => u.kind == 0x40 || u.kind == 6 || u.kind == 7).map fun u => u.seq
  (checkpoint (checkpoint { s with flash := { s.flash with nextBatch := q.foldl max 0 + 2 } }), bits_)

/-- Structures that this mount rebuilds by scan, as a bitmap by number. -/
def rebuilt (s : State) : Nat :=
  2 ^ 5 * b2n (resolve 5 (copiesOf s 5) (lifeScan s)).rebuilt + 2 ^ 8 * b2n (resolve 8 (copiesOf s 8) (some (libIndex s))).rebuilt

/-- The sequence resumes one above the highest in the log; records that the ring holds from before the mount follow on. -/
def smpResume (s : State) : State :=
  match (smpLogged s).getLast? with
  | none => s
  | some r =>
    let b := r.seq + 1
    { s with smp := { s.smp with next := s.smp.next + b, cursor := s.smp.cursor + b, ring := s.smp.ring.map fun x => { x with seq := x.seq + b },
                                 pages := match s.smp.log.getLast? with | some p => max s.smp.pages (p.num + 1) | none => s.smp.pages } }

/-- The mount: damage, format, ENROL's own checks, resolution of each structure, LIFE, the repair map, the Sampler's sequence, MOUNT. -/
def flashMount (s : State) (i : StageIn) : State :=
  let s := fcMount (mountDamage s i) i
  let fresh := flashFresh s
  let (s, bits_) := if fresh then (flashFormat s i.factory, 0) else
    let (s, b) := mapLoad s i.factory
    let s := claimMount (enrolMount s)
    (s, b + rebuilt s)
  let roots := fun (s : State) => if (flsBody s 2).isEmpty then flsUpdate s 2 (enrolMake s.boot.epoch []) else s
  let s := if fresh then roots (([1, 3, 4, 5, 8] : List Nat).foldl (fun s n => flsUpdate s n (copyDefault n)) s)
    else
      let s := mountCopy (roots (mountCopy (mountCopy s 1 none) 2 none)) 3 none
      mountCopy (mountCopy (mountCopy s 4 none) 5 (lifeScan s)) 8 (some (libIndex s))
  let s := lifeLoad s (flsBody s 5)
  let s := smpResume { s with flt := { s.flt with repair := flsBody s 3 } }
  startRecord { s with boot := { s.boot with idMismatch := decide (slice (flsBody s 1) 16 64 ≠ ikPublic) } } 0x10
    (leBytes 4 bits_ ++ leBytes 4 ((flsRegRead s 0).getD 0))

/-! ### Stages 0x06 and 0x07 (R392) -/

/-- Spares of group `g` that its banks have taken; the first is taken before the second. -/
def sparesUsed (s : State) (g : Nat) : Nat :=
  let used := (List.range 64).map fun i => repairAt s (repBank (64 * g + i)) % 128
  if used.contains 65 then 2 else if used.contains 64 then 1 else 0

/-- A bank that BIST finds failed: a spare of its group serves it, or it is fenced. -/
def bistBank (s : State) (n : Nat) : State :=
  let g := n / 64
  let cur := repairAt s (repBank n)
  let k := sparesUsed s g
  if cur ≥ 0x80 then s else repairSet s (repBank n) (if k < 2 then 64 + k else 0x80 + cur)

/-- The findings of BIST enter the repair map. -/
def bist (s : State) (i : StageIn) : State :=
  let s := i.sites.foldl (fun s t => if t < 20 then repairSet s t 1 else s) s
  let s := i.cubes.foldl (fun s e => if e.1 < 20 then repairSite s e.1 (some e.2) else s) s
  let s := i.lanes.foldl (fun s e => if e.1 < 20 then repairLanes s e.1 e.2 else s) s
  i.banks.foldl (fun s n => if n < 4096 then bistBank s n else s) s

/-- The banks of a group as the repair map has them. -/
def groupLoad (s : State) (g : Nat) : State :=
  let at_ := fun (i : Nat) => repairAt s (repBank (64 * g + i))
  let v := groupGet s g
  let map := (List.range 64).foldl (fun (t : Tab (Option Nat)) i => tset none t i (if at_ i % 128 = i then none else some (at_ i % 128))) []
  let fenced := (List.range 64).foldl (fun (t : Tab Bool) i => tset false t i (decide (at_ i ≥ 128))) []
  groupPut { s with spares := tset 0 s.spares g (sparesUsed s g) } g { v with map := map, fenced := fenced }

/-- Stage 0x07: the repair map is committed if it changed, and loaded into every unit. -/
def repairLoad (s : State) : State :=
  let s := if flsMounted s && slice (repairMap s) 0 4159 != slice (flsBody s 3) 0 4159 then repairCommit s else s
  let s := epochAdvance s 4
  let s := (List.range 64).foldl groupLoad s
  let s := { s with flt := { s.flt with pllOut := repairAt s 4158 % 16 } }
  let s := rgwf s rLP_STATUS 31 16 (repairAt s 4156 + 256 * repairAt s 4157)
  (List.range 4).foldl assignSites s

/-! ### Stages 0x08, 0x09 and 0x0B (R392, R393) -/

/-- Training values are stored; their bytes are the device's own (log entry 11). -/
def trainStore (s : State) : State :=
  let (v, s) := drawFree s 64
  if flsMounted s then flsUpdate s 4 (leBytes 8 v) else s

/-- LPDDR5X training, or at a warm start the check of the stored values: a failing channel is retired. None left: the start fails. -/
def lpTrain (s : State) (i : StageIn) : State :=
  let s := if s.boot.warm then s else
    rgwb (rgwf (rgwf s rLP_STATUS 15 14 i.rate) rLP_STATUS 13 12 i.chcap) rLP_STATUS 11 i.ranks2
  let s := i.channels.foldl lpRetire s
  if (lpChans s).isEmpty then startFail s
  else
    let warm := if s.boot.warm then ((lpChans s).map fun c => 2 ^ c).sum else 0
    let s := lpMount (rgwb { s with lp := { s.lp with warm := warm } } rLP_STATUS 10 true)
    stageEnter (if s.boot.warm then s else trainStore s) 9

/-- A cold start checks the header of every library entry; one that fails is unusable. -/
def libraryCheck (s : State) : State :=
  (libAll s).foldl (fun s e => match some e.2 with
    | some b => if ((imgTable s none b).orElse fun _ => imgPlaced b).isSome then { s with flash := { s.flash with unusable := tset false s.flash.unusable e.1 true } } else s
    | none => s) s

/-- A warm start restores one context that was ACTIVE: its slot from a retained copy that agrees with its digest, or a record FAILED
with status FETCH. -/
def ctxRestore (s : State) (c : Nat) : State :=
  let x := ctxGet s c
  let k := x.active
  let m := mslotGet s c k
  let lost := fun (s : State) => modelRecord (mslotPut s c k mslot0) m.rq 5 6 0 c k 0 0 []
  match retained s m with
  | none => lost s
  | some (b, s) =>
    let l := c / 1024
    let m0 := { m with state := 1, kept := keptSects s c b m.img, allocs := m.allocs.take (5 + m.img.maps.length) }
    let s := mslotPut s c k m0
    let s := applyReloc (placeSects s l m.img b (fun _ => false) fun _ => true) l m.img b fun _ => false
    match placeDecls c b (placedAll b) s m0 with
    | none => lost s
    | some (s, m1) =>
      knotsInit (ctxPut (mslotPut s c k { m1 with state := 4 }) c { ctx0 with state := 1, active := k, img := m.img }) l m.img

/-- RUNNING is reached: START_OK, F is 0, and an image that asks for it revokes the other vendor root. -/
def startDone (s : State) : State :=
  let ms := startElapsed s
  let s := startRecord s 0x31 (leBytes 4 ms ++ leBytes 1 (b2n s.boot.warm))
  let fw := s.boot.fw
  let rev := if bit (byteAt fw 7) 0 then s.boot.revoked ||| 2 ^ (1 - byteAt fw 6 % 2) else s.boot.revoked
  stageEnter { s with boot := { s.boot with f := 0, revoked := rev } } stRun

/-! ### The end of a stage (R390) -/

/-- FIRMWARE has no intact copy, or the one it has does not verify (R345); a fresh flash was formatted without one. -/
def fwAbsent (s : State) : State := if rgb s rFLS_STATUS 30 then s else copyReport s 9 (resolve 9 [] none)

/-- FCc_WP_N rises as mount begins (R447). -/
def flashWrites (s : State) : State := { s with flash := { s.flash with wpN := true } }

/-- START_STAGE_END: what follows the stage that runs. -/
def stageEnd (s : State) (i : StageIn) : State :=
  if !stageRuns s then s
  else if stageLate s i.long then startFail s
  else match s.boot.stage with
    | 1 => if i.ok then stageEnter s 2 else startFail s
    | 2 => if i.ok && decide (s.boot.lifecycle ≠ 0) then flashWrites <| stageEnter (budgetGrade (rgwf s rGLB_CONFIG 31 30 i.grade)) 3 else startFail s
    | 3 =>
      if flsMounted s then stageEnter (startBegin s 0) 4
      else if fcUnmounted i = 3 then hostLoad (rgwf s rFLS_STATUS 28 27 3) 3
      else
        let s := flashMount s i
        stageEnter (startBegin { s with boot := { s.boot with f := restoreF s } } 0) 4
    | 4 =>
      match s.flash.units.find? (fUnitIs 0x43 0 0) with
      | none => hostLoad (fwAbsent s) 1
      | some u => match fUnitRead s u with
        | some x => if i.ok && fwCheck s x.2 == 0 then firmwareRuns s x.2 false else hostLoad (fwAbsent s) 2
        | none => hostLoad (fwAbsent s) 2
    | 5 => if i.ok then stageEnter s (if s.boot.warm then 7 else 6) else startFail s
    | 6 => stageEnter (bist s i) 7
    | 7 => stageEnter (repairLoad s) 8
    | 8 => lpTrain s i
    | 9 =>
      let s := { s with boot := { s.boot with noRef := i.noRef % 256 } }
      stageEnter (if s.boot.warm && !i.long then s else trainStore s) 10
    | 10 => wvDrain (stageEnter (weaveStage s) 11)
    | _ =>
      let s := if s.boot.warm then (s.ctxs.map fun e => e.1).foldl ctxRestore s else libraryCheck s
      startDone s

/-- STAGE_TIMEOUT (R391). -/
def stageTimeout (s : State) (long : Bool) : State := if stageRuns s && stageLate s long then startFail s else s

/-! ### Supplies (R397, R410, R437, R438) -/

/-- PGOOD_AON rises: the island leaves reset; Global Time counts from here. -/
def aonRise (s : State) (straps : Nat) : State :=
  if s.boot.aon then s
  else { s with gt := 0, boot := { s.boot with aon := true }, hp := { s.hp with smbAddr := straps % 4 } }

/-- PGOOD_AON falls: only flash, fuses and the Sampler's committed log are left. -/
def aonFall (s : State) : State :=
  { State.reset with
    pending := s.pending, freeCtr := s.freeCtr, uids := s.uids, jorder := s.jorder,
    flash := { s.flash with units := [], journal := [], capWait := [], patrolling := false, lpddr4 := 0, wpN := false, ceN := 0xFFFF },
    smp := { State.reset.smp with log := s.smp.log, pages := s.smp.pages },
    boot := { State.reset.boot with svnMin := s.boot.svnMin, epoch := s.boot.epoch, lifecycle := s.boot.lifecycle, revoked := s.boot.revoked } }

/-- PGOOD_MAIN rises: a cold start, without stages 0x01 to 0x04 where their work stands (R397). -/
def mainRise (s : State) : State :=
  if !s.boot.aon || s.boot.main then s
  else
    let s := lifeInc { s with boot := { s.boot with main := true, warm := false, began := s.gt, held := 0, heldAt := none, defWeave := false, stageAt := s.gt } } 8
    if s.boot.again then stageFive { s with boot := { s.boot with again := false } } 0 else stageEnter s 1

/-- A start, or a chip reset before its start, is in progress (R397, Table LP-11). -/
def startOrReset (s : State) : Bool := starting s || s.flt.caps.any fun c => c.scope == 1

/-- PGOOD_MAIN falls: a start or chip reset in progress counts as failed; everything but the island is lost, LPDDR5X too; the Sampler flushes. -/
def mainFall (s : State) : State :=
  if !s.boot.main then s
  else
    let cut := startOrReset s
    let s := if cut then
        let f := s.boot.f + 1
        let s := lifeInc { s with boot := { s.boot with f := f } } 20
        if flsMounted s then startRecord s 0x32 (leBytes 1 s.boot.stage ++ leBytes 1 f) else s
      else s
    let s := patchCancel (smbLatch s)
    let s := ((s.slots.map fun e => e.1 / 2).eraseDups).foldl slotsEmpty s
    let s := mainClear s
    let s := { s with mem := [], bad := [], carried := [], ctxs := [], slots := [], spares := [], lp := { s.lp with warm := 0, recent := [] },
                      wv := { s.wv with pending := none } }
    let s := stageEnter { s with boot := { s.boot with main := false, again := !s.boot.fw.isEmpty } } 1
    if flsMounted s then smpFlush ((List.range s.smpIn.length).foldl (fun s _ => samplerRecord s) s) else s

/-- HOST_PORT_READY (R410). -/
def portReady (s : State) : State := if s.boot.aon then { s with boot := { s.boot with ready := true } } else s

/-! ### The commands -/

/-- START_STAGE_END (R390). -/
def execStartStageEnd (i : StageIn) (s : State) : Host.Outcome State Fault Refusal := .next (stageEnd s i)

/-- STAGE_TIMEOUT (R391). -/
def execStageTimeout (long : Bool) (s : State) : Host.Outcome State Fault Refusal := .next (stageTimeout s long)

/-- PGOOD_AON_RISE (R437). -/
def execPgoodAonRise (straps : Nat) (s : State) : Host.Outcome State Fault Refusal := .next (aonRise s straps)

/-- PGOOD_AON_FALL (R437). -/
def execPgoodAonFall (s : State) : Host.Outcome State Fault Refusal := .next (aonFall s)

/-- PGOOD_MAIN_RISE (R437). -/
def execPgoodMainRise (s : State) : Host.Outcome State Fault Refusal := .next (mainRise s)

/-- PGOOD_MAIN_FALL (R438). -/
def execPgoodMainFall (s : State) : Host.Outcome State Fault Refusal := .next (mainFall s)

/-- HOST_PORT_READY (R410). -/
def execHostPortReady (s : State) : Host.Outcome State Fault Refusal := .next (portReady s)

end Sys2Proof.Machine
end

