-- ==== Sys2Proof/Machine/Trust.lean ====
section
/-! DEFINITION. Start and trust commands: attestation, identity, customer roots, firmware, START (R396, R399, R400, R403, R405 to
R407). -/

namespace Sys2Proof.Machine

/-! ### Command blocks (Table STA-5) -/

/-- The exchange buffer. -/
def xbufSize : Nat := 2 ^ 23

/-- FROM. -/
def tcFrom (b : Bytes) : Nat := leAt b 8 8
/-- SIZE. -/
def tcSize (b : Bytes) : Nat := leAt b 16 8
/-- ARG. -/
def tcArg (b : Bytes) : Nat := leAt b 24 8

/-- Reserved fields are zero, and FROM is aligned. -/
def trustForm (b : Bytes) : Bool :=
  let op := byteAt b 0
  (byteAt b 1 == 0 || (op == 23 && byteAt b 1 == 1)) && zeros b 2 4 && tcFrom b % 64 == 0 &&
  (op == 16 || (zeros b 24 8 && zeros b 32 32)) && (op == 18 || op == 19 || op == 20 || tcSize b == 0)

/-- The state accepts the OP. -/
def trustState (s : State) (op : Nat) : Bool :=
  match op with
  | 16 => true
  | 17 => true
  | 20 => s.boot.stage == stHost || s.boot.stage == stSafe
  | 23 => s.boot.stage == stSafe
  | _ => s.boot.stage == stRun || s.boot.stage == stSafe

/-- A command ends with a status. -/
def trustEnd (s : State) (b : Bytes) (st : Nat) : State := mboxDone s (byteAt b 0) st (leAt b 6 2)

/-- A command that writes a TRUST record ends. -/
def trustRecord (s : State) (b : Bytes) (arg st : Nat) : State :=
  trustEnd (startRecord s 0x35 (leBytes 1 (byteAt b 0) ++ leBytes 1 arg ++ leBytes 1 s.boot.epoch ++ leBytes 1 st)) b st

/-- Bytes that the host supplied. -/
def supplied (s : State) (b : Bytes) : Bytes := tread s.xbuf (tcFrom b) (tcSize b)

/-- Write to the exchange buffer. -/
def xbufPut (s : State) (a : Nat) (l : Bytes) : State := { s with xbuf := twrite s.xbuf a l }

/-! ### Attestation (R406) -/

/-- Entries of slots that are not EMPTY, in order. -/
def attestSlots (s : State) : List (Nat × Bytes) :=
  s.slots.filterMap fun e => if e.2.state = 0 then none else
    some (e.1 / 2, leBytes 2 (e.1 / 2) ++ leBytes 1 (e.1 % 2) ++ leBytes 1 e.2.state ++ leBytes 2 e.2.img.gen ++ leBytes 10 0 ++ slice e.2.digest 0 64)

/-- Root states and keys. -/
def attestRoots (s : State) : Bytes := digest64 ((List.range 4).flatMap fun r => leBytes 1 (rootState s r) ++ rootKey s r)

/-- The report: 512 bytes and its entries. -/
def attestReport (s : State) (nonce : Bytes) (first most : Nat) : Bytes :=
  let bare := s.boot.stage == stSafe || s.boot.stage == stHost
  let slots := if bare then [] else attestSlots s
  let es := (slots.filter fun e => decide (first ≤ e.1)).take most
  let zero := List.replicate 64 (0 : Byte)
  let part := fun (d : Bytes) => if bare then zero else slice d 0 64
  leBytes 4 0x54545341 ++ leBytes 2 1 ++ leBytes 2 es.length ++ leBytes 8 Config.dieId.toNat ++ leBytes 1 s.boot.lifecycle ++ leBytes 1 s.boot.stage ++
  leBytes 1 (b2n s.boot.idMismatch + 2 * b2n s.boot.hostLoaded + 4 * b2n s.wv.default_ + 8 * b2n (outside s) + 16 * b2n s.boot.warm) ++
  leBytes 1 (if s.boot.fw.isEmpty then 0 else fwSvn s) ++ leBytes 1 s.boot.svnMin ++ leBytes 1 s.boot.epoch ++ leBytes 1 (min 255 s.boot.f) ++
  leBytes 1 (rgf s rGLB_CONFIG 31 30) ++ leBytes 8 s.gt ++ slice nonce 0 32 ++ ikPublic ++
  (if s.boot.fw.isEmpty then zero else imgFw s.boot.fw) ++ part s.wv.structure_ ++ part s.wv.ring ++ attestRoots s ++
  part (digest64 (slice (repairMap s) 0 4159)) ++ part (digest64 (slots.flatMap fun e => e.2)) ++ es.flatMap fun e => e.2
where
  /-- The image digest of firmware. -/
  imgFw (b : Bytes) : Bytes := digest64 (b.take (leAt b 16 8))

/-- ATTEST. -/
def runAttest (s : State) (b : Bytes) : State :=
  let arg := tcArg b
  let first := bits arg 14 0
  let most := bits arg 22 16
  if !trustForm b || decide (arg ≠ first + most * 65536) || decide (most > 64) then trustEnd s b 1
  else
    let r := attestReport s (slice b 32 32) first most
    let out := r ++ slice (Config.slhSign idSeed (digest64 r)) 0 49856
    if tcFrom b + out.length > xbufSize then trustEnd s b 1 else trustEnd (xbufPut s (tcFrom b) out) b 0

/-! ### Identity (R405) -/

/-- IDENTITY: a structure that does not name this device is not used; its built-in default is. -/
def runIdentity (s : State) (b : Bytes) : State :=
  if !trustForm b || decide (tcFrom b + 128 + sigBytes > xbufSize) then trustEnd s b 1
  else if !flsMounted s then trustEnd s b 10
  else trustEnd (xbufPut s (tcFrom b) (slice (if s.boot.idMismatch then [] else flsBody s 1) 0 (128 + sigBytes))) b 0

/-! ### Customer roots (R403) -/

/-- The status of an enrolment request before it is committed: 0, or why it is not accepted. -/
def enrolCheck (s : State) (op : Nat) (q : Bytes) : Nat :=
  let e := s.boot.epoch
  let r := byteAt q 5
  let g := byteAt q 6
  let key := slice q 32 64
  let signed := decide (g < 4) && rootState s g == 1 && Config.slhVerify (rootKey s g) (digest64 (slice q 0 128)) (slice q 128 sigBytes)
  if !(leAt q 0 4 == 0x4C524E45 && byteAt q 4 == op - 17 && decide (r < 4) && byteAt q 7 == 0 && zeros q 20 12 && zeros q 96 32 && (op == 18 || zeros q 32 64)) then 1
  else if leAt q 8 8 ≠ Config.dieId.toNat then 5
  else if e ≥ 32 ∨ leAt q 16 4 ≠ e then 6
  else if g = 0xFF ∧ ¬(op = 18 ∧ s.boot.lifecycle = 1) then 11
  else if g ≠ 0xFF ∧ !signed then 2
  else if op = 18 then
    if rootState s r = 1 then 4
    else if ([0, 1, 2, 3] : List Nat).any fun i => rootState s i != 0 && rootKey s i == key then 8
    else 0
  else if rootState s r ≠ 1 then 4
  else if (([0, 1, 2, 3] : List Nat).filter fun i => rootState s i == 1).length = 1 then 7
  else 0

/-- The slots after a request. -/
def enrolSlots (s : State) (op : Nat) (q : Bytes) : Bytes :=
  ([0, 1, 2, 3] : List Nat).flatMap fun i =>
    if i ≠ byteAt q 5 then leBytes 1 (rootState s i) ++ rootKey s i
    else if op = 18 then leBytes 1 1 ++ slice q 32 64
    else leBytes 1 2 ++ rootKey s i

/-- The fuse burns of a request whose ENROL copies are written; `burns` of them verify before one fails. -/
def enrolBurn (burns : Nat) (s : State) (b : Bytes) (r : Nat) : State :=
  if burns = 0 then trustRecord s b r 9
  else
    let s := { s with boot := { s.boot with epoch := s.boot.epoch + 1 } }
    if byteAt b 0 = 18 ∧ s.boot.lifecycle = 1 then
      if burns = 1 then trustRecord s b r 9
      else trustRecord { s with boot := { s.boot with lifecycle := 2 } } b r 0
    else trustRecord s b r 0

/-- ENROL and REVOKE; `burns` fuse burns verify before one fails. -/
def runEnrol (burns : Nat) (s : State) (b : Bytes) : State :=
  let op := byteAt b 0
  let q := supplied s b
  if !trustState s op || !trustForm b || decide (tcSize b < 128 ∨ tcFrom b + tcSize b > xbufSize) then trustRecord s b 0 1
  else match enrolCheck s op q with
    | 0 =>
      if !flsMounted s || s.pwr.fail then trustRecord s b (byteAt q 5) 10
      else enrolBurn burns (flsUpdate s 2 (enrolMake (s.boot.epoch + 1) (enrolSlots s op q))) b (byteAt q 5)
    | st => trustRecord s b (byteAt q 5) st

/-! ### Firmware (R399, R400) -/

/-- FWLOAD: the image is verified and runs; from host-load state the start goes on, safe start is entered again. -/
def runFwload (s : State) (b : Bytes) : State :=
  if !trustState s 20 || !trustForm b || decide (tcFrom b + tcSize b > xbufSize) then trustEnd s b 1
  else
    let img := supplied s b
    match fwCheck s img with
    | 0 =>
      let s := trustEnd s b 0
      if s.boot.stage = stSafe then startRecord { s with boot := { s.boot with fw := img, hostLoaded := true } } 0x33 (leBytes 1 s.boot.f)
      else firmwareRuns (heldEnd s) img true
    | st => trustEnd s b st

/-- FWSTORE: the running firmware becomes the FIRMWARE structure. -/
def runFwstore (s : State) (b : Bytes) : State :=
  if !trustState s 21 || !trustForm b then trustRecord s b 0 1
  else if !flsMounted s || s.pwr.fail then trustRecord s b (fwSvn s) 10
  else trustRecord (flsUpdate s 9 s.boot.fw) b (fwSvn s) 0

/-- SVN_RAISE: FW_SVN_MIN is burned up to the running firmware's SVN, as far as burns verify. -/
def runSvnRaise (burns : Nat) (s : State) (b : Bytes) : State :=
  if !trustState s 22 || !trustForm b then trustRecord s b 0 1
  else
    let n := max s.boot.svnMin (fwSvn s)
    let v := min n (s.boot.svnMin + burns)
    trustRecord { s with boot := { s.boot with svnMin := v } } b v (if v < n then 9 else 0)

/-! ### START (R396) -/

/-- START: F is 0, START_BEGIN is written, the start goes on at stage 0x05. -/
def runStart (s : State) (b : Bytes) : State :=
  if !trustState s 23 || !trustForm b then trustEnd s b 1
  else
    let s := heldEnd (trustEnd s b 0)
    let s := { s with boot := { s.boot with f := 0, defWeave := bit (byteAt b 1) 0 } }
    stageEnter (startBegin s (b2n s.boot.warm)) 5

/-! ### The commands -/

/-- ATTEST (R406). -/
def execAttest (s : State) : Host.Outcome State Fault Refusal := .next (mboxRun s 16 runAttest)

/-- IDENTITY (R405). -/
def execIdentity (s : State) : Host.Outcome State Fault Refusal := .next (mboxRun s 17 runIdentity)

/-- ENROL (R403). -/
def execEnrol (burns : Nat) (s : State) : Host.Outcome State Fault Refusal := .next (mboxRun s 18 (runEnrol burns))

/-- REVOKE (R403). -/
def execRevoke (burns : Nat) (s : State) : Host.Outcome State Fault Refusal := .next (mboxRun s 19 (runEnrol burns))

/-- FWLOAD (R399). -/
def execFwload (s : State) : Host.Outcome State Fault Refusal := .next (mboxRun s 20 runFwload)

/-- FWSTORE (R400). -/
def execFwstore (s : State) : Host.Outcome State Fault Refusal := .next (mboxRun s 21 runFwstore)

/-- SVN_RAISE (R400). -/
def execSvnRaise (burns : Nat) (s : State) : Host.Outcome State Fault Refusal := .next (mboxRun s 22 (runSvnRaise burns))

/-- START (R396). -/
def execStart (s : State) : Host.Outcome State Fault Refusal := .next (mboxRun s 23 runStart)

end Sys2Proof.Machine
end

