-- ==== Sys2Proof/Machine/HostPort.lean ====
section
/-! DEFINITION. The host port: transactions, the host address space, the mailbox doorbell and completion queue, and the register
accesses that have a row of their own (R409 to R417, R422 to R430). -/

namespace Sys2Proof.Machine

/-! ### CRCs (R411) -/

/-- CRC-32C of a host-port phase: initial value and final XOR all ones. -/
def hpCrc (l : Bytes) : Nat := (crc32c 0xFFFFFFFF#32 l).toNat

/-- Opcode, address and LEN as the CRCs cover them (log entry 36). -/
def hpHead (op addr len : Nat) : Bytes := leBytes 1 op ++ beBytes 4 addr ++ beBytes 2 len

/-- The command CRC of an RD. -/
def rdCrc (addr len : Nat) : Nat := hpCrc (hpHead 0x0B addr len)

/-- The CRC of a WR. -/
def wrCrc (addr len : Nat) (data : Bytes) : Nat := hpCrc (hpHead 0x02 addr len ++ data)

/-- HP_CFG.CRC_EN. -/
def crcOn (s : State) : Bool := rgb s rHP_CFG 31

/-- Status, second byte zero, data, data CRC: what an RD returns. -/
def rdReply (s : State) (status : Nat) (data : Bytes) : State :=
  let b := leBytes 1 status ++ leBytes 1 0 ++ data
  { s with reply := b ++ beBytes 4 (if crcOn s then hpCrc b else 0) }

/-- Bytes of a transfer. -/
def hpBytes (len : Nat) : Nat := (len % 1024 + 1) * 4

/-! ### Units that are up (R416, R423) -/

/-- The start stage after which a unit is up, as codes of Table STA-1: the island 0, partitions, sites, tier and report queues 7,
LPDDR5X 8, ports and links 9 (log entry 37). -/
def blockStage (b : Block) : Nat :=
  match b with
  | .glb | .hp | .pwr | .flt | .fls | .smp | .obs => 0
  | .rq | .bt | .pipe | .grn | .bind | .vd | .tm | .til | .shf | .thr => 7
  | .lp => 8
  | .fp | .pl | .pll => 9

/-- Every unit that stage `n` brings up is up. -/
def stageUp (s : State) (n : Nat) : Bool := n == 0 || (s.boot.main && decide (n < s.boot.stage) && decide (s.boot.stage ≤ stRun))

/-- The partition that a block instance belongs to. -/
def blockPart (b : Block) (i : Nat) : Option Nat :=
  match b with
  | .pipe | .grn | .bind | .vd | .tm | .pll => some i
  | .fp => some (i / 4)
  | .til | .shf | .thr => some (i / 5)
  | .bt | .rq | .pl | .pwr | .flt | .fls | .smp | .obs | .hp | .glb | .lp => none

/-- The unit of a register answers. -/
def regUp (s : State) (a : Nat) : Bool :=
  match decodeReg a with
  | none => false
  | some (b, i, _) =>
    stageUp s (blockStage b) && (blockStage b == 0 || !chipReset_ s) &&
      (match blockPart b i with | some p => !resetCovers s p | none => true)

/-- The unit of a memory address answers. -/
def memUp (s : State) (a : Nat) : Bool :=
  !chipReset_ s && (if a ≥ lpBase then stageUp s 8
    else stageUp s 7 && (decide (a ≥ tierBase) || !resetCovers s ((a - sramBase 0) / 0x2000000 / 5)))

/-! ### The host address space (R414, R422) -/

/-- `n` bytes at device address `a` lie in one populated memory: tile SRAM, tier, mounted LPDDR5X. -/
def populated (s : State) (a n : Nat) : Bool :=
  (decide (sramBase 0 ≤ a ∧ a < sramBase 20 ∧ (a - sramBase 0) % 0x2000000 + n ≤ 20971520)) ||
  (decide (tierBase ≤ a ∧ a + n ≤ tierBase + 2 ^ 33)) ||
  (decide (lpBase ≤ a ∧ a + n ≤ lpBase + rgf s rGLB_CONFIG 8 0 * 2 ^ 30))

/-- Where a transfer of the host port lands: registers and apertures; the exchange buffer at an offset; memory at a device address;
nowhere, with the address of HP_ERR_ADDR. -/
inductive HTarget where
  | direct
  | xbuf (o : Nat)
  | mem (a : Nat)
  | bad (a : Nat)
deriving DecidableEq, Repr

/-- RQ_DATA(q) and an offset in it. -/
def rqDataOf (a : Nat) : Option (Nat × Nat) :=
  if 0x910000 ≤ a ∧ a < 0x918000 then some ((a - 0x910000) / 0x200, a % 0x200) else none

/-- An offset of SMP_DATA. -/
def smpDataOf (a : Nat) : Option Nat := if 0x410000 ≤ a ∧ a < 0x410400 then some (a - 0x410000) else none

/-- The 4-byte units of a transfer. -/
def hpUnits (addr n : Nat) : List Nat := (List.range (n / 4)).map fun i => addr + 4 * i

/-- Decode a host address and a length in bytes; LEN[15:10] must be zero and the address a multiple of 4 (R411). -/
def hpTarget (s : State) (addr len : Nat) : HTarget :=
  let n := hpBytes len
  if addr % 4 ≠ 0 ∨ len / 1024 ≠ 0 ∨ addr ≥ 2 ^ 32 then .bad addr
  else if addr < 0x80000000 then
    if addr + n > 0x80000000 then .bad addr
    else if (hpUnits addr n).all fun a => (resolveReg s a).isSome then .direct else .bad addr
  else
    let w := (addr - 0x80000000) / 2 ^ 29
    let o := (addr - 0x80000000) % 2 ^ 29
    let cfg := rg s (rHP_WIN_CFG w)
    if !bit cfg 31 ∨ o + n > 2 ^ 29 then .bad addr
    else if bit cfg 30 then (if o + n ≤ xbufSize then .xbuf o else .bad addr)
    else
      let a := rg s (rHP_WIN_BASE w) * 65536 + o
      if populated s a n then .mem a else .bad a

/-! ### Errors (R418) -/

/-- An error that HP_WSTAT or an RD status reports: HP_ISR.PORT. -/
def hpPort (s : State) : State := rgwb s rHP_ISR 3 true

/-- HP_ERR_ADDR. -/
def hpErr (s : State) (a : Nat) : State := { s with hp := { s.hp with errAddr := a } }

/-- An uncorrectable error that a host access meets: reported with its address (R7, R326), a unit of the sample ring or the trace
region zeroed (R372). -/
def hpUe (s : State) (a : Nat) : State :=
  if a ≥ lpBase then lpZero (faultUe s 16 (unitCode 5 (lpChan s a)) 0xFF a) a
  else if a ≥ tierBase then tierMiss s a
  else
    let t := (a - sramBase 0) / 0x2000000
    faultUe s 18 (unitCode 0 t) (t / 5) a

/-- What a memory read meets on its way: corrected errors, and faults that make a codeword uncorrectable. -/
def hpMeet (s : State) (a n : Nat) (meets : List (Nat × Bool)) : State :=
  (meets.filter fun m => decide (a ≤ m.1 ∧ m.1 < a + n)).foldl (fun s m =>
    if m.2 then tierStrike s m.1
    else if m.1 ≥ lpBase then lpCe s m.1
    else if m.1 ≥ tierBase then bankMeet s (bankOf m.1) (.ce ((m.1 - bankA (bankOf m.1)) / 64))
    else sramCorrected s m.1) s

/-! ### RD (R412, R415) -/

/-- One 4-byte unit of a direct read: an aperture's bytes, or one register access. -/
def unitRead (s : State) (a : Nat) (hit : RqHit) : Bytes × State :=
  match rqDataOf a, smpDataOf a with
  | some (q, o), _ => rqData s q o 4 hit
  | none, some o => smpAperture s o 4
  | none, none =>
    match resolveReg s a with
    | none => (leBytes 4 0, s)
    | some r => (leBytes 4 (regRead s r).1, (regRead s r).2)

/-- The units of a direct read, in ascending order. -/
def unitsRead : List Nat → State → RqHit → Bytes × State
  | [], s, _ => ([], s)
  | a :: l, s, hit =>
    let (b, s) := unitRead s a hit
    let (c, s) := unitsRead l s hit
    (b ++ c, s)

/-- Every register unit of a transfer answers. -/
def unitsUp (s : State) (addr n : Nat) : Bool :=
  (hpUnits addr n).all fun a => match resolveReg s a with | some r => regUp s r | none => false

/-- The access of an RD: status of Table HP-2, data, state. -/
def hpRead (s : State) (addr len : Nat) (hit : RqHit) (meets : List (Nat × Bool)) : Nat × Bytes × State :=
  let n := hpBytes len
  let no := List.replicate n (0 : Byte)
  match hpTarget s addr len with
  | .bad a => (0x10, no, hpErr s a)
  | .direct =>
    if !unitsUp s addr n then (0x13, no, s)
    else (0x00, (unitsRead (hpUnits addr n) s hit).1, (unitsRead (hpUnits addr n) s hit).2)
  | .xbuf o => (0x00, tread s.xbuf o n, s)
  | .mem a =>
    if !memUp s a then (0x13, no, s)
    else
      let s := hpMeet (lpCount s 0 a n) a n meets
      match devBad s a n with
      | some b => (0x12, no, hpErr (hpUe s b) b)
      | none =>
        if tierBase ≤ a ∧ a < lpBase then
          (if tierParity s a n then (0x12, no, hpErr s a) else (0x00, tierR s a n, s))
        else (0x00, memR s a n, s)

/-- Deliver a result; a status of 0x10 or above is an error of the port. -/
def rdDeliver (s : State) (status : Nat) (data : Bytes) : State :=
  rdReply (if status ≥ 0x10 then hpPort s else s) status data

/-- A result that is complete is delivered; one that is not is held and answered with RETRY; an RD that ended early holds it. -/
def rdAnswer (s : State) (addr len status : Nat) (data : Bytes) (ready early : Bool) : State :=
  let held := { s with hp := { s.hp with held := some (addr, len, leBytes 1 status ++ data) } }
  if early then { held with reply := [] }
  else if ready then rdDeliver { s with hp := { s.hp with held := none } } status data
  else rdReply (bump held rHP_RETRY) 0x01 (List.replicate (hpBytes len) 0)

/-- A status without an access: nothing is held. -/
def rdFail (s : State) (len status : Nat) (early : Bool) : State :=
  if early then { hpPort s with reply := [] } else rdDeliver s status (List.replicate (hpBytes len) 0)

/-- RD: the CRC, a result that is held, the access (R411, R412). -/
def hpRd (s : State) (addr len crc : Nat) (ready early : Bool) (hit : RqHit) (meets : List (Nat × Bool)) : State :=
  if crcOn s && crc != rdCrc addr len then
    rdFail { bump s rHP_CRC_ERR with hp := { s.hp with crcFailed := true } } len 0x11 early
  else match s.hp.held with
    | some (a, l, r) =>
      if a = addr ∧ l = len then rdAnswer s addr len (byteAt r 0) (r.drop 1) ready early
      else if early then { s with reply := [] }
      else rdReply s 0x02 (List.replicate (hpBytes len) 0)
    | none =>
      let r := hpRead s addr len hit meets
      if r.1 = 0x10 ∨ r.1 = 0x13 then rdFail r.2.2 len r.1 early
      else rdAnswer r.2.2 addr len r.1 r.2.1 ready early

/-! ### WR (R413, R415) -/

/-- A bit of HP_WSTAT with the port error. -/
def wstat (s : State) (i : Nat) : State := hpPort (rgwb s rHP_WSTAT i true)

/-- A WR is accepted: WRITES counts, wrapping. -/
def wrCount (s : State) : State := rgwf s rHP_WSTAT 15 0 (rgf s rHP_WSTAT 15 0 + 1)

/-- One 4-byte unit of a direct write; the apertures ignore writes (R248). -/
def unitWrite (s : State) (a v : Nat) : State :=
  if (rqDataOf a).isSome || (smpDataOf a).isSome then s
  else match resolveReg s a with
    | none => s
    | some r => regWrite s r v

/-- `n` bytes at `a` lie in the staging region (R415). -/
def inStaging (s : State) (a n : Nat) : Bool :=
  decide (lpBase + (lpRegion s 1).1 ≤ a ∧ a + n ≤ lpBase + (lpRegion s 1).1 + (lpRegion s 1).2)

/-- A write of the staging region: it fails as a consumer where it covers an uncorrectable unit in part (R455). -/
def stagingWrite (s : State) (a : Nat) (data : Bytes) : State :=
  match memWBad s a data.length with
  | some b => hpErr (faultUe s 16 (unitCode 5 (lpChan s b)) 0xFF b) b
  | none => memW s a data

/-- WR: whole data, CRC, target. -/
def hpWr (s : State) (addr len : Nat) (data : Bytes) (crc : Nat) (cut full : Bool) : State :=
  let n := hpBytes len
  let d := data.take n
  if cut || decide (d.length < n) then s
  else if full then bump { wstat s 30 with hp := { s.hp with dropped := true } } rHP_WDROP
  else if crcOn s && crc != wrCrc addr len d then
    bump { wstat s 31 with hp := { s.hp with crcFailed := true } } rHP_CRC_ERR
  else match hpTarget s addr len with
    | .bad a => hpErr (wstat s 28) a
    | .direct =>
      if !unitsUp s addr n then hpErr (wstat s 28) addr
      else wrCount ((hpUnits addr n).foldl (fun s a => unitWrite s a (leAt d (a - addr) 4)) s)
    | .xbuf o => wrCount { s with xbuf := twrite s.xbuf o d }
    | .mem a =>
      if !inStaging s a n then hpErr (wstat s 29) a
      else if !memUp s a then hpErr (wstat s 28) a
      else wrCount (stagingWrite s a d)

/-! ### RDSR, RDID, RSTEN, RST (Table HP-1) -/

/-- Table HP-3; reading it clears what happened since the last RDSR. -/
def hpRdsr (s : State) (complete free : Bool) : State :=
  let v := 128 * b2n s.boot.ready + 64 * b2n (alertN s) + 32 * b2n (decide (mboxPending s ≥ 16)) + 16 * b2n s.hp.dropped +
    8 * b2n s.hp.crcFailed + 4 * b2n (s.hp.held.isSome && complete) + 2 * b2n (s.hp.held.isSome && !complete) + b2n free
  { s with reply := leBytes 1 v, hp := { s.hp with dropped := false, crcFailed := false } }

/-- HP_ID, DIE_ID, GRADE, then zeros: 16 bytes (log entry 36). -/
def hpRdid (s : State) : State :=
  { s with reply := leBytes 4 0x096000B2 ++ leBytes 8 Config.dieId.toNat ++ leBytes 1 (rgf s rGLB_CONFIG 31 30) ++ leBytes 3 0 }

/-- A transaction while the port is ready: it is counted (Table OBS-2), and any but RSTEN disarms RST. -/
def hpTrans (s : State) (f : State → State) : State :=
  if s.boot.ready then f (cinc { s with hp := { s.hp with rsten := false } } (cDev 3) 1) else s

/-- RST: right after RSTEN it discards a held result; else it is an ignored command. -/
def hpRst (s : State) (armed : Bool) : State :=
  if armed then { s with reply := [], hp := { s.hp with held := none } } else bump { s with reply := [] } rHP_BAD_CMD

/-! ### The mailbox (R417) -/

/-- OP values that belong to a table. -/
def opKnown (op : Nat) : Bool := decide ((1 ≤ op ∧ op ≤ 7) ∨ (9 ≤ op ∧ op ≤ 12) ∨ (16 ≤ op ∧ op ≤ 23))

/-- The head of the mailbox queue, of an OP that belongs to no table, completes with STATUS 0xFF. -/
def unknownOp (s : State) : State :=
  match mboxHead s with
  | none => s
  | some b =>
    if opKnown (byteAt b 0) then s
    else mboxDone { s with mbox := { s.mbox with queue := s.mbox.queue.tail } } (byteAt b 0) 0xFF (leAt b 6 2)

/-! ### The commands -/

/-- RD (R412). -/
def execRd (addr len crc : Nat) (ready early : Bool) (hit : RqHit) (meets : List (Nat × Bool)) (s : State) : Host.Outcome State Fault Refusal :=
  .next (hpTrans s fun s => hpRd s addr len crc ready early hit meets)

/-- WR (R413). -/
def execWr (addr len : Nat) (data : Bytes) (crc : Nat) (cut full : Bool) (s : State) : Host.Outcome State Fault Refusal :=
  .next (hpTrans s fun s => hpWr s addr len data crc cut full)

/-- RDSR (Table HP-3). -/
def execRdsr (complete free : Bool) (s : State) : Host.Outcome State Fault Refusal := .next (hpTrans s fun s => hpRdsr s complete free)

/-- RDID. -/
def execRdid (s : State) : Host.Outcome State Fault Refusal := .next (hpTrans s hpRdid)

/-- RSTEN. -/
def execRsten (s : State) : Host.Outcome State Fault Refusal :=
  .next (hpTrans s fun s => { s with reply := [], hp := { s.hp with rsten := true } })

/-- RST. -/
def execRst (s : State) : Host.Outcome State Fault Refusal := .next (hpTrans s fun t => hpRst t s.hp.rsten)

/-- MAILBOX_DOORBELL (R417). -/
def execMailboxDoorbell (s : State) : Host.Outcome State Fault Refusal := .next (doorbell s)

/-- UNKNOWN_OP (R417). -/
def execUnknownOp (s : State) : Host.Outcome State Fault Refusal := .next (unknownOp s)

/-- MAILBOX_DONE_READ (R417). -/
def execMailboxDoneRead (s : State) : Host.Outcome State Fault Refusal := .next { (mboxPop s).2 with reply := leBytes 4 (mboxPop s).1 }

/-- EPOCH_READ (R428). -/
def execEpochRead (s : State) : Host.Outcome State Fault Refusal := .next { (epochRead s).2 with reply := leBytes 4 (epochRead s).1 }

/-- GLOBAL_TIME_READ (R430). -/
def execGlobalTimeRead (s : State) : Host.Outcome State Fault Refusal := .next { (timeRead s).2 with reply := leBytes 4 (timeRead s).1 }

/-- REGISTER_WRITE (R9): through the alias of R425; an undecoded address has no effect. -/
def execRegisterWrite (a v : Nat) (s : State) : Host.Outcome State Fault Refusal :=
  .next (match resolveReg s a with | some r => regWrite s r (v % 2 ^ 32) | none => s)

end Sys2Proof.Machine
end

