-- ==== Sys2Proof/Machine/TierMoves.lean ====
section
/-! DEFINITION. Moves of logical groups of a history between physical groups of the tier (R185, R306, R455). -/

namespace Sys2Proof.Machine

/-- MIG as it acts. -/
def migLimit (s : State) : Nat := rgf s rBT_THERM 31 24

/-- Moves so far in this millisecond, device-wide. -/
def migCount (s : State) : Nat :=
  let t := tget 0 s.bank.times 8192
  if t / 256 = s.gt / 1000000 then t % 256 else 0

/-- No physical group is hot. -/
def noneHot (s : State) : Bool := (List.range 64).all fun g => !(groupGet s g).hot

/-- A physical group whose logical groups are to move: hot, with a fenced bank, or, while none is hot, at doubled refresh (R185,
R306). -/
def groupLeaves (s : State) (g : Nat) : Bool :=
  let v := groupGet s g
  v.hot || !v.fenced.isEmpty || (v.r2x && noneHot s)

/-- A group may take what leaves group `src`: another one, neither hot nor with a fenced bank; what leaves for its doubled refresh
alone goes to normal refresh (R185, R306). -/
def groupTakes (s : State) (src g : Nat) : Bool :=
  let v := groupGet s g
  let w := groupGet s src
  g != src && !v.hot && v.fenced.isEmpty && (w.hot || !w.fenced.isEmpty || !v.r2x)

/-- Segments of logical group `lg` of a history that lie in the tier. -/
def lgSegs (h : Hist) (lg : Nat) : List Nat :=
  (List.range h.segs.length).filter fun j => j / 64 == lg && !(h.segs.getD j (0, 0, false)).2.2

/-- Physical groups of the other logical groups of a history. -/
def lgHomes (h : Hist) (lg : Nat) : List Nat :=
  ((List.range (cdiv h.segs.length 64)).filter fun k => k != lg).map fun k => (h.segs.getD (64 * k) (0, 0, false)).1 / 64

/-- The first group in rank with room for logical group `lg` of a history, and the place of each of its segments there. -/
def lgPlaces (s : State) (h : Hist) (lg src : Nat) : Option (List (Nat × Nat)) :=
  let n := (lgSegs h lg).length
  ((spreadOrder s h.log2 (lgHomes h lg)).filter (groupTakes s src)).findSome? fun g =>
    groupFit s (occupied s 1 fun _ => true) g n (2 * segPos h * h.dim)

/-- A command that names the history record at tier address `a` is in progress or queued. -/
def histBusy (s : State) (a : Nat) : Bool :=
  s.tiles.any fun t => t.2.sb.any fun e => match e.2 with
    | some x => x.engine == 5 && x.op != 4 && x.span == tierBase + a
    | none => false

/-- The codewords of `n` bytes at `a` that cannot be read: uncorrectable ones, in a fenced bank all of them. -/
def lostWords (s : State) (a n : Nat) : List Nat :=
  if bankFenced s (bankOf a) then (List.range (n / 32)).map fun i => a + 32 * i
  else (s.bad.filter fun e => decide (a ≤ e.1 ∧ e.1 < a + n)).map fun e => e.1

/-- Copy a segment of `n` bytes: it is read through ECC, and what cannot be read is uncorrectable at its new place (R185, R455; log
entry 145). -/
def segCopy (s : State) (n : Nat) (m : Nat × Nat) : State :=
  let lost := lostWords s m.1 n
  let t := match s.bad.find? fun e => decide (m.1 ≤ e.1 ∧ e.1 < m.1 + n) with | some e => tierMiss s e.1 | none => s
  let t := memW { t with bad := t.bad.filter fun e => !decide (m.2 ≤ e.1 ∧ e.1 < m.2 + n) } m.2 (memR s m.1 n)
  lost.foldl (fun t w => strike t (m.2 + (w - m.1))) t

/-- An allocation of the tier follows the segments that moved: (old device address, new bank and offset in 64-byte units). -/
def allocMoved (mv : List (Nat × Nat × Nat)) (x : Nat × Nat × Nat) : Nat × Nat × Nat :=
  match mv.find? fun m => x.1 == 1 && tierBase + x.2.1 == m.1 with
  | some m => (1, m.2.1 * bankSize + 64 * m.2.2, x.2.2)
  | none => x

/-- The move itself: segments copied, their placement entries rewritten, the storage that slots hold, count and record. -/
def lgMove (s : State) (a lg : Nat) (h : Hist) (places : List (Nat × Nat)) : State :=
  let js := lgSegs h lg
  let src := h.segs.getD (64 * lg) (0, 0, false)
  let mv := (js.zip places).map fun e => ((h.segs.getD e.1 (0, 0, false)).2.1, e.2.1, e.2.2 / 64)
  let place := leAt (memR s (tierBase + a) 64) 32 8
  let n := migCount s + 1
  let s := mv.foldl (fun s m => segCopy s (2 * segPos h * h.dim) (m.1, bankA m.2.1 + 64 * m.2.2)) s
  let s := (js.zip mv).foldl (fun s e =>
    memW s (tierBase + place + 16 * e.1) (leBytes 4 e.2.2.1 ++ leBytes 4 e.2.2.2 ++ leBytes 8 0)) s
  let s := { s with bank := { s.bank with times := tset 0 s.bank.times 8192 (s.gt / 1000000 * 256 + n) },
                    slots := s.slots.map fun e => (e.1, { e.2 with allocs := e.2.allocs.map (allocMoved mv) }) }
  tierRecord (bump s rBT_LG_MIGRATE) 8 (src.1 / 64) (src.1 % 64) (physBank s src.1) 0

/-- LG_MIGRATE: logical group `lg` of the history at tier address `a` moves, if it is to leave its physical group, no command names the
history, the limit of moves allows it and a group has room. What its reads meet strikes first (R194). -/
def lgMigrate (s : State) (a lg : Nat) (hits : List EngHit) : State :=
  match histAt s a with
  | .error _ => s
  | .ok h =>
    let src := (h.segs.getD (64 * lg) (0, 0, false)).1 / 64
    if (lgSegs h lg).isEmpty || histBusy s a || !groupLeaves s src || decide (migCount s ≥ migLimit s) then s
    else match lgPlaces s h lg src with
      | some ps => lgMove (hitsStrike s hits) a lg h ps
      | none => s

/-- LG_MIGRATE (R185). -/
def execLgMigrate (rec_ lg : Nat) (hits : List EngHit) (s : State) : Host.Outcome State Fault Refusal := .next (lgMigrate s rec_ lg hits)

end Sys2Proof.Machine
end

