-- ==== Sys2Proof/Machine/WeaveCmds.lean ====
section
/-! DEFINITION. Weave commands and the patch switch (R381, R383, R387 to R389). -/

namespace Sys2Proof.Machine

/-- A weave command ends: its record and completion word. -/
def weaveEnd (s : State) (b : Bytes) (event status : Nat) : State :=
  let tag := leAt b 6 2
  mboxDone (wvRecord s (byteAt b 3) event { status := status, tag := tag }) (byteAt b 0) status tag

/-- A weave command fails. -/
def weaveFail (s : State) (b : Bytes) (status : Nat) : State := weaveEnd s b 5 status

/-- The block of a weave command is well formed and the state accepts it (Table WV-7, R417). -/
def weaveForm (s : State) (b : Bytes) : Bool :=
  running s && decide (byteAt b 1 < 2) && (byteAt b 1 == 0 || byteAt b 0 == 9) && byteAt b 2 == 0 && decide (byteAt b 3 < 64) && zeros b 4 2 && zeros b 32 32

/-- FROM and SIZE of a command that takes an image. -/
def weaveArgs (s : State) (b : Bytes) : Bool :=
  decide (leAt b 8 8 % 64 = 0 ∧ leAt b 16 8 ≤ 2 ^ 26 ∧ (leAt b 24 8 ≤ s.gt + 3600000000000 ∨ byteAt b 0 ≠ 10))

/-- The image in the staging region; none: it lies outside, or cannot be read. -/
def weaveFetch (s : State) (b : Bytes) (bad : Bool) : Option Bytes :=
  let (base, size) := lpRegion s 1
  let a := lpBase + base + leAt b 8 8
  let n := leAt b 16 8
  if leAt b 8 8 + n > size || bad || (memBad s a n).isSome then none else some (memR s a n)

/-- The read of an image from the staging region is counted by channel (Table OBS-2). -/
def weaveRead (s t : State) (b : Bytes) : State := lpCount t 0 (lpBase + (lpRegion s 1).1 + leAt b 8 8) (leAt b 16 8)

/-- The weave slot that WSTORE fills: not the one used at the last start; after a default image, the one with the lower SEQ or
none. -/
def storeSlot (s : State) : Nat :=
  if s.wv.default_ then (match weaveSlots s with | [e] => 1 - e.1 | [_, e] => e.1 | _ => 0) else 1 - s.wv.slot % 2

/-- WSTORE (R388): the image is checked and stored; RESET then starts a chip reset. -/
def runWstore (bad : Bool) (s : State) (b : Bytes) : State :=
  if !weaveForm s b || !weaveArgs s b then weaveFail s b 8
  else match weaveFetch s b bad with
    | none => weaveFail s b 6
    | some img => weaveRead s (match weaveCheck s img 0 with
      | some st => weaveFail s b st
      | none =>
        if !flsMounted s || s.pwr.fail then weaveFail s b 9
        else
          let q := ((weaveSlots s).map fun e => e.2.1).foldl max 0 + 1
          let s := fUnitPut s 0x41 (256 + storeSlot s) 0 q img
          let s := weaveEnd s b 6 0
          if bit (byteAt b 1) 0 then startReset s 1 0xFF 0 0 else s) b

/-- WPATCH (R387): the patch is checked and its clamps and rejections are reported; it then waits for its APPLY_AT. -/
def runWpatch (bad : Bool) (s : State) (b : Bytes) : State :=
  if !weaveForm s b || !weaveArgs s b then weaveFail s b 8
  else if s.wv.pending.isSome then weaveFail s b 7
  else match weaveFetch s b bad with
    | none => weaveFail s b 6
    | some img => weaveRead s (match weaveCheck s img 1 with
      | some st => weaveFail s b st
      | none =>
        let s := (patchRun s img).recs.foldl (fun s e => wvRecord s (byteAt img 12) e.1 e.2) s
        let at_ := leAt b 24 8
        { s with wv := { s.wv with pending := some { block := b, image := img, at_ := at_, late := decide (at_ ≠ 0 ∧ at_ ≤ s.gt) } } }) b

/-- WQUERY: STATE with both digests. -/
def runWquery (s : State) (b : Bytes) : State := if !weaveForm s b then weaveFail s b 8 else weaveEnd s b 7 0

/-- A pending patch is discarded: CANCELLED, and its command ends. -/
def patchDrop (s : State) (p : Patch) : State := weaveEnd { s with wv := { s.wv with pending := none } } p.block 9 0

/-- WCANCEL: before APPLY_AT the pending patch is discarded; otherwise STATE (Table WV-8). -/
def runWcancel (s : State) (b : Bytes) : State :=
  if !weaveForm s b then weaveFail s b 8
  else match s.wv.pending with
    | none => weaveFail s b 7
    | some p => if p.at_ ≤ s.gt then weaveFail s b 7 else weaveEnd (patchDrop s p) b 9 0

/-- PATCH_SWITCH (R387): at APPLY_AT the epoch advances, every patched field takes its value, and PATCHED follows. -/
def patchSwitch (s : State) : State :=
  match s.wv.pending with
  | none => s
  | some p =>
    if p.at_ > s.gt then s
    else
      let r := patchRun (epochAdvance { s with wv := { s.wv with pending := none } } 2) p.image
      let s := ringUpdate r.st
      let st := if p.late then 7 else 0
      let tag := leAt p.block 6 2
      mboxDone (wvRecord s (byteAt p.block 3) 4 { status := st, tag := tag, count := r.clamps, rejects := r.rejects }) (byteAt p.block 0) st tag

/-! ### The commands -/

/-- WSTORE (R388). -/
def execWstore (fetchBad : Bool) (s : State) : Host.Outcome State Fault Refusal := .next (mboxRun s 9 (runWstore fetchBad))

/-- WPATCH (R387). -/
def execWpatch (fetchBad : Bool) (s : State) : Host.Outcome State Fault Refusal := .next (mboxRun s 10 (runWpatch fetchBad))

/-- WQUERY (R388). -/
def execWquery (s : State) : Host.Outcome State Fault Refusal := .next (mboxRun s 11 runWquery)

/-- WCANCEL (R388). -/
def execWcancel (s : State) : Host.Outcome State Fault Refusal := .next (mboxRun s 12 runWcancel)

/-- PATCH_SWITCH (R387). -/
def execPatchSwitch (s : State) : Host.Outcome State Fault Refusal := .next (patchSwitch s)

/-- DIGEST_GRACE_END (R383). -/
def execDigestGraceEnd (s : State) : Host.Outcome State Fault Refusal := .next (digestGraceEnd s)

end Sys2Proof.Machine
end

