-- ==== Sys2Proof/Machine/Dispatch.lean ====
section
/-! DEFINITION. One arm per command: the direct call of its meaning. -/

namespace Sys2Proof.Machine

/-- The effect of a command on everything but the queue. -/
def exec (i : Instr) (s : State) : Host.Outcome State Fault Refusal :=
  match i with
  | .frameReceive port sub bytes fecBad ptp => Sys2Proof.Machine.execFrameReceive port sub bytes fecBad ptp s
  | .pfcFrameReceive port sub bytes fecBad => Sys2Proof.Machine.execPfcFrameReceive port sub bytes fecBad s
  | .endStatus p cell => Sys2Proof.Machine.execEndStatus p cell s
  | .pipeDescriptor p par => Sys2Proof.Machine.execPipeDescriptor p par s
  | .latencyBoundExpiry p cell => Sys2Proof.Machine.execLatencyBoundExpiry p cell s
  | .bankRead b opc off len hit => Sys2Proof.Machine.execBankRead b opc off len hit s
  | .bankWrite b off data hit => Sys2Proof.Machine.execBankWrite b off data hit s
  | .probe p ep key par => Sys2Proof.Machine.execProbe p ep key par s
  | .commit p key ep cls port gt seq fstate par => Sys2Proof.Machine.execCommit p key ep cls port gt seq fstate par s
  | .age p ep way bucket par => Sys2Proof.Machine.execAge p ep way bucket par s
  | .scanPassStart p ep => Sys2Proof.Machine.execScanPassStart p ep s
  | .insertTokenAccrue p => Sys2Proof.Machine.execInsertTokenAccrue p s
  | .moveTokenAccrue p => Sys2Proof.Machine.execMoveTokenAccrue p s
  | .score b rec_ nq codes hit => Sys2Proof.Machine.execScore b rec_ nq codes hit s
  | .value b rec_ ms cs hit => Sys2Proof.Machine.execValue b rec_ ms cs hit s
  | .bankTopk b rec_ nq k codes hit => Sys2Proof.Machine.execBankTopk b rec_ nq k codes hit s
  | .dot b rec_ nv codes hit => Sys2Proof.Machine.execDot b rec_ nv codes hit s
  | .bankXpose b off spitch dst dpitch two hit => Sys2Proof.Machine.execBankXpose b off spitch dst dpitch two hit s
  | .append b rec_ pos key val hit => Sys2Proof.Machine.execAppend b rec_ pos key val hit s
  | .migrationCopy b units => Sys2Proof.Machine.execMigrationCopy b units s
  | .patrolScrub b unit hit => Sys2Proof.Machine.execPatrolScrub b unit hit s
  | .bankRemap bank => Sys2Proof.Machine.execBankRemap bank s
  | .bankRefresh bank => Sys2Proof.Machine.execBankRefresh bank s
  | .activationWindow acts => Sys2Proof.Machine.execActivationWindow acts s
  | .lgMigrate rec_ lg hits => Sys2Proof.Machine.execLgMigrate rec_ lg hits s
  | .requestAdmit l ue => Sys2Proof.Machine.execRequestAdmit l ue s
  | .nop d => Sys2Proof.Machine.execNop d s
  | .take d => Sys2Proof.Machine.execTake d s
  | .post d => Sys2Proof.Machine.execPost d s
  | .kset d => Sys2Proof.Machine.execKset d s
  | .commandComplete l slot => Sys2Proof.Machine.execCommandComplete l slot s
  | .teardown ctx => Sys2Proof.Machine.execTeardown ctx s
  | .ctxFault ctx => Sys2Proof.Machine.execCtxFault ctx s
  | .knotRead ctx => Sys2Proof.Machine.execKnotRead ctx s
  | .knotWrite ctx => Sys2Proof.Machine.execKnotWrite ctx s
  | .quiesceEnd ctx => Sys2Proof.Machine.execQuiesceEnd ctx s
  | .quiesceTimeout ctx => Sys2Proof.Machine.execQuiesceTimeout ctx s
  | .matmul l hits => Sys2Proof.Machine.execMatmul l hits s
  | .eval l hits => Sys2Proof.Machine.execEval l hits s
  | .stream l hits => Sys2Proof.Machine.execStream l hits s
  | .passStart l => Sys2Proof.Machine.execPassStart l s
  | .passChunk l hits => Sys2Proof.Machine.execPassChunk l hits s
  | .ew l hits => Sys2Proof.Machine.execEw l hits s
  | .fma l hits => Sys2Proof.Machine.execFma l hits s
  | .reduce l hits => Sys2Proof.Machine.execReduce l hits s
  | .softmax l hits => Sys2Proof.Machine.execSoftmax l hits s
  | .norm l hits => Sys2Proof.Machine.execNorm l hits s
  | .lut l hits => Sys2Proof.Machine.execLut l hits s
  | .quant l hits => Sys2Proof.Machine.execQuant l hits s
  | .dequant l hits => Sys2Proof.Machine.execDequant l hits s
  | .combine l hits => Sys2Proof.Machine.execCombine l hits s
  | .convert l hits => Sys2Proof.Machine.execConvert l hits s
  | .copy l hits => Sys2Proof.Machine.execCopy l hits s
  | .gather l hits => Sys2Proof.Machine.execGather l hits s
  | .scatter l hits => Sys2Proof.Machine.execScatter l hits s
  | .transpose l hits => Sys2Proof.Machine.execTranspose l hits s
  | .fill l hits => Sys2Proof.Machine.execFill l hits s
  | .attend l hits => Sys2Proof.Machine.execAttend l hits s
  | .topk l hits => Sys2Proof.Machine.execTopk l hits s
  | .happend l hits => Sys2Proof.Machine.execHappend l hits s
  | .gemv l hits => Sys2Proof.Machine.execGemv l hits s
  | .xpose l hits => Sys2Proof.Machine.execXpose l hits s
  | .resultRecord p => Sys2Proof.Machine.execResultRecord p s
  | .refusalVerdict p => Sys2Proof.Machine.execRefusalVerdict p s
  | .ledgerHoldExpiry p slot => Sys2Proof.Machine.execLedgerHoldExpiry p slot s
  | .sampleWindowEnd p => Sys2Proof.Machine.execSampleWindowEnd p s
  | .schedulerDecision port sub hit => Sys2Proof.Machine.execSchedulerDecision port sub hit s
  | .dequeueEnd port sub => Sys2Proof.Machine.execDequeueEnd port sub s
  | .pauseExpiry port sub pri => Sys2Proof.Machine.execPauseExpiry port sub pri s
  | .sampleSweep p late => Sys2Proof.Machine.execSampleSweep p late s
  | .laneFail port sub => Sys2Proof.Machine.execLaneFail port sub s
  | .recordAccept => Sys2Proof.Machine.execRecordAccept s
  | .apertureRead q off len hit => Sys2Proof.Machine.execApertureRead q off len hit s
  | .rqMark q => Sys2Proof.Machine.execRqMark q s
  | .rqRewind q => Sys2Proof.Machine.execRqRewind q s
  | .rqRelease q => Sys2Proof.Machine.execRqRelease q s
  | .rqMarkRelease q => Sys2Proof.Machine.execRqMarkRelease q s
  | .rqFlush q => Sys2Proof.Machine.execRqFlush q s
  | .cellReclaim => Sys2Proof.Machine.execCellReclaim s
  | .grnInsert p ep ksize => Sys2Proof.Machine.execGrnInsert p ep ksize s
  | .grnDelete p ep ksize => Sys2Proof.Machine.execGrnDelete p ep ksize s
  | .grnRead p ep ksize par => Sys2Proof.Machine.execGrnRead p ep ksize par s
  | .grnPin p ep ksize => Sys2Proof.Machine.execGrnPin p ep ksize s
  | .grnUnpin p ep ksize => Sys2Proof.Machine.execGrnUnpin p ep ksize s
  | .grnFlush p ep statics => Sys2Proof.Machine.execGrnFlush p ep statics s
  | .grnCfgWrite p ep v => Sys2Proof.Machine.execGrnCfgWrite p ep v s
  | .grnEvictSeedWrite p v => Sys2Proof.Machine.execGrnEvictSeedWrite p v s
  | .tmAqmSeedWrite p v => Sys2Proof.Machine.execTmAqmSeedWrite p v s
  | .policerCfgWrite p n word v => Sys2Proof.Machine.execPolicerCfgWrite p n word v s
  | .shaperCfgWrite p group n word v => Sys2Proof.Machine.execShaperCfgWrite p group n word v s
  | .load fetchBad => Sys2Proof.Machine.execLoad fetchBad s
  | .arm => Sys2Proof.Machine.execArm s
  | .unload => Sys2Proof.Machine.execUnload s
  | .libstore fetchBad => Sys2Proof.Machine.execLibstore fetchBad s
  | .libdelete => Sys2Proof.Machine.execLibdelete s
  | .chanOpen => Sys2Proof.Machine.execChanOpen s
  | .chanClose => Sys2Proof.Machine.execChanClose s
  | .chunkFrame port sub bytes fecBad => Sys2Proof.Machine.execChunkFrame port sub bytes fecBad s
  | .channelTimeout session => Sys2Proof.Machine.execChannelTimeout session s
  | .slotCommit ctx => Sys2Proof.Machine.execSlotCommit ctx s
  | .forcedCommit ctx => Sys2Proof.Machine.execForcedCommit ctx s
  | .drainEnd ctx slot => Sys2Proof.Machine.execDrainEnd ctx slot s
  | .reqMessage l flits => Sys2Proof.Machine.execReqMessage l flits s
  | .rspMessage l flits => Sys2Proof.Machine.execRspMessage l flits s
  | .headMessage l flits => Sys2Proof.Machine.execHeadMessage l flits s
  | .loadMessage l flits => Sys2Proof.Machine.execLoadMessage l flits s
  | .liveMessage l flits => Sys2Proof.Machine.execLiveMessage l flits s
  | .liveSend => Sys2Proof.Machine.execLiveSend s
  | .peerLost dev => Sys2Proof.Machine.execPeerLost dev s
  | .peerBack dev => Sys2Proof.Machine.execPeerBack dev s
  | .fwdExpire p entry => Sys2Proof.Machine.execFwdExpire p entry s
  | .retrain l lanes => Sys2Proof.Machine.execRetrain l lanes s
  | .plLaneFail l => Sys2Proof.Machine.execPlLaneFail l s
  | .linkUp l lanes neighbour => Sys2Proof.Machine.execLinkUp l lanes neighbour s
  | .windowBoundary pOther eMeas => Sys2Proof.Machine.execWindowBoundary pOther eMeas s
  | .stepGlideEnd p => Sys2Proof.Machine.execStepGlideEnd p s
  | .pwrLimitChange pins => Sys2Proof.Machine.execPwrLimitChange pins s
  | .pwrCapWrite v => Sys2Proof.Machine.execPwrCapWrite v s
  | .droop p => Sys2Proof.Machine.execDroop p s
  | .sensorSample die tier => Sys2Proof.Machine.execSensorSample die tier s
  | .pwrFailAssert => Sys2Proof.Machine.execPwrFailAssert s
  | .pwrFailDeassert => Sys2Proof.Machine.execPwrFailDeassert s
  | .engineHang l e => Sys2Proof.Machine.execEngineHang l e s
  | .pipeSteer p => Sys2Proof.Machine.execPipeSteer p s
  | .pipeReplayEnd p => Sys2Proof.Machine.execPipeReplayEnd p s
  | .tmHang p => Sys2Proof.Machine.execTmHang p s
  | .pairMismatch p b copy => Sys2Proof.Machine.execPairMismatch p b copy s
  | .pllLossOfLock p => Sys2Proof.Machine.execPllLoss p s
  | .islandVoteDisagree k => Sys2Proof.Machine.execIslandDisagree k s
  | .islandResyncEnd => Sys2Proof.Machine.execIslandResync s
  | .islandWatchdog => Sys2Proof.Machine.execIslandWatchdog s
  | .siteFail site cube drops => Sys2Proof.Machine.execSiteFail site cube drops s
  | .regionRestoreEnd ctx => Sys2Proof.Machine.execRegionRestoreEnd ctx s
  | .lpChannelRetire ch => Sys2Proof.Machine.execLpChannelRetire ch s
  | .escalationTimeout level unit => Sys2Proof.Machine.execEscalationTimeout level unit s
  | .engineReset site engine => Sys2Proof.Machine.execEngineReset site engine s
  | .partReset p => Sys2Proof.Machine.execPartReset p s
  | .chipReset => Sys2Proof.Machine.execChipReset s
  | .capture p chip => Sys2Proof.Machine.execCapture p chip s
  | .captureEnd num sections => Sys2Proof.Machine.execCaptureEnd num sections s
  | .flashReadComplete blk page cw bitsN step => Sys2Proof.Machine.execFlashReadComplete blk page cw bitsN step s
  | .programComplete blk pages ok => Sys2Proof.Machine.execProgramComplete blk pages ok s
  | .eraseComplete blk ok => Sys2Proof.Machine.execEraseComplete blk ok s
  | .flashPatrol reads => Sys2Proof.Machine.execFlashPatrol reads s
  | .lifeCommit => Sys2Proof.Machine.execLifeCommit s
  | .captureCopy => Sys2Proof.Machine.execCaptureCopy s
  | .lifeFetch => Sys2Proof.Machine.execLifeFetch s
  | .captureFetch slot => Sys2Proof.Machine.execCaptureFetch slot s
  | .patrolNow => Sys2Proof.Machine.execPatrolNow s
  | .samplerRecord => Sys2Proof.Machine.execSamplerRecord s
  | .logPageCommit => Sys2Proof.Machine.execLogPageCommit s
  | .samplerRead off len => Sys2Proof.Machine.execSamplerRead off len s
  | .logPageFetch bad => Sys2Proof.Machine.execLogPageFetch bad s
  | .seek => Sys2Proof.Machine.execSeek s
  | .oldest => Sys2Proof.Machine.execOldest s
  | .newest => Sys2Proof.Machine.execNewest s
  | .counterRead => Sys2Proof.Machine.execCounterRead s
  | .obsClear => Sys2Proof.Machine.execObsClear s
  | .snapshot => Sys2Proof.Machine.execSnapshot s
  | .snapshotPeriod busy => Sys2Proof.Machine.execSnapshotPeriod busy s
  | .wstore fetchBad => Sys2Proof.Machine.execWstore fetchBad s
  | .wpatch fetchBad => Sys2Proof.Machine.execWpatch fetchBad s
  | .wquery => Sys2Proof.Machine.execWquery s
  | .wcancel => Sys2Proof.Machine.execWcancel s
  | .patchSwitch => Sys2Proof.Machine.execPatchSwitch s
  | .digestGraceEnd => Sys2Proof.Machine.execDigestGraceEnd s
  | .pgoodAonRise straps => Sys2Proof.Machine.execPgoodAonRise straps s
  | .pgoodMainRise => Sys2Proof.Machine.execPgoodMainRise s
  | .pgoodMainFall => Sys2Proof.Machine.execPgoodMainFall s
  | .startStageEnd found => Sys2Proof.Machine.execStartStageEnd found s
  | .stageTimeout long => Sys2Proof.Machine.execStageTimeout long s
  | .attest => Sys2Proof.Machine.execAttest s
  | .identity => Sys2Proof.Machine.execIdentity s
  | .enrol burns => Sys2Proof.Machine.execEnrol burns s
  | .revoke burns => Sys2Proof.Machine.execRevoke burns s
  | .fwload => Sys2Proof.Machine.execFwload s
  | .fwstore => Sys2Proof.Machine.execFwstore s
  | .svnRaise burns => Sys2Proof.Machine.execSvnRaise burns s
  | .start => Sys2Proof.Machine.execStart s
  | .rd addr len crc ready early hit meets => Sys2Proof.Machine.execRd addr len crc ready early hit meets s
  | .wr addr len data crc cut full => Sys2Proof.Machine.execWr addr len data crc cut full s
  | .rdsr complete free => Sys2Proof.Machine.execRdsr complete free s
  | .rdid => Sys2Proof.Machine.execRdid s
  | .rsten => Sys2Proof.Machine.execRsten s
  | .rst => Sys2Proof.Machine.execRst s
  | .mailboxDoorbell => Sys2Proof.Machine.execMailboxDoorbell s
  | .unknownOp => Sys2Proof.Machine.execUnknownOp s
  | .mailboxDoneRead => Sys2Proof.Machine.execMailboxDoneRead s
  | .epochRead => Sys2Proof.Machine.execEpochRead s
  | .globalTimeRead => Sys2Proof.Machine.execGlobalTimeRead s
  | .registerWrite addr value => Sys2Proof.Machine.execRegisterWrite addr value s
  | .time1ppsEdge off => Sys2Proof.Machine.execTime1ppsEdge off s
  | .smbusReadWord addr code => Sys2Proof.Machine.execSmbusReadWord addr code s
  | .smbusBlockRead addr code => Sys2Proof.Machine.execSmbusBlockRead addr code s
  | .smbusAlertResponse => Sys2Proof.Machine.execSmbusAlertResponse s
  | .fpLinkUp port sub => Sys2Proof.Machine.execFpLinkUp port sub s
  | .flitCrcError l flit => Sys2Proof.Machine.execFlitCrcError l flit s
  | .idleFlit l flit => Sys2Proof.Machine.execIdleFlit l flit s
  | .stretchEnd p => Sys2Proof.Machine.execStretchEnd p s
  | .sramPatrolScrub site ces => Sys2Proof.Machine.execSramPatrolScrub site ces s
  | .lpPatrolScrub first last ces => Sys2Proof.Machine.execLpPatrolScrub first last ces s
  | .lpPeriodicRetrain ch => Sys2Proof.Machine.execLpPeriodicRetrain ch s
  | .timeSourceChange ref pps ptp off => Sys2Proof.Machine.execTimeSourceChange ref pps ptp off s
  | .hostPortReady => Sys2Proof.Machine.execHostPortReady s
  | .cellPoolReclaim p => Sys2Proof.Machine.execCellPoolReclaim p s
  | .pgoodAonFall => Sys2Proof.Machine.execPgoodAonFall s
  | .traceQueueDrain l => Sys2Proof.Machine.execTraceQueueDrain l s
  | .retentionRefresh blk => Sys2Proof.Machine.execRetentionRefresh blk s

end Sys2Proof.Machine
end

