-- ==== Sys2Proof/Machine/Tick.lean ====
section
/-! DEFINITION. A nanosecond that passes while no command waits: Global Time and the cycle counters (R26, R361, R362, R364, R442;
log entry 1). -/

namespace Sys2Proof.Machine

/-! ### Cycle counters (R361, R362) -/

/-- TCLK and PCLK of partition `p` run: locked by the start, not stopped by a trip, a reset or the fall of PGOOD_MAIN (R307, R362,
R438). -/
def clocksRun (s : State) (p : Nat) : Bool :=
  s.boot.main && decide (5 < s.boot.stage ∧ s.boot.stage ≤ stRun) && !s.pwr.tripped && !resetCovers s p

/-- TCLK of partition `p` runs: not while it switches to the standby PLL (R324, R362). -/
def tclkRuns (s : State) (p : Nat) : Bool := clocksRun s p && !pllSwaps s p

/-- TCLK cycles of partition `p` that end in this nanosecond: half-MHz units are kept in `frac`, and a stretched cycle takes
twice its period (R304). -/
def tclkEdges (s : State) (p : Nat) : Nat × State :=
  let n := tget 0 s.frac (2 ^ 48 + p) + tclk s p * (if (pwrGet s p).stretching then 1 else 2)
  (n / 2000, { s with frac := tset 0 s.frac (2 ^ 48 + p) (n % 2000) })

/-- `n` TCLK cycles of tile `l`: CYCLES, STRETCH_CYCLES, the busy counters, SCOPE_CYCLES, the cycles that trace
holds (R370), and the waits for tokens of R299. -/
def tileTick (p n : Nat) (s : State) (l : Nat) : State :=
  if (tileGet s l).site.isNone then s
  else
    let lead := if braidOdd s l then l - 1 else l
    let s := cinc (cinc s (cTile l 0) n) (cTile l 18) n
    let s := if (pwrGet s p).stretching then cinc s (cTile l 1) n else s
    let s := if traceStalled s l then bumpDiv s rOBS_TRC_STALL n 1024 else s
    let s := ([1, 2, 3, 4, 5] : List Nat).foldl (fun s e => if (sbEngine s lead e).isEmpty then s else cinc s (cTile l (1 + e)) n) s
    if decide ((tileGet s l).lastIssue ≠ s.gt) && (tileCtxs s l).any fun c => tokenBlocked s l c then
      bumpDiv (cinc (cinc s (cTile l 8) n) (cPart p 19) n) rPWR_TOKEN_WAIT n 1024
    else s

/-- A partition's clocks for one nanosecond; PCLK runs at 2 GHz (log entry 39). -/
def partTick (s : State) (p : Nat) : State :=
  if !clocksRun s p then s
  else
    let (n, s) := if tclkRuns s p then tclkEdges (cinc s (cPart p 0) 2) p else (0, cinc s (cPart p 0) 2)
    ((List.range (if unguarded s then 5 else 4)).map fun i => firstTile s p + i).foldl (tileTick p n) s

/-! ### Global Time (R442) -/

/-- Global Time counts one nanosecond; at most one in a million is slewed away or added. -/
def gtTick (s : State) : State :=
  let t := s.time
  if t.slew ≠ 0 ∧ t.count + 1 ≥ 1000000 then
    let up := decide (t.slew > 0)
    { s with gt := s.gt + (if up then 2 else 0), time := { t with slew := t.slew + (if up then -1 else 1), count := 0, up := t.up + 1 } }
  else { s with gt := s.gt + 1, time := { t with count := if t.slew = 0 then 0 else t.count + 1, up := t.up + 1 } }

/-- What the engines, the bank-side engines, the fault controller and the PTP client have waiting to do (log entries 141 and 146). -/
def unitsTick (s : State) : State := stampsRead (sitesOut (enginesAll s))

/-- One nanosecond of the device; nothing runs without VDD_AON. Every 10 µs of powered time takes a telemetry sample (R444). -/
def tick (s : State) : State :=
  if !s.boot.aon then s
  else
    let s := gtTick (([0, 1, 2, 3] : List Nat).foldl idleSlot (([0, 1, 2, 3] : List Nat).foldl partTick (demandNow (unitsTick s))))
    let s := if s.time.up % 10 = 0 then cinc s (cDev 0) 1 else s
    if s.time.up % 10000 = 0 then smbSample s else s

end Sys2Proof.Machine
end

