-- ==== Sys2Proof/WellFormed.lean ====
section
/-! DEFINITION. Which commands are well formed: operands that name a unit or a field of the device lie in its range. The meanings are
total on every operand all the same. -/

namespace Sys2Proof

/-- A bank operation's header (Table BT-2): a SRCKIND of the table, the row's own issuer where Table BT-3 names one, field widths. -/
def hdrOk (h : BankHdr) (kind : Option Nat) : Bool :=
  decide (h.kind ≤ 5 ∧ h.id < 64 ∧ h.ply < 4096 ∧ h.tag < 65536) && (match kind with | some k => h.kind == k | none => true)

/-- A key of the sizes of Table GRN-1: 16, 32, 48 or 64 bytes. -/
def keyOk (k : Bytes) : Bool := k.length % 16 == 0 && decide (16 ≤ k.length ∧ k.length ≤ 64)

/-- The operands name units and fields that exist. -/
def wellFormed (i : Instr) : Bool :=
  match i with
  | .recordAccept => true
  | .apertureRead q off len _ => decide (q < 64 ∧ off + len ≤ 512)
  | .rqMark q => decide (q < 64)
  | .rqRewind q => decide (q < 64)
  | .rqRelease q => decide (q < 64)
  | .rqMarkRelease q => decide (q < 64)
  | .rqFlush q => decide (q < 64)
  | .cellReclaim => true
  | .counterRead => true
  | .obsClear => true
  | .snapshot => true
  | .snapshotPeriod _ => true
  | .traceQueueDrain l => decide (l < 20)
  | .schedulerDecision port sub _ => decide (port < 16 ∧ sub < 4)
  | .dequeueEnd port sub => decide (port < 16 ∧ sub < 4)
  | .pauseExpiry port sub pri => decide (port < 16 ∧ sub < 4 ∧ pri < 8)
  | .sampleSweep p _ => decide (p < 4)
  | .tmAqmSeedWrite p _ => decide (p < 4)
  | .policerCfgWrite p _ word _ => decide (p < 4 ∧ word < 4)
  | .shaperCfgWrite p _ _ word _ => decide (p < 4 ∧ word < 2)
  | .cellPoolReclaim p => decide (p < 4)
  | .resultRecord p => decide (p < 4)
  | .refusalVerdict p => decide (p < 4)
  | .latencyBoundExpiry p _ => decide (p < 4)
  | .ledgerHoldExpiry p slot => decide (p < 4 ∧ slot < 65536)
  | .sampleWindowEnd p => decide (p < 4)
  | .probe p _ key _ => decide (p < 4) && keyOk key
  | .age p _ way _ _ => decide (p < 4 ∧ way < 4)
  | .scanPassStart p _ => decide (p < 4)
  | .insertTokenAccrue p => decide (p < 4)
  | .moveTokenAccrue p => decide (p < 4)
  | .grnInsert p _ _ => decide (p < 4)
  | .grnDelete p _ _ => decide (p < 4)
  | .grnRead p _ _ _ => decide (p < 4)
  | .grnPin p _ _ => decide (p < 4)
  | .grnUnpin p _ _ => decide (p < 4)
  | .grnFlush p _ _ => decide (p < 4)
  | .grnCfgWrite p _ _ => decide (p < 4)
  | .grnEvictSeedWrite p _ => decide (p < 4)
  | .frameReceive port sub _ _ _ => decide (port < 16 ∧ sub < 4)
  | .pfcFrameReceive port sub _ _ => decide (port < 16 ∧ sub < 4)
  | .endStatus p _ => decide (p < 4)
  | .pipeDescriptor p _ => decide (p < 4)
  | .commit p key ep _ port _ _ _ _ => decide (p < 4 ∧ port < 68) && keyOk key && ep.all keyOk
  | .laneFail port sub => decide (port < 16 ∧ sub < 4)
  | .fpLinkUp port sub => decide (port < 16 ∧ sub < 4)
  | .requestAdmit l _ => decide (l < 20)
  | .nop d => decide (d.tile < 20)
  | .take d => decide (d.tile < 20)
  | .post d => decide (d.tile < 20)
  | .kset d => decide (d.tile < 20)
  | .commandComplete l slot => decide (l < 20 ∧ slot < 256)
  | .teardown ctx => decide (ctx < 20480)
  | .ctxFault ctx => decide (ctx < 20480)
  | .knotRead ctx => decide (ctx < 20480)
  | .knotWrite ctx => decide (ctx < 20480)
  | .quiesceEnd ctx => decide (ctx < 20480)
  | .quiesceTimeout ctx => decide (ctx < 20480)
  | .matmul l _ => decide (l < 20)
  | .eval l _ => decide (l < 20)
  | .stream l _ => decide (l < 20)
  | .passStart l => decide (l < 20)
  | .passChunk l _ => decide (l < 20)
  | .ew l _ => decide (l < 20)
  | .fma l _ => decide (l < 20)
  | .reduce l _ => decide (l < 20)
  | .softmax l _ => decide (l < 20)
  | .norm l _ => decide (l < 20)
  | .lut l _ => decide (l < 20)
  | .quant l _ => decide (l < 20)
  | .dequant l _ => decide (l < 20)
  | .combine l _ => decide (l < 20)
  | .convert l _ => decide (l < 20)
  | .copy l _ => decide (l < 20)
  | .gather l _ => decide (l < 20)
  | .scatter l _ => decide (l < 20)
  | .transpose l _ => decide (l < 20)
  | .fill l _ => decide (l < 20)
  | .attend l _ => decide (l < 20)
  | .topk l _ => decide (l < 20)
  | .happend l _ => decide (l < 20)
  | .gemv l _ => decide (l < 20)
  | .xpose l _ => decide (l < 20)
  | .bankRead b _ off len _ => decide (b.bank < 4096 ∧ 1 ≤ len ∧ off + len ≤ 32768) && hdrOk b.hdr none
  | .bankWrite b off data _ => decide (b.bank < 4096 ∧ 0 < data.length ∧ off * 64 + data.length ≤ 2097152 ∧ data.length % 64 = 0) && hdrOk b.hdr none
  | .score b _ _ _ _ => decide (b.bank < 4096) && hdrOk b.hdr (some 2)
  | .value b _ _ _ _ => decide (b.bank < 4096) && hdrOk b.hdr (some 2)
  | .bankTopk b _ _ _ _ _ => decide (b.bank < 4096) && hdrOk b.hdr (some 2)
  | .dot b _ _ _ _ => decide (b.bank < 4096) && hdrOk b.hdr (some 2)
  | .bankXpose b _ _ _ _ _ _ => decide (b.bank < 4096) && hdrOk b.hdr (some 2)
  | .append b _ _ _ _ _ => decide (b.bank < 4096) && hdrOk b.hdr (some 2)
  | .migrationCopy b _ => decide (b.bank < 4096) && hdrOk b.hdr (some 5)
  | .patrolScrub b unit _ => decide (b.bank < 4096 ∧ unit < 32768) && hdrOk b.hdr (some 5)
  | .bankRemap bank => decide (bank < 4096)
  | .bankRefresh bank => decide (bank < 4096)
  | .activationWindow acts => acts.all fun e => decide (e.1 < 64 ∧ e.2.length = 4)
  | .lgMigrate _ _ _ => true
  | .samplerRecord => true
  | .logPageCommit => true
  | .samplerRead off len => decide (off + len ≤ 1024)
  | .logPageFetch _ => true
  | .seek => true
  | .oldest => true
  | .newest => true
  | .flashReadComplete _ _ _ _ step => decide (step ≤ 3)
  | .programComplete _ _ _ => true
  | .eraseComplete _ _ => true
  | .flashPatrol _ => true
  | .retentionRefresh _ => true
  | .lifeCommit => true
  | .captureCopy => true
  | .lifeFetch => true
  | .captureFetch slot => decide (slot < 16)
  | .patrolNow => true
  | .load _ => true
  | .arm => true
  | .unload => true
  | .libstore _ => true
  | .libdelete => true
  | .chanOpen => true
  | .chanClose => true
  | .chunkFrame port sub _ _ => decide (port < 16 ∧ sub < 4)
  | .channelTimeout session => decide (session < 4)
  | .slotCommit ctx => decide (ctx < 20480)
  | .forcedCommit ctx => decide (ctx < 20480)
  | .drainEnd ctx slot => decide (ctx < 20480 ∧ slot < 2)
  | .reqMessage l _ => decide (l < 4)
  | .rspMessage l _ => decide (l < 4)
  | .headMessage l _ => decide (l < 4)
  | .loadMessage l _ => decide (l < 4)
  | .liveMessage l _ => decide (l < 4)
  | .liveSend => true
  | .peerLost dev => decide (dev < 64)
  | .peerBack dev => decide (dev < 64)
  | .fwdExpire p entry => decide (p < 4 ∧ entry < 65536)
  | .retrain l lanes => decide (l < 4 ∧ lanes ≤ 8)
  | .plLaneFail l => decide (l < 4)
  | .linkUp l lanes _ => decide (l < 4 ∧ lanes ≤ 8)
  | .flitCrcError l _ => decide (l < 4)
  | .idleFlit l _ => decide (l < 4)
  | .engineHang l e => decide (l < 20 ∧ e < 8)
  | .pipeSteer p => decide (p < 4)
  | .pipeReplayEnd p => decide (p < 4)
  | .tmHang p => decide (p < 4)
  | .pairMismatch p b _ => decide (p < 4 ∧ b < 2)
  | .pllLossOfLock p => decide (p < 4)
  | .islandVoteDisagree k => decide (k < 3)
  | .islandResyncEnd => true
  | .islandWatchdog => true
  | .siteFail site _ _ => decide (site < 20)
  | .regionRestoreEnd ctx => decide (ctx < 20480)
  | .escalationTimeout level _ => decide (2 ≤ level ∧ level ≤ 4)
  | .engineReset site engine => decide (site < 20 ∧ engine < 8)
  | .partReset p => decide (p < 4)
  | .chipReset => true
  | .capture p _ => decide (p < 4)
  | .captureEnd _ _ => true
  | .windowBoundary _ eMeas => decide (eMeas.length = 4)
  | .stepGlideEnd p => decide (p < 4)
  | .pwrLimitChange pins => decide (pins < 8)
  | .pwrCapWrite _ => true
  | .droop p => decide (p < 4)
  | .stretchEnd p => decide (p < 4)
  | .sensorSample die tier => decide (die.length = 80 ∧ tier.length = 128)
  | .pwrFailAssert => true
  | .pwrFailDeassert => true
  | .wstore _ => true
  | .wpatch _ => true
  | .wquery => true
  | .wcancel => true
  | .patchSwitch => true
  | .digestGraceEnd => true
  | .lpChannelRetire ch => decide (ch < 16)
  | .sramPatrolScrub site _ => decide (site < 20)
  | .lpPatrolScrub _ _ _ => true
  | .lpPeriodicRetrain ch => decide (ch < 16)
  | .startStageEnd _ => true
  | .stageTimeout _ => true
  | .pgoodAonRise straps => decide (straps < 4)
  | .pgoodAonFall => true
  | .pgoodMainRise => true
  | .pgoodMainFall => true
  | .hostPortReady => true
  | .attest => true
  | .identity => true
  | .enrol _ => true
  | .revoke _ => true
  | .fwload => true
  | .fwstore => true
  | .svnRaise _ => true
  | .start => true
  | .rd addr len _ _ _ _ _ => decide (addr < 2 ^ 32 ∧ len < 65536)
  | .wr addr len _ _ _ _ => decide (addr < 2 ^ 32 ∧ len < 65536)
  | .rdsr _ _ => true
  | .rdid => true
  | .rsten => true
  | .rst => true
  | .mailboxDoorbell => true
  | .unknownOp => true
  | .mailboxDoneRead => true
  | .epochRead => true
  | .globalTimeRead => true
  | .registerWrite addr value => decide (addr % 4 = 0 ∧ value < 2 ^ 32)
  | .time1ppsEdge _ => true
  | .timeSourceChange _ _ _ _ => true
  | .smbusReadWord addr code => decide (addr < 128 ∧ code < 256)
  | .smbusBlockRead addr code => decide (addr < 128 ∧ code < 256)
  | .smbusAlertResponse => true

end Sys2Proof
end

