-- ==== Sys2Proof/Safety.lean ====
section
/-! DEFINITION. What counts as a sound state and a safe step, in the terms the claims use. -/

namespace Sys2Proof.Machine

/-! ### Canonical memories and registers -/

/-- A byte memory is in canonical form: addresses strictly rising, no byte equal to what an unlisted address reads as. -/
def Memory.wf (m : Tab Byte) : Bool := twf 0 m

/-- The register file is in canonical form: addresses strictly rising, no register listed at its reset value. -/
def regsWf : Tab Word → Bool
  | [] => true
  | (a, v) :: r => tabove a r && decide (v ≠ regReset a) && regsWf r

/-- A code of Table STA-1. -/
def stageLegal (n : Nat) : Bool := decide ((1 ≤ n ∧ n ≤ 0x0B) ∨ (0x10 ≤ n ∧ n ≤ 0x13))

/-- What every step keeps: device memory and the exchange buffer in canonical form, the start status a code of Table STA-1. -/
def Inv (s : State) : Prop := Memory.wf s.mem = true ∧ Memory.wf s.xbuf = true ∧ regsWf s.regs = true ∧ stageLegal s.boot.stage = true

/-! ### Fuses (R401) -/

/-- No fuse is unburned: FW_SVN_MIN, ENROL_EPOCH and LIFECYCLE never go back. -/
def fusesKept (s t : State) : Prop := s.boot.svnMin ≤ t.boot.svnMin ∧ s.boot.epoch ≤ t.boot.epoch ∧ s.boot.lifecycle ≤ t.boot.lifecycle

/-! ### Outcomes -/

/-- The command completes, and the state after it is as `P` says. -/
def runsTo (i : Instr) (s : State) (P : State → Prop) : Prop := ∃ t, exec i s = .next t ∧ P t

/-- Nothing stored has an error: no codeword is uncorrectable, no bank is fenced. -/
def intact (s : State) : Prop := s.bad = [] ∧ s.pwr.groups.all (fun g => g.2.fenced.isEmpty) = true

/-- The list of queue `q` at priority `p`. -/
def rqListOf (s : State) (q p : Nat) : RqList := tget rqList0 (rqGet s q).lists p

/-- Every register but those of a list reads as before. -/
def regsBut (s t : State) (as : List Nat) : Prop := ∀ a, a ∉ as → rg t a = rg s a

/-- Every byte of device memory outside `n` bytes at `a` reads as before. -/
def memBut (s t : State) (a n : Nat) : Prop := ∀ x, (x < a ∨ a + n ≤ x) → tget 0 t.mem x = tget 0 s.mem x

/-- Every byte of device memory reads as before, but for spans (first byte, length) of a partition's general home space. -/
def generalBut (s t : State) (p : Nat) (ys : List (Nat × Nat)) : Prop :=
  ∀ a, (∀ y n, (y, n) ∈ ys → ∀ e ∈ generalPieces s p (n / 512 + 2) y n, a < e.1 ∨ e.1 + e.2 ≤ a) → tget 0 t.mem a = tget 0 s.mem a

/-- The MAC of sub-port (n, m) receives frames: the sub-port carries traffic and the clocks run. -/
def macOpen (s : State) (n m : Nat) : Prop := n < 16 ∧ m < subCount s n ∧ linkUp s n m = true ∧ s.pwr.tripped = false

/-- The counter of a check of R36. -/
def macCounter (n k : Nat) : Nat := if k = 0 then rFP_RX_FEC_UNCORR n else if k = 1 then rFP_RX_SIZE_ERR n else rFP_RX_FCS_ERR n

/-- Every byte of device memory reads as before. -/
def memSame (s t : State) : Prop := ∀ x, tget 0 t.mem x = tget 0 s.mem x

/-- One advance of the global epoch for a cause; several in one ACLK cycle are one, with the lowest cause (R428). -/
def epochMoved (s t : State) (cause : Nat) : Prop :=
  if s.epochAt = s.gt / 10 + 1 then rg t rGLB_EPOCH = rg s rGLB_EPOCH ∧ t.epochCause = min s.epochCause cause
  else rg t rGLB_EPOCH = (rg s rGLB_EPOCH + 1) % 2 ^ 32 ∧ t.epochCause = cause

/-- A register that counts saturating at 0xFFFF_FFFF has counted `n`. -/
def counted (s t : State) (a n : Nat) : Prop := rg t a = min (rg s a + n) 0xFFFFFFFF

/-- Always-on counter `i` has counted `n`. -/
def cntUp (s t : State) (i n : Nat) : Prop := tget 0 t.obs.cnt i = tget 0 s.obs.cnt i + BitVec.ofNat 64 n

/-! ### Issue (R96, R98) -/

/-- The head command `w` of context `c` is a command of engine `e` and operation `op`, is the one that tile `l` issues next, and its operands
resolve inside their windows; no context of the tile has a head command of the row that must fault. -/
def issuesNow (s : State) (l e op c : Nat) (w : List Nat) : Prop :=
  (tileCtxs s l).find? (fun d => ctxRuns (ctxGet s d) && rowIs e op (headOf s d) && (headFault s d).isSome) = none ∧
  candidate s l = some c ∧ headOf s c = w ∧ cwEngine w = e ∧ cwOp w = op ∧
  (List.range (itersOf (ctxGet s c) w)).findSome? (fun j => opdFault s l (ctxGet s c).img (ctxGet s c).b j w) = none

/-- What every issue does: the ring moves on, the command is counted, its energy is charged. -/
def issuedBy (s t : State) (l c : Nat) (w : List Nat) : Prop :=
  let p := tilePart s l
  let x := ctxGet s c
  (ctxGet t c).pos = (x.pos + 1) % max 1 x.img.streamLen ∧ cntUp s t (cTile l 7) 1 ∧ counted s t (rTIL_ISSUED (tileSite s l)) 1 ∧
  (pwrGet t p).bucket = (pwrGet s p).bucket - costOf s x w ∧ (pwrGet t p).spent = (pwrGet s p).spent + costOf s x w

/-- A signal does not overflow its knot. -/
def sigFits (s : State) (l : Nat) (v : SlotImg) (sig : Option (Nat × Nat)) : Prop :=
  ∀ k n, sig = some (k, n) → knotGet s l v k + n ≤ 0xFFFFFFFF

/-- The knots after a signal: the one it names has grown, every other reads as before. -/
def signalled (s t : State) (l : Nat) (v : SlotImg) (sig : Option (Nat × Nat)) : Prop :=
  match sig with
  | none => t.knots = s.knots
  | some (k, n) => t.knots = tset 0 s.knots (knotKey l v k) (knotGet s l v k + n)

/-- Every context but `c` is as before. -/
def ctxsBut (s t : State) (c : Nat) : Prop := ∀ d, d ≠ c → ctxGet t d = ctxGet s d

/-- Context `c` is torn down for fault `code`. -/
def faultsWith (t : State) (c code : Nat) : Prop := (ctxGet t c).state = 2 ∧ (ctxGet t c).fault = code

/-- What follows an event at tile `l`: the engines start what they can; the dispatcher's own commands (engine 0) start nothing. -/
def thenRuns (e : Nat) (u : State) (l : Nat) : State := if e = 0 then u else enginesPump u l

/-- The commands that issue a head command: engine, operation, command. -/
def issueRows (l : Nat) : List (Nat × Nat × Instr) :=
  [(0, 0, .nop ⟨l, []⟩), (0, 1, .take ⟨l, []⟩), (0, 2, .post ⟨l, []⟩), (0, 3, .kset ⟨l, []⟩),
   (1, 0, .matmul l []), (2, 0, .eval l []), (2, 1, .stream l []),
   (3, 0, .ew l []), (3, 1, .fma l []), (3, 2, .reduce l []), (3, 3, .softmax l []), (3, 4, .norm l []),
   (3, 5, .lut l []), (3, 6, .quant l []), (3, 7, .dequant l []), (3, 8, .combine l []), (3, 9, .convert l []),
   (4, 0, .copy l []), (4, 1, .gather l []), (4, 2, .scatter l []), (4, 3, .transpose l []), (4, 4, .fill l []),
   (5, 0, .attend l []), (5, 1, .topk l []), (5, 2, .happend l []), (5, 3, .gemv l []), (5, 4, .xpose l [])]

/-! ### Engine commands: what they read and write (R94) -/

/-- Device addresses of `n` bytes at operand address `a` of a space. -/
def spBytes (s : State) (l : Nat) (v : SlotImg) (sp a n : Nat) : List Nat := (List.range n).map fun i => physA s l v sp (a + i)

/-- The writes (space, address, bytes) lie in their windows, and no byte of device memory is named twice. -/
def canWrite (s : State) (l : Nat) (v : SlotImg) (ws : List (Nat × Nat × Bytes)) : Prop :=
  (∀ e ∈ ws, inWin v e.1 e.2.1 e.2.2.length = true) ∧ (ws.flatMap fun e => spBytes s l v e.1 e.2.1 e.2.2.length).Nodup

/-- Each write stands where it was written, and every other byte of device memory reads as before. -/
def wrote (s t : State) (l : Nat) (v : SlotImg) (ws : List (Nat × Nat × Bytes)) : Prop :=
  (∀ e ∈ ws, spR t l v e.1 e.2.1 e.2.2.length = e.2.2) ∧
  ∀ y, (∀ e ∈ ws, y ∉ spBytes s l v e.1 e.2.1 e.2.2.length) → tget 0 t.mem y = tget 0 s.mem y

/-- No piece of work reads a byte that an earlier piece wrote. -/
def inOrder (n : Nat) (ins outs : Nat → List Nat) : Prop := ∀ r r', r' < r → r < n → ∀ y ∈ outs r', y ∉ ins r

/-- Engine `e` of tile `l` can start a command of operation `op` at once: no command of the tile waits, the Sheaf's quarters are free and good, no EVAL runs,
VX or the Mover has a free member, the score port is free and no bank group is critical. -/
def engineIdle (s : State) (l e op : Nat) : Prop :=
  waiting (sbUsed s l) = [] ∧
  (e = 1 → sbEngine s l 1 = [] ∧ failedMask s l = 0) ∧ (e = 2 → op = 0 → evalBusy s l 0 = false) ∧
  (e = 3 ∨ e = 4 → (sbEngine s l e).length < members s l) ∧ (e = 5 → sbEngine s l 5 = [] ∧ ∀ g, (groupGet s g).crit = false)

/-- An engine command of one iteration issues, its engine can start it at once, and nothing stored has an error. -/
def engineIssue (s : State) (l e op c : Nat) (w : List Nat) : Prop :=
  issuesNow s l e op c w ∧ itersOf (ctxGet s c) w = 1 ∧ engineIdle s l e op ∧ intact s

/-- An engine command has issued and its work is done: its waits are taken, it holds a scoreboard entry, its signal waits for its completion. -/
def engineIssued (s t : State) (l c : Nat) (w : List Nat) : Prop :=
  issuedBy s t l c w ∧ t.knots = (waitsTake s l (ctxGet s c).img w).knots ∧ ctxsBut s t c ∧
  (∃ i x, sbFree s l = some i ∧ tget none (tileGet t l).sb i = some x ∧ x.ctx = c ∧ x.ply = (ctxGet s c).ply ∧ x.engine = cwEngine w ∧
    x.index = (ctxGet s c).pos ∧ x.sig = sigOf w) ∧
  t = { s with pwr := t.pwr, ctxs := t.ctxs, tiles := t.tiles, jorder := t.jorder, obs := t.obs, regs := t.regs, frac := t.frac,
               freeCtr := t.freeCtr, knots := t.knots, mem := t.mem, carried := t.carried }

/-- Device memory writes: no byte is named twice. -/
def apartD (ws : List (Nat × Bytes)) : Prop := (ws.flatMap fun e => (List.range e.2.length).map fun i => e.1 + i).Nodup

/-- Each device-memory write stands where it was written, and every other byte reads as before. -/
def wroteD (s t : State) (ws : List (Nat × Bytes)) : Prop :=
  (∀ e ∈ ws, memR t e.1 e.2.length = e.2) ∧
  ∀ y, (∀ e ∈ ws, y < e.1 ∨ e.1 + e.2.length ≤ y) → tget 0 t.mem y = tget 0 s.mem y

/-- The bytes of row `r` of an array of `cols` elements of a format. -/
def rowSpan (s : State) (l : Nat) (v : SlotImg) (o : Opd) (cols fmt r : Nat) : List Nat :=
  spBytes s l v o.sp (vxRowA o cols fmt r) (rowBytes cols fmt)

/-- The rows of an array of `cols` elements of a format as writes: row `r` holds `E r` and zeros after the last element (R115). -/
def rowWrites (o : Opd) (cols fmt rows : Nat) (E : Nat → List Nat) : List (Nat × Nat × Bytes) :=
  (List.range rows).map fun r => (o.sp, vxRowA o cols fmt r, padTo (rowBytes cols fmt) (packElems fmt (E r)))

/-- The evaluation of sample `i` of an EVAL. -/
def evalSampleOf (s : State) (l : Nat) (v : SlotImg) (x : Thr) (i : Nat) : Except CtxFlt ThrAcc := do
  let o ← thrStart s l v x i
  let f ← thrSample s l v (x.samples + i * x.ss) x.foff x.nf
  thrTrees s l v x f x.tcount x.tfirst { out := o, nan := false, range := false }

/-- The completion word of a command block that ends with a status (R417). -/
def doneWord (b : Bytes) (status : Nat) : Nat := byteAt b 0 % 256 * 2 ^ 24 + status % 256 * 65536 + leAt b 6 2 % 65536

/-! ### Peer links (R269 to R272) -/

/-- A flit of KIND `k` that is a whole message, good and next in sequence, on a link that is up. -/
def oneFlit (s : State) (l : Nat) (f : Bytes) (k : Nat) : Prop :=
  (linkGet s l).up = true ∧ flitGood f = true ∧ flitKind f = k ∧ flitSeq f = ((linkGet s l).rxSeq + 1) % 4096 ∧
  bit (byteAt f 0) 2 = true ∧ bit (byteAt f 0) 1 = true

/-- The payload of a flit. -/
def flitLoad (f : Bytes) : Bytes := slice f 16 (byteAt f 3)
/-- DST, DST_PART, SRC and MSG of a flit. -/
def flitDst (f : Bytes) : Nat := byteAt f 1 % 64
/-- DST_PART. -/
def flitPart (f : Bytes) : Nat := byteAt f 1 / 64
/-- SRC. -/
def flitSrc (f : Bytes) : Nat := byteAt f 2 % 64
/-- MSG. -/
def flitMsg (f : Bytes) : Nat := leAt f 10 4

/-- The message was accepted from its source in the last millisecond. -/
def heardMsg (s : State) (f : Bytes) : Bool := s.pl.seen.any fun e => e.1 == flitSrc f && e.2.1 == flitMsg f && decide (e.2.2 + 1000000 > s.gt)

/-! ### Faults and resets (R312, R316, R328, R329) -/

/-- A fault is counted as masked, or as unmasked with FLT_STATUS.UNMASKED set. -/
def faultCounted (s t : State) (masked : Bool) : Prop :=
  if masked then counted s t rFLT_MASKED 1 else counted s t rFLT_UNMASKED 1 ∧ rgb t rFLT_STATUS 31 = true

/-- No fault of a class is outstanding at a unit. -/
def faultFree (s : State) (cls unit : Nat) : Prop := s.faults.find? (fun f => f.cls == cls && f.unit == unit) = none

/-- The oldest fault of a class at a unit, which no escalation has reported. -/
def faultOpen (s : State) (cls unit : Nat) (f : OutFault) : Prop :=
  s.faults.find? (fun f => f.cls == cls && f.unit == unit) = some f ∧ f.told = false

/-- A partition reset starts: its capture begins when FLT_CFG.CAP_EN is set, else the reset has run. -/
def partResetStarts (s t : State) (p : Nat) : Prop :=
  if rgb s rFLT_CFG 19 then
    (∃ c, t.flt.caps = s.flt.caps ++ [c] ∧ c.scope = 0 ∧ c.part = p ∧ c.num = s.flt.capNo + 1 ∧ c.since = s.gt) ∧ t.flt.resetting = true ∧ t.mem = s.mem
  else counted s t rFLT_PART_RESETS 1

/-- A chip reset starts: its capture begins when FLT_CFG.CAP_EN is set, else the reset has run and the warm start has begun. -/
def chipResetStarts (s t : State) : Prop :=
  if rgb s rFLT_CFG 19 then (∃ c ∈ t.flt.caps, c.scope = 1 ∧ c.part = 0xFF ∧ c.num = s.flt.capNo + 1 ∧ c.since = s.gt) ∧ t.flt.resetting = true
  else counted s t rFLT_CHIP_RESETS 1 ∧ t.boot.warm = true ∧ t.boot.stage = if s.boot.f ≥ 3 then 0x11 else 5

/-- A reset of the whole device has a capture in progress. -/
def chipCaptured (s : State) : Bool := s.flt.caps.any fun c => c.scope == 1

/-! ### The host port (R411 to R413) -/

/-- A transaction has been accepted while the port is ready: it is counted, and RST is disarmed. -/
def hpTaken (s : State) : State := cinc { s with hp := { s.hp with rsten := false } } (cDev 3) 1

/-- What an RD drives: status, a zero byte, the data, and their CRC or zeros. -/
def rdSays (s t : State) (status : Nat) (data : Bytes) : Prop :=
  let b := leBytes 1 status ++ leBytes 1 0 ++ data
  t.reply = b ++ beBytes 4 (if crcOn s then hpCrc b else 0)

end Sys2Proof.Machine
end

