-- ==== Sys2Proof/Certificates/Slice0/Obligations.lean ====
section
/-! DEFINITION. The statements for the provers. -/

open Sys2Proof Sys2Proof.Machine

/-- R243, R244: RECORD_ACCEPT takes the oldest staged record. An enabled queue that is not full gives it the next SEQ and puts it at the tail of
the list of its priority; another queue refuses it: SEQ is consumed, OVERRUN set, RQ_REFUSED counts. Other queues, registers and lists stay. -/
def Obligations.RecordAcceptance : Prop :=
  (∀ (s : State) (r : Staged) (rest : List Staged), s.rq.staged = r :: rest → s.wv.held = [] →
    rqEnabled (rqGet s r.queue) = true → rqFull s r.queue = false →
    runsTo .recordAccept s fun t =>
      t.rq.staged = rest ∧ (rqGet t r.queue).seq = ((rqGet s r.queue).seq + 1) % 2 ^ 32 ∧
      (∃ cells, (rqListOf t r.queue r.prio).recs = (rqListOf s r.queue r.prio).recs ++
        [⟨r.prio, (rqGet s r.queue).seq, rqBytes r.type r.prio (rqGet s r.queue).seq r.body, cells⟩]) ∧
      (rqListOf t r.queue r.prio).mark = (rqListOf s r.queue r.prio).mark ∧
      (rqListOf t r.queue r.prio).cursor = (rqListOf s r.queue r.prio).cursor ∧
      (∀ p, p ≠ r.prio → rqListOf t r.queue p = rqListOf s r.queue p) ∧
      (∀ q, q ≠ r.queue → rqGet t q = rqGet s q)) ∧
  (∀ (s : State) (r : Staged) (rest : List Staged), s.rq.staged = r :: rest → s.wv.held = [] →
    (rqEnabled (rqGet s r.queue) = false ∨ rqFull s r.queue = true) →
    runsTo .recordAccept s fun t =>
      t.rq.staged = rest ∧ (rqGet t r.queue).seq = ((rqGet s r.queue).seq + 1) % 2 ^ 32 ∧
      (rqGet t r.queue).overrun = true ∧ (∀ p, rqListOf t r.queue p = rqListOf s r.queue p) ∧
      (∀ q, q ≠ r.queue → rqGet t q = rqGet s q) ∧ rg t rRQ_REFUSED = min (rg s rRQ_REFUSED + 1) 0xFFFFFFFF ∧
      regsBut s t [rRQ_REFUSED] ∧ memSame s t)

/-- An aperture read that includes byte 0, of an enabled queue with an unread record, returns the record at CURSOR of the highest priority that has one and
moves that list's CURSOR on by one, MARK staying. With nothing unread it returns at once the IDLE record of Table RQ-3, moves nothing and counts
RQ_IDLE_READS. A cell that cannot be read gives an RQ_ERROR record in the record's place, a link entry that cannot be read ends the list there, each, where
no bank of it is fenced, an uncorrectable error of the tier (counted in BT_UE); a pending RQ_ERROR record comes next. What strikes the read strikes first.
A read that does not include byte 0 moves nothing. -/
def Obligations.ReportReading : Prop :=
  (∀ (s : State) (q p len : Nat) (hit : RqHit) (r : RqRec), q < 64 → 0 < len → rqEnabled (rqGet s q) = true → rqTop (rqGet s q) = some p →
    (rqListOf s q p).err = none → (rqListOf s q p).recs[(rqListOf s q p).cursor]? = some r →
    let l := rqListOf s q p
    let u := match rqUeAt s q hit with | some a => strike s a | none => s
    let moved := fun (t : State) => rqListOf t q p = { l with cursor := l.cursor + 1 } ∧ ∀ p', p' ≠ p → rqListOf t q p' = rqListOf s q p'
    let others := fun (t : State) => (∀ p', p' ≠ p → rqListOf t q p' = rqListOf s q p') ∧
      (∀ q' p', q' ≠ q → rqListOf t q' p' = rqListOf s q' p') ∧
      (s.pwr.groups.all (fun g => g.2.fenced.isEmpty) = true → counted s t rBT_UE 1) ∧ t.mem = s.mem
    (rqMeets u q = .none → runsTo (.apertureRead q 0 len hit) s fun t =>
      t.reply = slice r.bytes 0 len ∧ moved t ∧ (∀ q', q' ≠ q → rqGet t q' = rqGet s q') ∧ t = { u with rq := t.rq, reply := t.reply }) ∧
    (∀ k, rqMeets u q = .cell k → runsTo (.apertureRead q 0 len hit) s fun t =>
      t.reply = slice (rqSpecial s q 0x0B p r.seq (rqCellAddr (r.cells.getD k 0) - tierBase) s.gt) 0 len ∧ moved t ∧ others t ∧ counted s t rRQ_UE 1) ∧
    (∀ k, rqMeets u q = .link k → r.cells.length ≤ k + 1 → runsTo (.apertureRead q 0 len hit) s fun t =>
      t.reply = slice r.bytes 0 len ∧ (rqListOf t q p).recs = l.recs.take (l.cursor + 1) ∧ (rqListOf t q p).cursor = l.cursor + 1 ∧ others t ∧
      (rqGet t q).lost = true ∧ counted s t rRQ_LOST (l.recs.length - (l.cursor + 1))) ∧
    (∀ k, rqMeets u q = .link k → k + 1 < r.cells.length → runsTo (.apertureRead q 0 len hit) s fun t =>
      (8 ≤ len → slice t.reply 0 8 = leBytes 2 32 ++ leBytes 1 0x0B ++ leBytes 1 (p * 32) ++ leBytes 4 r.seq) ∧
      (rqListOf t q p).recs = l.recs.take l.cursor ∧ (rqListOf t q p).err = none ∧ others t ∧
      (rqGet t q).lost = true ∧ counted s t rRQ_LOST (l.recs.length - l.cursor))) ∧
  (∀ (s : State) (q p len : Nat) (hit : RqHit) (e : Nat × Nat × Nat), q < 64 → 0 < len → rqEnabled (rqGet s q) = true → rqTop (rqGet s q) = some p →
    (rqListOf s q p).err = some e →
    runsTo (.apertureRead q 0 len hit) s fun t =>
      t.reply = slice (rqSpecial s q 0x0B p e.1 e.2.1 e.2.2) 0 len ∧ rqListOf t q p = { (rqListOf s q p) with err := none } ∧
      t = { s with rq := t.rq, reply := t.reply }) ∧
  (∀ (s : State) (q len : Nat) (hit : RqHit), q < 64 → 0 < len → (rqEnabled (rqGet s q) = false ∨ rqTop (rqGet s q) = none) →
    let v := rqGet s q
    let idle := leBytes 2 32 ++ leBytes 1 0 ++ leBytes 1 0 ++ leBytes 4 v.seq ++ leBytes 8 s.gt ++ leBytes 1 q ++
      leBytes 1 (b2n (rqFull s q) + 2 * b2n v.overrun + 4 * b2n v.lost) ++ leBytes 2 0 ++ leBytes 4 (rqUsed s q) ++ leBytes 8 0
    runsTo (.apertureRead q 0 len hit) s fun t =>
      t.reply = slice idle 0 len ∧ (∀ p, rqListOf t q p = rqListOf s q p) ∧ (∀ q', q' ≠ q → rqGet t q' = rqGet s q') ∧
      rg t rRQ_IDLE_READS = min (rg s rRQ_IDLE_READS + 1) 0xFFFFFFFF ∧ regsBut s t [rRQ_IDLE_READS] ∧
      t = { s with rq := t.rq, reply := t.reply, regs := t.regs }) ∧
  (∀ (s : State) (q off len : Nat) (hit : RqHit), q < 64 → 0 < off →
    runsTo (.apertureRead q off len hit) s fun t => t = { s with reply := slice (rqGet s q).buf off len })

/-- R249, R250: MARK sets MARK to CURSOR, REWIND CURSOR to MARK, RELEASE drops the records before MARK, MARK_RELEASE does MARK then RELEASE,
FLUSH drops every record, for each list of the queue; the cells of the records dropped are free, unless their bank is fenced. RESULT is 0, other queues stay, no memory changes. -/
def Obligations.QueueCommands : Prop :=
  ∀ (s : State) (q p : Nat), p < 8 →
    let v := rqListOf s q p
    let frame := fun (t : State) => (∀ q', q' ≠ q → rqGet t q' = rqGet s q') ∧ regsBut s t [rRQ_CMD_STATUS] ∧ rg t rRQ_CMD_STATUS = 0 ∧
      (rqGet t q).seq = (rqGet s q).seq ∧ (rqGet t q).overrun = (rqGet s q).overrun ∧ t = { s with rq := t.rq, regs := t.regs }
    let freed := fun (t : State) (rs : List RqRec) =>
      ∀ r ∈ rs, ∀ c ∈ r.cells, bankFenced s (bankOf (rqCellAddr c)) = false → tget false t.rq.used c = false
    runsTo (.rqMark q) s (fun t => rqListOf t q p = { v with mark := v.cursor } ∧ frame t) ∧
    runsTo (.rqRewind q) s (fun t => rqListOf t q p = { v with cursor := v.mark } ∧ frame t) ∧
    runsTo (.rqRelease q) s (fun t => rqListOf t q p = { v with recs := v.recs.drop v.mark, mark := 0, cursor := v.cursor - v.mark } ∧ freed t (v.recs.take v.mark) ∧ frame t) ∧
    runsTo (.rqMarkRelease q) s (fun t => rqListOf t q p = { v with recs := v.recs.drop v.cursor, mark := 0, cursor := 0 } ∧ freed t (v.recs.take v.cursor) ∧ frame t) ∧
    runsTo (.rqFlush q) s (fun t => rqListOf t q p = { v with recs := [], mark := 0, cursor := 0 } ∧ freed t v.recs ∧ frame t)

/-- R252, R197: CELL_RECLAIM returns every cell that a link error left unreachable to the free list, but for those of a fenced bank; every other cell stays
as it was. -/
def Obligations.CellsReturned : Prop :=
  ∀ s : State, runsTo .cellReclaim s fun t =>
    t.rq.lostCells = [] ∧ (∀ e ∈ s.rq.lostCells, bankFenced s (bankOf (rqCellAddr e.2)) = false → tget false t.rq.used e.2 = false) ∧
    (∀ c, (∀ e ∈ s.rq.lostCells, e.2 ≠ c) → tget false t.rq.used c = tget false s.rq.used c) ∧
    t.rq.queues = s.rq.queues ∧ t.rq.staged = s.rq.staged ∧ t = { s with rq := t.rq }

/-- R363, R365, R366: COUNTER_READ captures the counter of OBS_CNT_SEL, answers its low word and latches its high word: the counter as it stands once
every count of it has arrived; only a clear of SCOPE_CYCLES in the same cycle makes it the value before, with RC. CLEAR zeroes counters FIRST to LAST, LAST
below FIRST acting as FIRST, and no other: they read as zero then, unless a count arrives in that cycle. -/
def Obligations.CounterCommands : Prop :=
  (∀ s : State, runsTo .counterRead s fun t =>
    let i := rgf s rOBS_CNT_SEL 10 0
    let v := (cntSample s i).1
    t.reply = leBytes 4 (v % 2 ^ 32) ∧ rg t rOBS_CNT_HI = v / 2 ^ 32 % 2 ^ 32 ∧ rgf t rOBS_CMD_STATUS 0 0 = b2n (cntSample s i).2 ∧
    (isScope i = false → v = cntRead s i ∧ (cntSample s i).2 = false) ∧
    (i < 1536 → (512 ≤ i → i < 640 → rgb s rGLB_CONFIG 29 = true) → (∀ o ∈ s.obs.late, o.idx = i → arrives o < s.time.up / 10) →
      v = (tget 0 s.obs.cnt i).toNat ∧ (cntSample s i).2 = false) ∧ regsBut s t [rOBS_CNT_HI, rOBS_CMD_STATUS] ∧
    t = { s with regs := t.regs, reply := t.reply }) ∧
  (∀ s : State, runsTo .obsClear s fun t =>
    let first := rgf s rOBS_CLR_RANGE 10 0
    let last := max first (rgf s rOBS_CLR_RANGE 26 16)
    (∀ i, (i < first ∨ last < i) → tget 0 t.obs.cnt i = tget 0 s.obs.cnt i) ∧
    (∀ i, first ≤ i → i ≤ last → (∀ o ∈ s.obs.late, o.idx = i → arrives o < s.time.up / 10) → tget 0 t.obs.cnt i = 0) ∧
    (∀ i, first ≤ i → i ≤ last → (∀ o ∈ s.obs.late, o.idx = i → arrives o ≠ s.time.up / 10) → cntRead t i = 0) ∧
    rgf t rOBS_CMD_STATUS 30 28 = 0 ∧ regsBut s t [rOBS_CMD_STATUS] ∧ t = { s with obs := t.obs, regs := t.regs })

/-- R367: with a ring, and WRAP set or FULL clear, SNAPSHOT and a period that falls due take a snapshot when WRAP is set or the snapshot fits: OBS_SMPL_NUM is its number,
the next one has the number after it, SKIPPED is clear, and no byte outside the sample ring changes; one that does not fit stops the sampler with FULL.
Without a ring, or with FULL set and WRAP clear, nothing is written. A period that falls due while the previous snapshot is being written is skipped and counted; before its PERIOD ms have passed, or with EN clear, nothing happens. R370,
R371: TRACE_QUEUE_DRAIN writes the oldest record of a tile's trace queue at the write offset and moves the offset on; at the end of the region it wraps or
stops with FULL. -/
def Obligations.SnapshotsAndTrace : Prop :=
  (∀ s : State,
    let size := rg s rOBS_SRING_SIZE * 65536
    let off := rg s rOBS_SRING_WR * 16
    let need := (if off % 32 = 16 then 16 else 0) + 32 + 16 * (snapSelected s).length
    let fits := rgb s rOBS_SMPL_CFG 30 = true ∨ off + need ≤ size
    let none_ := rg s rOBS_SRING_SIZE = 0 ∨ (rgb s rOBS_SMPL_STATUS 31 = true ∧ rgb s rOBS_SMPL_CFG 30 = false)
    let wrote := fun (t : State) =>
      rg t rOBS_SMPL_NUM = s.obs.snapNum % 2 ^ 32 ∧ t.obs.snapNum = (s.obs.snapNum + 1) % 2 ^ 32 ∧ t.obs.skipped = false ∧
      memBut s t (lpBase + rg s rOBS_SRING_BASE * 65536) size
    let stops := fun (o : ObsState) (t : State) => rgb t rOBS_SMPL_STATUS 31 = true ∧ t.mem = s.mem ∧ t.obs = o
    let ticked := { s.obs with snapAt := s.time.up - (s.time.up - s.obs.snapAt) % snapPeriod s }
    let result := fun (t : State) => rgf t rOBS_CMD_STATUS 30 28 = 0
    (none_ → (runsTo .snapshot s fun t => result t ∧ regsBut s t [rOBS_CMD_STATUS] ∧ t = { s with regs := t.regs }) ∧
      (snapDue s = true → runsTo (.snapshotPeriod false) s fun t => t = { s with obs := ticked })) ∧
    (¬none_ → fits → off < size → (runsTo .snapshot s fun t => wrote t ∧ result t) ∧
      (snapDue s = true → runsTo (.snapshotPeriod false) s fun t => wrote t ∧ t.obs.snapAt = ticked.snapAt)) ∧
    (¬none_ → ¬fits → (runsTo .snapshot s fun t => stops s.obs t ∧ result t) ∧
      (snapDue s = true → runsTo (.snapshotPeriod false) s (stops ticked))) ∧
    (∀ busy, snapDue s = false → runsTo (.snapshotPeriod busy) s fun t => t = s) ∧
    (snapDue s = true → runsTo (.snapshotPeriod true) s fun t =>
      t.obs = { ticked with skipped := true } ∧ counted s t rOBS_SMPL_SKIP 1 ∧ regsBut s t [rOBS_SMPL_SKIP] ∧ t = { s with obs := t.obs, regs := t.regs })) ∧
  (∀ (s : State) (l : Nat),
    let size := rg s rOBS_TRC_SIZE * 65536
    let w := s.obs.trWr + 16
    ((traceQ s l = [] ∨ rgb s rOBS_TRC_STATUS 31 = true ∨ rg s rOBS_TRC_SIZE = 0) → runsTo (.traceQueueDrain l) s fun t => t = s) ∧
    (∀ r rest, traceQ s l = r :: rest → rgb s rOBS_TRC_STATUS 31 = false → rg s rOBS_TRC_SIZE ≠ 0 →
      let a := lpBase + rg s rOBS_TRC_BASE * 65536 + s.obs.trWr
      runsTo (.traceQueueDrain l) s fun t =>
        traceQ t l = rest ∧ (∀ m, m ≠ l → traceQ t m = traceQ s m) ∧ memBut s t a r.length ∧
        (memWBad s a r.length = none → memR t a r.length = r) ∧ regsBut s t [rOBS_TRC_RECORDS, rOBS_TRC_STATUS] ∧
        (w < size → t.obs.trWr = w ∧ rg t rOBS_TRC_STATUS = rg s rOBS_TRC_STATUS) ∧
        (size ≤ w → rgb s rOBS_TRC_CFG 30 = true → t.obs.trWr = 0 ∧ rgb t rOBS_TRC_STATUS 30 = true) ∧
        (size ≤ w → rgb s rOBS_TRC_CFG 30 = false → rgb t rOBS_TRC_STATUS 31 = true)))

/-- R231, R232: where one queue of the sub-port is eligible, its group stands at priority 7, neither is fresh and both deficits cover the head
frame's cost, and nothing stored has an error, SCHEDULER_DECISION takes that frame from the queue and hands it to the MAC, and the frame is counted; where no queue is eligible at any
priority nothing changes. -/
def Obligations.SchedulerDecision : Prop :=
  (∀ (s : State) (n m q : Nat) (e : QEnt) (rest : List QEnt),
    let p := portPart n
    let k := n * 4 + m
    s.pwr.tripped = false → intact s → subEligible s n m = [q] → prioGroups s n m 7 = [groupOf s n m q] →
    (qGet s p q).ents = e :: rest → (qGet s p q).fresh = false → (gGet s p (groupOf s n m q)).fresh = false →
    entCost s n e ≤ (qGet s p q).dc → entCost s n e ≤ (gGet s p (groupOf s n m q)).dc →
    runsTo (.schedulerDecision n m .none) s fun t =>
      (qGet t p q).ents = rest ∧ (∃ b, tget [] (tmGet t p).tx k = tget [] (tmGet s p).tx k ++ [⟨b, some e.frame⟩]) ∧
      cntUp s t (cPart p 15) 1 ∧ counted s t (rTM_DEQ_FRAMES p) 1 ∧ memSame s t) ∧
  (∀ (s : State) (n m : Nat) (hit : TxHit), (∀ pri, prioGroups s n m pri = []) →
    runsTo (.schedulerDecision n m hit) s fun t => t = s)

/-- R221: DEQUEUE_END takes the oldest frame in transmission from its sub-port, counts it and its bytes as sent and drops one reference; with the
last reference the frame's cells return to the free list. -/
def Obligations.TransmissionEnds : Prop :=
  ∀ (s : State) (n m : Nat) (x : Tx) (rest : List Tx),
    let p := portPart n
    tget [] (tmGet s p).tx (n * 4 + m) = x :: rest →
    runsTo (.dequeueEnd n m) s fun t =>
      tget [] (tmGet t p).tx (n * 4 + m) = rest ∧ cntUp s t (cPort n 2) 1 ∧ cntUp s t (cPort n 3) x.bytes.length ∧
      (x.frame = none → t = { s with tms := t.tms, obs := t.obs }) ∧
      (∀ h f, x.frame = some h → frameGet s h = some f →
        (1 < f.refs → frameGet t h = some { f with refs := f.refs - 1 }) ∧
        (f.refs ≤ 1 → frameGet t h = none ∧ ∀ c ∈ f.cells, tget false (tmGet t f.part).used c = false)) ∧
      (∀ h, x.frame ≠ some h → frameGet t h = frameGet s h) ∧ t.regs = s.regs ∧ t.mem = s.mem

/-- R234: PAUSE_EXPIRY clears a pause timer that has run out, and the priority is no longer paused. R236: SAMPLE_SWEEP takes the next sweep number,
counts a late sweep and writes nothing outside the slice's ring. R326: CELL_POOL_RECLAIM frees the cells a lost link entry left unreachable. -/
def Obligations.TrafficTimers : Prop :=
  (∀ (s : State) (n m pri : Nat),
    let k := (n * 4 + m) * 8 + pri
    (∀ e ∈ tget [] (tmGet s (portPart n)).pause k, e.1 ≤ s.gt ∧ e.2 ≤ s.gt) →
    runsTo (.pauseExpiry n m pri) s fun t =>
      paused t n m pri = false ∧ (∀ j, j ≠ k → tget [] (tmGet t (portPart n)).pause j = tget [] (tmGet s (portPart n)).pause j) ∧
      (∀ p, p ≠ portPart n → tmGet t p = tmGet s p) ∧ t = { s with tms := t.tms }) ∧
  (∀ (s : State) (p : Nat) (late : Bool), rgb s (rTM_SAMPLE p) 31 = true →
    runsTo (.sampleSweep p late) s fun t =>
      (tmGet t p).sweepNo = ((tmGet s p).sweepNo + 1) % 2 ^ 32 ∧ (tmGet t p).queues = (tmGet s p).queues ∧
      memBut s t (lpBase + rg s (rTM_SRING_BASE p) * 65536) (rg s (rTM_SRING_SIZE p) * 65536) ∧
      counted s t (rTM_SAMPLE_LATE p) (b2n late)) ∧
  (∀ (s : State) (p : Nat), runsTo (.cellPoolReclaim p) s fun t =>
    (tmGet t p).lost = [] ∧ (∀ c ∈ (tmGet s p).lost, tget false (tmGet t p).used c = false) ∧
    (∀ c, c ∉ (tmGet s p).lost → tget false (tmGet t p).used c = tget false (tmGet s p).used c) ∧
    (∀ q, q ≠ p → tmGet t q = tmGet s q) ∧ t = { s with tms := t.tms })

/-- R229: a write of TM_AQM_SEED loads the LFSR, 0 acting as 1. R226: a write of a policer's configuration fills both its buckets. R233: a write of a
shaper's configuration fills its bucket to the burst, or empties it, as bit 31 says. Each is a change of a live field; other policers, queues and
groups stay. -/
def Obligations.TrafficConfiguration : Prop :=
  (∀ (s : State) (p v : Nat), runsTo (.tmAqmSeedWrite p v) s fun t =>
    rg t (rTM_AQM_SEED p) = v % 2 ^ 32 ∧ (tmGet t p).lfsr = lfsrSeed (BitVec.ofNat 32 v) ∧ epochMoved s t 3 ∧
    (tmGet t p).queues = (tmGet s p).queues ∧ (∀ q, q ≠ p → tmGet t q = tmGet s q) ∧ regsBut s t [rTM_AQM_SEED p, rGLB_EPOCH] ∧ t.mem = s.mem) ∧
  (∀ (s : State) (p i word v : Nat), word < 4 → runsTo (.policerCfgWrite p i word v) s fun t =>
    let l := polGet s p i
    let u := polGet t p i
    u.cfg = (if word = 0 then v &&& 0xF0FFFFFF else l.cfg) ∧ u.rate2 = (if word = 1 then v % 2 ^ 24 else l.rate2) ∧
    u.cbs = (if word = 2 then v % 2 ^ 24 else l.cbs) ∧ u.ebs = (if word = 3 then v % 2 ^ 24 else l.ebs) ∧
    u.c = u.cbs * 1000000 ∧ u.e = u.ebs * 1000000 ∧ epochMoved s t 3 ∧
    (∀ q j, (q ≠ p ∨ j ≠ i) → polGet t q j = polGet s q j) ∧ (∀ q j, qGet t q j = qGet s q j) ∧ regsBut s t [rGLB_EPOCH] ∧ t.mem = s.mem) ∧
  (∀ (s : State) (p i word v : Nat) (group : Bool), word < 2 → runsTo (.shaperCfgWrite p group i word v) s fun t =>
    (group = false → (qGet t p i).shaper = (if word = 0 then v &&& 0x80FFFFFF else (qGet s p i).shaper) ∧
      (qGet t p i).burst = (if word = 1 then v % 65536 else (qGet s p i).burst) ∧
      (qGet t p i).tokens = shFill (qGet t p i).shaper (qGet t p i).burst ∧ (qGet t p i).ents = (qGet s p i).ents ∧
      ∀ g, gGet t p g = gGet s p g) ∧
    (group = true → (gGet t p i).shaper = (if word = 0 then v &&& 0x80FFFFFF else (gGet s p i).shaper) ∧
      (gGet t p i).burst = (if word = 1 then v % 65536 else (gGet s p i).burst) ∧
      (gGet t p i).tokens = shFill (gGet t p i).shaper (gGet t p i).burst ∧ ∀ q, qGet t p q = qGet s p q) ∧
    epochMoved s t 3 ∧ (∀ q, q ≠ p → tmGet t q = tmGet s q) ∧ regsBut s t [rGLB_EPOCH] ∧ t.mem = s.mem)

/-- R202, R204, R317: RESULT_RECORD and REFUSAL_VERDICT take what waits at the head of a verdict unit and free its journal slot. A request of the
device's own gives one verdict: a final result sets the flow entry to KIND 3 with the class and generation of the result; a refusal is a LATE_DEFAULT
verdict that leaves the entry's KIND and class. A request of a peer gives none. -/
def Obligations.ResultsAndRefusals : Prop :=
  ∀ (s : State) (p : Nat) (i : VdIn) (rest : List VdIn) (j : JSlot),
    (vdGet s p).inq = i :: rest → jGet s p i.slot = some j →
    (j.peer = none → i.refusal = false →
      runsTo (.resultRecord p) s fun t =>
        (vdGet t p).inq = rest ∧ jGet t p i.slot = none ∧ counted s t (rVD_VERDICTS p) 1 ∧
        (∀ u e, j.uid = some u → entGet s p false (leAt j.hdr 8 4) = some e → e.uid = u → bit (leAt i.body 6 2) 14 = false →
          ∃ e', entGet t p false (leAt j.hdr 8 4) = some e' ∧ e'.uid = u ∧ e'.vs.kind = 3 ∧ e'.vs.cls = leAt i.body 6 2 % 1024 ∧ e'.vs.gen = i.gen)) ∧
    (j.peer = none → i.refusal = true →
      runsTo (.refusalVerdict p) s fun t =>
        (vdGet t p).inq = rest ∧ jGet t p i.slot = none ∧ counted s t (rVD_VERDICTS p) 1 ∧ counted s t (rVD_LATE_DEFAULT p) 1 ∧
        (∀ e, entGet s p false (leAt j.hdr 8 4) = some e →
          ∃ e', entGet t p false (leAt j.hdr 8 4) = some e' ∧ e'.uid = e.uid ∧ e'.vs.kind = e.vs.kind ∧ e'.vs.cls = e.vs.cls)) ∧
    (∀ x, j.peer = some x →
      (i.refusal = false → runsTo (.resultRecord p) s fun t =>
        (vdGet t p).inq = rest ∧ jGet t p i.slot = none ∧ rg t (rVD_VERDICTS p) = rg s (rVD_VERDICTS p) ∧ t.shares = s.shares) ∧
      (i.refusal = true → runsTo (.refusalVerdict p) s fun t =>
        (vdGet t p).inq = rest ∧ jGet t p i.slot = none ∧ rg t (rVD_VERDICTS p) = rg s (rVD_VERDICTS p) ∧ t.shares = s.shares))

/-- R27, R202: at the end of its bound a held frame is released with a LATE_DEFAULT verdict; before it nothing happens. R210: a slot open for HOLD
is resolved as stood: counted in VD_STOOD, freed at QLEFT 0, else kept resolved; one that is not due stays. R215: at the end of a sampling window every
context with sampling state, or of a tile of the partition, steps its exponent: up by one to SX_MAX with a demand input active in the window, down by one
after RECOVER quiet windows; a demand input that is a level counts while it stands, and is active in the window that begins: outstanding requests at the high
mark, a score-port command that waits on a critical group, a forwarding queue at its high mark. No other context's state changes. What has reached the
verdict unit by then applies in place of an expiry (R28). -/
def Obligations.BoundsAndWindows : Prop :=
  (∀ (s : State) (p cell : Nat) (f : Frame) (w : Hold), frameGet s (frameKey p cell) = some f → f.hold = some w →
    (w.until_ ≤ s.gt → (w.forwarded = true ∨ vdWaits s f.part w.req = false) → runsTo (.latencyBoundExpiry p cell) s fun t =>
      (∀ f', frameGet t (frameKey p cell) = some f' → f'.stage = .done ∧ f'.hold = none) ∧
      counted s t (rVD_LATE_DEFAULT f.part) 1 ∧ counted s t (rVD_VERDICTS f.part) 1) ∧
    ((s.gt < w.until_ ∨ (w.forwarded = false ∧ vdWaits s f.part w.req = true)) → runsTo (.latencyBoundExpiry p cell) s fun t => t = s)) ∧
  (∀ (s : State) (p i : Nat) (l : LSlot), slotGet s p i = some l →
    let hold := 1000 * max 1 (rgf s (rVD_LEDGER p) 31 16)
    (l.opened = true → hold ≤ s.gt - l.since → finalWaits s p l.uid = false → runsTo (.ledgerHoldExpiry p i) s fun t =>
      slotGet t p i = (if l.qleft = 0 then none else some { l with opened := false }) ∧
      (∀ k, k ≠ i → slotGet t p k = slotGet s p k) ∧ counted s t (rVD_STOOD p) 1 ∧ regsBut s t [rVD_STOOD p] ∧ t.mem = s.mem) ∧
    ((l.opened = false ∨ s.gt - l.since < hold ∨ finalWaits s p l.uid = true) → runsTo (.ledgerHoldExpiry p i) s fun t => t = s)) ∧
  (∀ (s : State) (p : Nat),
    let d := (vdGet s p).samp
    let smax := rgf s (rVD_SAMPLE p) 2 0
    let recover := max 1 (rgf s (rVD_SAMPLE p) 31 24)
    let steps := fun c => thas d c = true ∨ (thas s.ctxs c = true ∧ tilePart s (c / 1024) = p)
    (d.map fun e => e.1).Nodup → (s.ctxs.map fun e => e.1).Nodup →
    runsTo (.sampleWindowEnd p) s fun t =>
      (∀ c, steps c →
        let level := atHighMark s c || scoreWaits s c || fwdWaits s p c
        sampGet t p c = { sampStep smax recover ((sampGet s p c).now || level) (sampGet s p c) with now := level }) ∧
      (∀ c, ¬ steps c → sampGet t p c = sampGet s p c) ∧ (∀ q, q ≠ p → vdGet t q = vdGet s q) ∧ t = { s with vds := t.vds })

/-- R67, R74, R76, R79: a PROBE first checks the parity of what it reads; then it changes nothing on a miss or on a hit that is not expired; a hit that is
expired is deleted and counted in GRN_LATE_EXPIRE. Where no entry has a parity error and none strikes, the check changes nothing. A table that is off is not
probed. -/
def Obligations.GranaryLookup : Prop :=
  ∀ (s : State) (p : Nat) (ep : Bool) (key : Bytes) (par : List ParHit),
    let found := (probeWays s p ep key par).1
    let u := (probeWays s p ep key par).2
    (grnOn s p ep = false → runsTo (.probe p ep key par) s fun t => t = s) ∧
    (grnOn s p ep = true → found = none → runsTo (.probe p ep key par) s fun t => t = u) ∧
    (∀ i e, grnOn s p ep = true → found = some i → entGet u p ep i = some e →
      (entExpired u p ep e = false → runsTo (.probe p ep key par) s fun t => t = u) ∧
      (entExpired u p ep e = true → runsTo (.probe p ep key par) s fun t =>
        entGet t p ep i = none ∧ counted u t (rGRN_LATE_EXPIRE p) 1)) ∧
    (par = [] → (∀ i e, entGet s p ep i = some e → e.par = 0) → u = s)

/-- R75: a pass starts at once when none has run, later PERIOD after the one before once every home bank has visited each of its buckets; else the command
does nothing. R74, R75, R79: the visit of the bucket that is next in its home bank, at its time, counts in the bank's place in the pass, and, where nothing
stored has an error, deletes every entry of the bucket that is expired or fails its parity; a visit that is not due does nothing. -/
def Obligations.GranaryScan : Prop :=
  (∀ (s : State) (p : Nat) (ep : Bool),
    let begun := fun (t : State) => passGet t p ep = some (s.gt, []) ∧ t = { s with shares := t.shares }
    (scanOn s p ep = false → runsTo (.scanPassStart p ep) s fun t => t = s) ∧
    (scanOn s p ep = true → passGet s p ep = none → runsTo (.scanPassStart p ep) s begun) ∧
    (∀ t0 v, scanOn s p ep = true → passGet s p ep = some (t0, v) →
      let ended := ∀ h, h < 1024 → 2 ^ wayLog2 s p ep / 256 ≤ tget 0 v h
      let due := t0 + 1000000 * max 1 (rgf s (rGRN_SCAN p) 31 16) ≤ s.gt
      (due ∧ ended → runsTo (.scanPassStart p ep) s begun) ∧ (¬(due ∧ ended) → runsTo (.scanPassStart p ep) s fun t => t = s))) ∧
  (∀ (s : State) (p : Nat) (ep : Bool) (way n t0 : Nat) (v : Tab Nat), scanOn s p ep = true → passGet s p ep = some (t0, v) →
    let k := 256 * way + n % 256
    (visitDue s p ep way n t0 v = true → intact s → runsTo (.age p ep way n []) s fun t =>
      passGet t p ep = some (t0, tset 0 v k (n / 256 + 1)) ∧
      ∀ sl e, sl < 8 → entGet s p ep (entIndex (wayLog2 s p ep) way n sl) = some e → (entExpired s p ep e = true ∨ e.par ≠ 0) →
        entGet t p ep (entIndex (wayLog2 s p ep) way n sl) = none) ∧
    (∀ par, visitDue s p ep way n t0 v = false → runsTo (.age p ep way n par) s fun t => t = s))

/-- R71, R78: an insert token accrues up to BURST, a move token likewise, and none with RATE 0. R72: a write of GRN_EVICT_SEED loads the LFSR, 0 acting
as 1, a change of a live field. The entries stay. -/
def Obligations.GranaryTokens : Prop :=
  ∀ (s : State) (p v : Nat),
    (runsTo (.insertTokenAccrue p) s fun t =>
      (shareGet t p).ins = min (insBurst s p) ((shareGet s p).ins + 1) ∧ (∀ ep i, entGet t p ep i = entGet s p ep i) ∧
      (∀ q, q ≠ p → shareGet t q = shareGet s q) ∧ t = { s with shares := t.shares }) ∧
    (rgf s (rGRN_MOVE p) 15 0 ≠ 0 → runsTo (.moveTokenAccrue p) s fun t =>
      (shareGet t p).mov = min (movBurst s p) ((shareGet s p).mov + 1) ∧ (∀ ep i, entGet t p ep i = entGet s p ep i) ∧
      (∀ q, q ≠ p → shareGet t q = shareGet s q) ∧ t = { s with shares := t.shares }) ∧
    (rgf s (rGRN_MOVE p) 15 0 = 0 → runsTo (.moveTokenAccrue p) s fun t => t = s) ∧
    (runsTo (.grnEvictSeedWrite p v) s fun t =>
      rg t (rGRN_EVICT_SEED p) = v % 2 ^ 32 ∧ (shareGet t p).lfsr = lfsrSeed (BitVec.ofNat 32 v) ∧ epochMoved s t 3 ∧
      (∀ ep i, entGet t p ep i = entGet s p ep i) ∧ regsBut s t [rGRN_EVICT_SEED p, rGLB_EPOCH])

/-- R82: each of INSERT, DELETE, READ, PIN and UNPIN completes, for every key and every table. On an enabled table INSERT of a new key writes an entry with
the fields of GRN_ENTRY into the slot that a miss would take, and gives RESULT 2 where there is none; INSERT of a key that is there replaces those fields;
DELETE removes the entry, READ copies it to GRN_ENTRY, PIN and UNPIN set and clear PINNED; each answers RESULT 0 with the entry's index. A key that is not
there gives RESULT 1, a table that is off RESULT 3. R79: the parity of what is read is checked first, which changes nothing where no entry has an error. -/
def Obligations.GranaryHostEntries : Prop :=
  ∀ (s : State) (p ks : Nat) (ep : Bool) (par : List ParHit),
    let key := hostKey s p ks
    let w0 := leAt (hostEntry s p) 0 8
    let at_ := (hostFind s p ep key []).1
    let u := (hostFind s p ep key []).2
    let atR := (hostFind s p ep key par).1
    let uR := (hostFind s p ep key par).2
    let result := fun (t : State) (r i : Nat) => rg t (rGRN_CMD_STATUS p) = (r * 2 ^ 28 + i) % 2 ^ 32
    let fields := fun (e : GEnt) => e.cls = bits w0 57 50 ∧ e.port = bits w0 49 43 ∧ e.static = bit w0 62 ∧ e.pinned = bit w0 61 ∧
      e.last = grnTime s.gt
    let others := fun (t : State) (i : Nat) => ∀ j, j ≠ i → entGet t p ep j = entGet u p ep j
    (grnOn s p ep = true → at_ = none →
      (∀ i, (slotForInsert u (procPart u p) p ep key).1 = some i → runsTo (.grnInsert p ep ks) s fun t =>
        result t 0 i ∧ ∃ e, entGet t p ep i = some e ∧ fields e ∧ keyMatch e (storedKey key) = true) ∧
      ((slotForInsert u (procPart u p) p ep key).1 = none → runsTo (.grnInsert p ep ks) s fun t => result t 2 0) ∧
      (runsTo (.grnDelete p ep ks) s fun t => result t 1 0 ∧ t = { u with regs := t.regs }) ∧
      (runsTo (.grnPin p ep ks) s fun t => result t 1 0 ∧ t = { u with regs := t.regs }) ∧
      (runsTo (.grnUnpin p ep ks) s fun t => result t 1 0 ∧ t = { u with regs := t.regs })) ∧
    (∀ i e, grnOn s p ep = true → at_ = some i → entGet u p ep i = some e →
      (runsTo (.grnInsert p ep ks) s fun t =>
        result t 0 i ∧ others t i ∧ ∃ e', entGet t p ep i = some e' ∧ fields e' ∧ e'.key = e.key ∧ e'.vs = e.vs ∧ e'.first = e.first) ∧
      (runsTo (.grnDelete p ep ks) s fun t => result t 0 i ∧ entGet t p ep i = none) ∧
      (runsTo (.grnPin p ep ks) s fun t => result t 0 i ∧ entGet t p ep i = some { e with pinned := true } ∧ others t i) ∧
      (runsTo (.grnUnpin p ep ks) s fun t => result t 0 i ∧ entGet t p ep i = some { e with pinned := false } ∧ others t i)) ∧
    (grnOn s p ep = true → atR = none → runsTo (.grnRead p ep ks par) s fun t => result t 1 0 ∧ t = { uR with regs := t.regs }) ∧
    (∀ i e, grnOn s p ep = true → atR = some i → entGet uR p ep i = some e → runsTo (.grnRead p ep ks par) s fun t =>
      result t 0 i ∧ (∀ j, j < 16 → rg t (rGRN_ENTRY p j) = leAt (entBytes ep e) (4 * j) 4) ∧ t = { uR with regs := t.regs }) ∧
    (grnOn s p ep = false → ∀ c ∈ [Instr.grnInsert p ep ks, .grnDelete p ep ks, .grnRead p ep ks par, .grnPin p ep ks, .grnUnpin p ep ks],
      runsTo c s fun t => result t 3 0 ∧ t = { s with regs := t.regs }) ∧
    ((∀ i e, entGet s p ep i = some e → e.par = 0) → u = s)

/-- R82: FLUSH removes every entry, or every one that is not STATIC, and answers RESULT 0. R84: while EN is 1 a write of the table's configuration
leaves WAY_LOG2 and FS_STRIDE; EN from 0 to 1 starts the table empty with both budgets full; the write is a change of a live field. -/
def Obligations.GranaryTables : Prop :=
  (∀ (s : State) (p : Nat) (ep statics : Bool), grnOn s p ep = true →
    runsTo (.grnFlush p ep statics) s fun t =>
      rg t (rGRN_CMD_STATUS p) = 0 ∧ (∀ i e, entGet s p ep i = some e → (statics = true ∨ e.static = false) → entGet t p ep i = none) ∧
      ((((if ep then (shareGet s p).ep else (shareGet s p).flow).map fun x => x.1).Nodup) → ∀ i e, entGet s p ep i = some e →
        statics = false → e.static = true → ∃ e', entGet t p ep i = some e' ∧ e'.uid = e.uid ∧ e'.key = e.key ∧ e'.static = true)) ∧
  (∀ (s : State) (p v : Nat) (ep : Bool),
    let a := grnCfg p ep
    let w := v &&& (if ep then 0xE03F001F else 0xE73F001F)
    runsTo (.grnCfgWrite p ep v) s fun t =>
      epochMoved s t 3 ∧
      (bit (rg s a) 31 = true → bits (rg t a) 4 0 = bits (rg s a) 4 0 ∧ bits (rg t a) 26 24 = bits (rg s a) 26 24 ∧
        bit (rg t a) 31 = bit v 31 ∧ bit (rg t a) 30 = bit v 30 ∧ t.shares = s.shares) ∧
      (bit (rg s a) 31 = false → rg t a = w) ∧
      (bit (rg s a) 31 = false → bit v 31 = true → (∀ i, entGet t p ep i = none) ∧
        (shareGet t p).ins = insBurst t p ∧ (shareGet t p).mov = movBurst t p ∧ passGet t p ep = none))

/-- R36, R39, R40: on a sub-port that carries traffic a frame that is neither PFC nor diverted to a load channel, and finds more than GUARD cells free, takes
the sub-port's next sequence, and its descriptor joins the queue of the pipe that serves its partition: a good one of up to 512 bytes, counted, or a longer
one, whose end status is pending. Memory changes in its cells, their link-table entries and its ring entry only. R32: a bypassing pipe lets a short frame
proceed and counts it. R220: one that finds no more than GUARD cells free is dropped and counted; R36: a short one that fails a check is counted under that
check and leaves no frame. R267: a frame of a load-channel session, and R35: one on a sub-port that carries no traffic, does nothing here. -/
def Obligations.FramesArrive : Prop :=
  ∀ (s : State) (n m : Nat) (b : Bytes) (bad ptp : Bool),
    let p := portPart n
    let q := procPart s p
    let long := decide (512 < b.length)
    let mine := macOpen s n m ∧ isPfc b = false ∧ sessionOf s n m b = none
    (¬macOpen s n m → runsTo (.frameReceive n m b bad ptp) s fun t => t = s) ∧
    (macOpen s n m → isPfc b = false → sessionOf s n m b ≠ none → runsTo (.frameReceive n m b bad ptp) s fun t => t = { s with arrivals := t.arrivals }) ∧
    (mine → guardCells s p < poolFree s p → (long = true ∨ macCheck s n b bad = none) →
      ((pipeMark (pipeGet s q)).bypass = false → rgb s (rPIPE_CTRL q) 0 = false → runsTo (.frameReceive n m b bad ptp) s fun t =>
        counted s t (rFP_RX_FRAMES n) (b2n !long) ∧ (subGet t n m).seq = ((subGet s n m).seq + 1) % 2 ^ 32 ∧
        ∃ h f, (pipeGet t q).dq = (pipeGet s q).dq ++ [h] ∧ frameGet t h = some f ∧ f.bytes = b ∧ f.seq = (subGet s n m).seq ∧
          f.gt = s.gt ∧ f.port = n ∧ f.sub = m ∧ f.stage = .queued ∧ f.endPending = long ∧ f.fecBad = bad ∧
          generalBut s t p ((f.cells.flatMap fun c => [(256 * c, 256), (linkAt s c, 32)]) ++ [(ringAt s f.ring, 32)])) ∧
      (((pipeMark (pipeGet s q)).bypass = true ∨ rgb s (rPIPE_CTRL q) 0 = true) → runsTo (.frameReceive n m b bad ptp) s fun t =>
        (pipeGet t q).dq = (pipeGet s q).dq ∧ counted s t (rPIPE_BYPASS_FRAMES q) (b2n !long))) ∧
    (mine → poolFree s p ≤ guardCells s p → runsTo (.frameReceive n m b bad ptp) s fun t =>
      counted s t (rTM_DROP_INGRESS p) 1 ∧ regsBut s t [rTM_DROP_INGRESS p] ∧ t = { s with regs := t.regs, obs := t.obs, arrivals := t.arrivals }) ∧
    (∀ k, mine → guardCells s p < poolFree s p → long = false → macCheck s n b bad = some k → runsTo (.frameReceive n m b bad ptp) s fun t =>
      counted s t (macCounter n k) 1 ∧ regsBut s t [macCounter n k] ∧ t = { s with regs := t.regs, obs := t.obs, arrivals := t.arrivals })

/-- R37, R234: a good PFC frame counts in FP_PFC_RX of each priority its enable vector names, and starts the pause timer of each of those that FP_CFG
honours: decisions observe it 20 ns later, it lasts TIME × 512 bit times of the sub-port; every other priority keeps its timer. R36: one that fails a check
is counted and does nothing. A frame that is not PFC, or comes on a sub-port that carries no traffic, is none of this command's. -/
def Obligations.PauseFrames : Prop :=
  ∀ (s : State) (n m : Nat) (b : Bytes) (bad : Bool),
    let en := beAt b 16 2
    let timer := fun (u : State) (i : Nat) => tget [] (tmGet u (portPart n)).pause ((n * 4 + m) * 8 + i)
    ((isPfc b = false ∨ ¬macOpen s n m) → runsTo (.pfcFrameReceive n m b bad) s fun t => t = s) ∧
    (∀ k, macOpen s n m → isPfc b = true → macCheck s n b bad = some k → runsTo (.pfcFrameReceive n m b bad) s fun t =>
      counted s t (macCounter n k) 1 ∧ regsBut s t [macCounter n k] ∧ t = { s with regs := t.regs, obs := t.obs, arrivals := t.arrivals }) ∧
    (macOpen s n m → isPfc b = true → macCheck s n b bad = none → runsTo (.pfcFrameReceive n m b bad) s fun t =>
      ∀ i, i < 8 →
        counted s t (rFP_PFC_RX n i) (b2n (bit en i)) ∧
        (bit en i = true → bit (rgf s (rFP_CFG n) 23 16) i = true → (timer t i).getLast? =
          some (s.gt + 20, s.gt + if subRate s n m = 0 then 0 else cdiv (beAt b (18 + 2 * i) 2 * 512) (subRate s n m))) ∧
        ((bit en i = false ∨ bit (rgf s (rFP_CFG n) 23 16) i = false) → timer t i = timer s i))

/-- R40: a good end status of a frame that still waits in the descriptor queue is counted and the frame is pending no longer; one that a pipe has parsed
commits then, one that R32 let bypass proceeds then; a frame whose end status is bad leaves the queue, its cells are free, and the check it failed is
counted. The end status of a frame that is not pending is nothing. -/
def Obligations.EndStatus : Prop :=
  ∀ (s : State) (p cell : Nat),
    let h := frameKey p cell
    ((∀ f, frameGet s h = some f → f.endPending = false) → runsTo (.endStatus p cell) s fun t => t = s) ∧
    (∀ f, frameGet s h = some f → f.endPending = true →
      let q := procPart s f.part
      let good := fun (t : State) => counted s t (rFP_RX_FRAMES f.port) 1
      (f.stage = .queued → macCheck s f.port f.bytes f.fecBad = none → runsTo (.endStatus p cell) s fun t =>
        frameGet t h = some { f with endPending := false } ∧ good t ∧
        regsBut s t [rFP_RX_FRAMES f.port] ∧ t = { s with frames := t.frames, regs := t.regs, obs := t.obs }) ∧
      (f.stage = .parsed → macCheck s f.port f.bytes f.fecBad = none → runsTo (.endStatus p cell) s fun t =>
        good t ∧ cntUp s t (cPart q 1) 1 ∧ t.weave = s.weave) ∧
      (f.stage = .bypassed → macCheck s f.port f.bytes f.fecBad = none → runsTo (.endStatus p cell) s fun t =>
        good t ∧ counted s t (rPIPE_BYPASS_FRAMES q) 1) ∧
      (∀ k, f.refs = 1 → macCheck s f.port f.bytes f.fecBad = some k → runsTo (.endStatus p cell) s fun t =>
        frameGet t h = none ∧ h ∉ (pipeGet t q).dq ∧ counted s t (macCounter f.port k) 1 ∧
        (∀ c ∈ f.cells, tget false (tmGet t f.part).used c = false) ∧ t.mem = s.mem))

/-- R41: a pipe takes the descriptor at the head of its queue, and descriptors to be replayed come up behind; R40: one that is pending is parsed and waits,
under the tables of that time; R69: any other commits, which is counted and moves the commit mark of its ingress port to its sequence, but a replayed one at or
before the mark moves no mark. R42: a descriptor that must wait for another's end status, and any while the clocks stand still, stays. R7: a head that cannot be
read lets its frame bypass. A COMMIT at or before the mark is skipped, one past it moves the mark. -/
def Obligations.PipeTakes : Prop :=
  (∀ (s : State) (q h : Nat) (rest : List Nat) (f : Frame) (par : List ParHit), q < 4 → (pipeGet s q).dq = h :: rest → frameGet s h = some f →
    let next := rest ++ (pipeGet s q).replay.take (65536 - rest.length)
    let readable := f.headSlot ≠ none ∨ cellsBad s f.part (f.cells.take 2) = none
    let runs := s.pwr.tripped = false ∧ keyWaits s h f (parse s f) = false
    (¬runs → runsTo (.pipeDescriptor q par) s fun t => t = s) ∧
    (runs → readable → f.endPending = true → runsTo (.pipeDescriptor q par) s fun t =>
      (pipeGet t q).dq = next ∧ frameGet t h = some { f with stage := .parsed, tables := some s.weave } ∧ t.mem = s.mem) ∧
    (runs → readable → f.endPending = false → runsTo (.pipeDescriptor q par) s fun t =>
      let mark := tget none (shareGet s f.part).marks (ingressPort f)
      (pipeGet t q).dq = next ∧ cntUp s t (cPart q 1) 1 ∧ tget none (shareGet t f.part).marks (ingressPort f) =
        if f.replayed = true ∧ committed mark f.seq = true then mark else some f.seq) ∧
    (runs → ¬readable → f.endPending = false → runsTo (.pipeDescriptor q par) s fun t =>
      (pipeGet t q).dq = next ∧ counted s t (rPIPE_BYPASS_FRAMES q) 1)) ∧
  (∀ (s : State) (q : Nat) (par : List ParHit), (pipeGet s q).dq = [] → runsTo (.pipeDescriptor q par) s fun t => t = s) ∧
  (∀ (s : State) (p : Nat) (ep : Option Bytes) (key : Bytes) (cls port gt seq : Nat) (st : Bytes) (par : List ParHit),
    (committed (tget none (shareGet s p).marks port) seq = true →
      runsTo (.commit p key ep cls port gt seq st par) s fun t => t = s) ∧
    (committed (tget none (shareGet s p).marks port) seq = false →
      runsTo (.commit p key ep cls port gt seq st par) s fun t => tget none (shareGet t p).marks port = some seq))

/-- R35: a lane failure halves the lanes of a sub-port that has more than one and marks it DEGRADED; a sub-port of one lane goes down; the fault is
unmasked. R33: at link up a sub-port has every lane of its mode; R441: never without its SerDes
reference. A failure on a sub-port that is down is nothing. -/
def Obligations.PortLinks : Prop :=
  ∀ (s : State) (n m : Nat), n < 16 → m < subCount s n →
    (rgb s (rFP_STATUS n) (28 + m) = true →
      (1 < (subGet s n m).lanes → runsTo (.laneFail n m) s fun t =>
        (subGet t n m).lanes = (subGet s n m).lanes / 2 ∧ rgb t (rFP_STATUS n) (24 + m) = true ∧ rgb t (rFP_STATUS n) (28 + m) = true ∧
        counted s t rFLT_UNMASKED 1 ∧ t.tms = s.tms ∧ t.mem = s.mem) ∧
      ((subGet s n m).lanes ≤ 1 → runsTo (.laneFail n m) s fun t =>
        (subGet t n m).lanes = 0 ∧ rgb t (rFP_STATUS n) (28 + m) = false ∧ counted s t rFLT_UNMASKED 1 ∧ cntUp s t (cPort n 8) 1)) ∧
    (rgb s (rFP_STATUS n) (28 + m) = false → runsTo (.laneFail n m) s fun t => t = s) ∧
    ((rgb s (rFP_CFG n) 31 = false ∨ pairMismatch s n = true ∨ bit s.boot.noRef (n / 4) = true) → runsTo (.fpLinkUp n m) s fun t => t = s) ∧
    (rgb s (rFP_CFG n) 31 = true → pairMismatch s n = false → bit s.boot.noRef (n / 4) = false → runsTo (.fpLinkUp n m) s fun t =>
      (subGet t n m).lanes = lanesFull s n ∧ rgb t (rFP_STATUS n) (28 + m) = true ∧ rgb t (rFP_STATUS n) (24 + m) = false ∧
      regsBut s t [rFP_STATUS n] ∧ t = { s with subs := t.subs, regs := t.regs })

/-- R88, R89, R261: REQUEST_ADMIT takes the oldest request of the tile's queue. With room in its context the request's header with the context's PLY, its
payload and zeros to the next 64 bytes stand in the next request buffer of the ARMED slot, or else of the ACTIVE one, its journal slot counts as
admitted and nothing else in memory changes. A context that is not ACTIVE, is full or has its buffer in use refuses it: a refusal waits at the verdict
unit. A payload that does not fit the stride refuses it and faults an ACTIVE context with REQ_SIZE. A journal slot that cannot be read refuses it. R307:
after a trip nothing is admitted. -/
def Obligations.RequestAdmission : Prop :=
  (∀ (s : State) (l : Nat) (ue : Bool), ((tileGet s l).rq = [] ∨ s.pwr.tripped = true) → runsTo (.requestAdmit l ue) s fun t => t = s) ∧
  (∀ (s : State) (l : Nat) (r : Req) (rest : List Req) (j : JSlot) (k : Option Nat) (v : SlotImg) (n : Nat) (bufs : Tab (Option RBuf)),
    let c := j.ctx
    let x := ctxGet s c
    let o := v.reqBase + n % 64 * v.reqStride
    let h := splice j.hdr 24 (leBytes 2 (x.ply % 4096)) ++ j.payload
    let b := padTo (cdiv h.length 64 * 64) h
    let held : RBuf := { part := r.part, slot := r.slot, taken := false, nan := false }
    let no : VdIn := { refusal := true, slot := r.slot, ctx := c, ply := x.ply, gen := 0, body := [] }
    let readable := generalBad s r.part (journalAt s r.slot) 2112 = none
    l < 20 → s.pwr.tripped = false →
    (tileGet s l).rq = r :: rest → jGet s r.part r.slot = some j → admitInto s c = (k, v, n, bufs) →
    (x.state = 1 → outAll s c < maxOut x → tget none bufs (n % 64) = none → j.payload.length + 32 ≤ v.reqStride →
      v.maps = [] → intact s → (o + b.length ≤ 20971520 ∨ 20971520 ≤ o) →
      runsTo (.requestAdmit l false) s fun t =>
        (tileGet t l).rq = rest ∧ jGet t r.part r.slot = some { j with admitted := true, order := s.jorder } ∧
        t.mem = twrite s.mem (sramA s l o) b ∧ cntUp s t (cTile l 9) 1 ∧
        (k = none → ctxGet t c = { x with bufs := tset none bufs (n % 64) (some held), admitted := n + 1 } ∧ t.slots = s.slots) ∧
        (∀ i, k = some i → mslotGet t c i = { (mslotGet s c i) with bufs := tset none bufs (n % 64) (some held), admitted := n + 1 } ∧ t.ctxs = s.ctxs) ∧
        ctxsBut s t c ∧ t.regs = s.regs ∧ t.rq = s.rq ∧ t.knots = s.knots ∧ t.pending = s.pending) ∧
    (readable → (x.state ≠ 1 ∨ (j.payload.length + 32 ≤ v.reqStride ∧ (maxOut x ≤ outAll s c ∨ (tget none bufs (n % 64)).isSome))) →
      runsTo (.requestAdmit l false) s fun t =>
        (tileGet t l).rq = rest ∧ (vdGet t r.part).inq = (vdGet s r.part).inq ++ [no] ∧ cntUp s t (cTile l 10) 1 ∧
        counted s t (rTIL_REFUSED (tileSite s l)) 1 ∧ regsBut s t [rTIL_REFUSED (tileSite s l)] ∧
        t = { s with tiles := t.tiles, vds := t.vds, obs := t.obs, regs := t.regs }) ∧
    (readable → x.state = 1 → v.reqStride < j.payload.length + 32 →
      runsTo (.requestAdmit l false) s fun t => faultsWith t c 6 ∧ no ∈ (vdGet t r.part).inq ∧ ctxsBut s t c ∧ t.mem = s.mem) ∧
    (∀ ue, (ue = true ∨ ¬readable) → runsTo (.requestAdmit l ue) s fun t =>
      (tileGet t l).rq = rest ∧ (vdGet t r.part).inq = (vdGet s r.part).inq ++ [no] ∧ t.ctxs = s.ctxs ∧ t.mem = s.mem))

/-- R91, R92, R95, R96, R98: a dispatcher command that issues takes its waits and applies its signal at once. NOP does nothing else; KSET sets its
knot first; TAKE makes the next batch of up to BATCH_MAX admitted requests, from the buffer of the oldest on, in consecutive buffers; POST after a TAKE sends one result
record per request of the batch to its verdict unit and frees their buffers; POST without a TAKE faults with POST_ORDER. Device memory is untouched,
no other context changes. -/
def Obligations.DispatcherCommands : Prop :=
  ∀ (s : State) (l c : Nat) (w : List Nat),
    let x := ctxGet s c
    let v := x.img
    let u := waitsTake s l v w
    let frame := fun (t : State) => issuedBy s t l c w ∧ ctxsBut s t c ∧
      t = { s with knots := t.knots, pwr := t.pwr, ctxs := t.ctxs, tiles := t.tiles, regs := t.regs, obs := t.obs, freeCtr := t.freeCtr, vds := t.vds } ∧
      regsBut s t [rTIL_ISSUED (tileSite s l), rOBS_TRC_LOST]
    (issuesNow s l 0 0 c w → sigFits u l v (sigOf w) → runsTo (.nop ⟨l, []⟩) s fun t =>
      frame t ∧ signalled u t l v (sigOf w) ∧ (ctxGet t c).bufs = x.bufs ∧ t.vds = s.vds) ∧
    (issuesNow s l 0 3 c w → sigFits (knotPut u l v (cwOpd w 0 % 8192) (cwOpd w 1 % 2 ^ 30)) l v (sigOf w) → runsTo (.kset ⟨l, []⟩) s fun t =>
      frame t ∧ signalled (knotPut u l v (cwOpd w 0 % 8192) (cwOpd w 1 % 2 ^ 30)) t l v (sigOf w) ∧ (ctxGet t c).bufs = x.bufs ∧ t.vds = s.vds) ∧
    (issuesNow s l 0 1 c w → sigFits u l v (sigOf w) → runsTo (.take ⟨l, []⟩) s fun t =>
      let b := oldestBuf x
      let waits := fun i => match tget none x.bufs i with | some r => !r.taken | none => false
      let n := min (pendingReqs x) (min (mark64 (bits x.cfg 6 0)) ((List.range (64 - b)).takeWhile fun i => waits (b + i)).length)
      frame t ∧ signalled u t l v (sigOf w) ∧ t.vds = s.vds ∧ (ctxGet t c).b = b ∧ (ctxGet t c).n = n ∧ (ctxGet t c).fresh = true ∧
      ∀ i, tget none (ctxGet t c).bufs i =
        if b ≤ i ∧ i < b + n then (tget none x.bufs i).map fun r => { r with taken := true } else tget none x.bufs i) ∧
    (issuesNow s l 0 2 c w → sigFits u l v (sigOf w) → intact s → x.fresh = true → x.n ≠ 0 → runsTo (.post ⟨l, []⟩) s fun t =>
      frame t ∧ signalled u t l v (sigOf w) ∧ (ctxGet t c).fresh = false ∧
      (∀ p, (vdGet t p).inq = (vdGet s p).inq ++ (List.range x.n).filterMap fun j => (tget none x.bufs (x.b + j)).bind fun r =>
        let b := resultRec (spR s l v (opdOf v x.b j (cwOpd w 0)).sp (opdOf v x.b j (cwOpd w 0)).a 16) r.nan
        if r.part = p then some { refusal := false, slot := r.slot, ctx := c, ply := x.ply, gen := v.gen, body := b } else none) ∧
      ∀ i, tget none (ctxGet t c).bufs i = if x.b ≤ i ∧ i < x.b + x.n then none else tget none x.bufs i) ∧
    (issuesNow s l 0 2 c w → (x.fresh = false ∨ x.n = 0) → runsTo (.post ⟨l, []⟩) s fun t => faultsWith t c 5 ∧ ctxsBut s t c ∧ t.mem = s.mem)

/-- R93 to R96, R98 to R100, R298: of every row, a head command that issues moves its ring on, is counted, its energy is charged to the partition's
bucket, and a command of an engine takes a scoreboard entry and waits in the engine's queue; with BATCH set and no batch it completes at once, signals and
touches no memory. A head command whose word cannot be read, is BAD_OP, names a knot beyond KNOT_COUNT, or resolves an operand outside its window is not
issued: its context faults with the first code that applies and is torn down. A tile whose candidate is of another row, or that has none, issues nothing. No
issue touches device memory; after it the tile's engines start what they can, which is nothing where no command waits. -/
def Obligations.IssueOfHeadCommands : Prop :=
  ∀ (s : State) (l : Nat), l < 20 → ∀ r ∈ issueRows l,
    let bad := (tileCtxs s l).find? fun d => ctxRuns (ctxGet s d) && rowIs r.1 r.2.1 (headOf s d) && (headFault s d).isSome
    let after := fun (P : State → Prop) => runsTo r.2.2 s fun t => ∃ u, P u ∧ u.mem = s.mem ∧ t = thenRuns r.1 u l
    (∀ c w, issuesNow s l r.1 r.2.1 c w →
      let x := ctxGet s c
      let none_ := r.1 ≠ 0 ∧ itersOf x w = 0
      after (fun u => issuedBy s u l c w ∧ ctxsBut s u c) ∧
      (none_ → sigFits (waitsTake s l x.img w) l x.img (sigOf w) → after fun u =>
        signalled (waitsTake s l x.img w) u l x.img (sigOf w) ∧ (tileGet u l).sb = (tileGet s l).sb) ∧
      (r.1 ≠ 0 → ¬none_ → after fun u => u.knots = (waitsTake s l x.img w).knots ∧
        ∃ i y, sbFree s l = some i ∧ tget none (tileGet u l).sb i = some y ∧ y.ctx = c ∧ y.ply = x.ply ∧ y.engine = r.1 ∧ y.op = r.2.1 ∧
          y.index = x.pos ∧ y.sig = sigOf w ∧ y.iters = itersOf x w ∧ y.todo.isSome ∧ y.inPass = false)) ∧
    (∀ c f, bad = some c → headFault s c = some f → after fun u => faultsWith u c f.code ∧ ctxsBut s u c) ∧
    (∀ c f, bad = none → candidate s l = some c → rowIs r.1 r.2.1 (headOf s c) = true →
      (List.range (itersOf (ctxGet s c) (headOf s c))).findSome? (fun j => opdFault s l (ctxGet s c).img (ctxGet s c).b j (headOf s c)) = some f →
      after fun u => faultsWith u c f.code ∧ ctxsBut s u c) ∧
    (bad = none → (∀ c, candidate s l = some c → rowIs r.1 r.2.1 (headOf s c) = false) → runsTo r.2.2 s fun t => t = thenRuns r.1 s l) ∧
    (∀ u, waiting (sbUsed u l) = [] → thenRuns r.1 u l = u)

/-- R97, R99, R102: COMMAND_COMPLETE frees the scoreboard entry; a completion under the context's PLY applies its signal, one under an older PLY is
dropped, counted in TIL_PLY_DROP and signals nothing. R96: a signal past 2^32 - 1 saturates its knot and faults the context with KNOT_OVF. A command that has
not started, a member of a pass, and any command after a trip have not completed. Memory stays; then the tile's engines start what they can. -/
def Obligations.CommandCompletion : Prop :=
  ∀ (s : State) (l i : Nat),
    let after := fun (P : State → Prop) => runsTo (.commandComplete l i) s fun t =>
      ∃ u, P u ∧ tget none (tileGet u l).sb i = none ∧ u.mem = s.mem ∧ t = enginesPump u l
    (tget none (tileGet s l).sb i = none → runsTo (.commandComplete l i) s fun t => t = enginesPump s l) ∧
    (∀ x, tget none (tileGet s l).sb i = some x →
      let v := (ctxGet s x.ctx).img
      let ran := x.todo = none ∧ x.inPass = false ∧ s.pwr.tripped = false
      (¬ran → runsTo (.commandComplete l i) s fun t => t = enginesPump s l) ∧
      (ran → x.ply = (ctxGet s x.ctx).ply → sigFits s l v x.sig → after fun u => signalled s u l v x.sig ∧ u.ctxs = s.ctxs) ∧
      (∀ k n, ran → x.ply = (ctxGet s x.ctx).ply → x.sig = some (k, n) → 0xFFFFFFFF < knotGet s l v k + n → (ctxGet s x.ctx).state = 1 → after fun u =>
        knotGet u l v k = 0xFFFFFFFF ∧ faultsWith u x.ctx 2 ∧ ctxsBut s u x.ctx) ∧
      (ran → x.ply ≠ (ctxGet s x.ctx).ply → after fun u =>
        counted s u (rTIL_PLY_DROP (tileSite s l)) 1 ∧ cntUp s u (cTile l 16) 1 ∧ u.knots = s.knots ∧ u.ctxs = s.ctxs))

/-- TEARDOWN of an ACTIVE context makes it QUIESCING with its PLY advanced, no request outstanding and RESULT 0; FAULT does the same with fault HOST latched;
KNOT_READ copies a knot to TIL_KNOT_VAL, KNOT_WRITE writes one of a FAULTED context; a context in another state, or the odd member of a braid, answers RESULT
1, a knot offset beyond KNOT_COUNT RESULT 2, and nothing else changes. A slot commit to a QUIESCING context waits until quiesce ends: SLOT_COMMIT and
FORCED_COMMIT leave it as it is, and QUIESCE_END, with every transfer returned, makes its ARMED slot ACTIVE. -/
def Obligations.ContextCommands : Prop :=
  ∀ (s : State) (c : Nat),
    let x := ctxGet s c
    let l := c / 1024
    let o := knotSel s l
    let only := fun (t : State) (r : Nat) => t = { s with ctxs := t.ctxs } ∧ ctxGet t c = { x with result := r } ∧ ctxsBut s t c
    (braidOdd s l = true → ∀ i ∈ [Instr.teardown c, .ctxFault c, .knotRead c, .knotWrite c], runsTo i s fun t => only t 1) ∧
    (braidOdd s l = false →
      (x.state = 1 →
        (runsTo (.teardown c) s fun t =>
          (ctxGet t c).state = 2 ∧ (ctxGet t c).ply = (x.ply + 1) % 4096 ∧ (ctxGet t c).bufs = [] ∧ (ctxGet t c).downAt = s.gt ∧
          (ctxGet t c).fault = x.fault ∧ (ctxGet t c).result = 0 ∧ ctxsBut s t c ∧ t.mem = s.mem ∧ t.knots = s.knots) ∧
        (runsTo (.ctxFault c) s fun t =>
          faultsWith t c 9 ∧ (ctxGet t c).ply = (x.ply + 1) % 4096 ∧ (ctxGet t c).bufs = [] ∧ (ctxGet t c).result = 0 ∧
          counted s t (rTIL_CTX_FAULTS (tileSite s l)) 1 ∧ ctxsBut s t c ∧ t.mem = s.mem ∧ t.knots = s.knots)) ∧
      (x.state ≠ 1 → ∀ i ∈ [Instr.teardown c, .ctxFault c], runsTo i s fun t => only t 1) ∧
      (x.state = 0 → runsTo (.knotRead c) s fun t => only t 1) ∧
      (x.state ≠ 0 → x.img.knotCount ≤ o → runsTo (.knotRead c) s fun t => only t 2) ∧
      (x.state ≠ 0 → o < x.img.knotCount → runsTo (.knotRead c) s fun t =>
        rg t (rTIL_KNOT_VAL (tileSite s l)) = knotGet s l x.img o % 2 ^ 32 ∧ regsBut s t [rTIL_KNOT_VAL (tileSite s l)] ∧
        ctxGet t c = { x with result := 0 } ∧ ctxsBut s t c ∧ t = { s with ctxs := t.ctxs, regs := t.regs }) ∧
      (x.state ≠ 3 → runsTo (.knotWrite c) s fun t => only t 1) ∧
      (x.state = 3 → x.img.knotCount ≤ o → runsTo (.knotWrite c) s fun t => only t 2) ∧
      (x.state = 3 → o < x.img.knotCount → runsTo (.knotWrite c) s fun t =>
        t.knots = tset 0 s.knots (knotKey l x.img o) (rg s (rTIL_KNOT_VAL (tileSite s l))) ∧
        ctxGet t c = { x with result := 0 } ∧ ctxsBut s t c ∧ t = { s with ctxs := t.ctxs, knots := t.knots })) ∧
    (∀ k, x.state = 2 → armedSlot s c = some k →
      (∀ i ∈ [Instr.slotCommit c, .forcedCommit c], runsTo i s fun t => t = s) ∧
      (sbHeld s c = 0 → runsTo (.quiesceEnd c) s fun t => (ctxGet t c).state = 1 ∧ (ctxGet t c).active = k ∧ (mslotGet t c k).state = 4))

/-- R103, R104: QUIESCE_END with transfers still out changes nothing; else a QUIESCING context becomes FREE, FAULTED if a fault is latched, or ACTIVE
with the slot that was armed meanwhile, and a restart ends. QUIESCE_TIMEOUT acts 100 µs after the teardown or restart began: it purges the entries that
are left, counts them and ends the quiesce likewise; then the tile's engines start what they can. -/
def Obligations.Quiesce : Prop :=
  ∀ (s : State) (c : Nat),
    let x := ctxGet s c
    let l := c / 1024
    let timeout := fun (P : State → Prop) => runsTo (.quiesceTimeout c) s fun t => ∃ u, P u ∧ t = enginesPump u l
    (sbHeld s c ≠ 0 → runsTo (.quiesceEnd c) s fun t => t = s) ∧
    (x.state ≠ 2 → x.restart = none → (runsTo (.quiesceEnd c) s fun t => t = s) ∧ timeout fun u => u = s) ∧
    (sbHeld s c = 0 → x.state = 2 → armedSlot s c = none → runsTo (.quiesceEnd c) s fun t =>
      ctxGet t c = { x with state := if x.fault = 0 then 0 else 3 } ∧ ctxsBut s t c ∧ t.mem = s.mem ∧ t.tiles = s.tiles) ∧
    (∀ k, sbHeld s c = 0 → x.state = 2 → armedSlot s c = some k → runsTo (.quiesceEnd c) s fun t =>
      (ctxGet t c).state = 1 ∧ (ctxGet t c).active = k ∧ (ctxGet t c).fault = 0 ∧ (mslotGet t c k).state = 4 ∧ ctxsBut s t c) ∧
    (∀ b, sbHeld s c = 0 → x.state ≠ 2 → x.restart = some b → x.restoring = false → armedSlot s c = none → runsTo (.quiesceEnd c) s fun t =>
      (ctxGet t c).restart = none ∧ (ctxGet t c).state = x.state ∧ ctxsBut s t c) ∧
    (s.gt < x.downAt + 100000 → timeout fun u => u = s) ∧
    (x.downAt + 100000 ≤ s.gt → x.state = 2 → armedSlot s c = none → timeout fun u =>
      sbHeld u c = 0 ∧ (ctxGet u c).state = (if x.fault = 0 then 0 else 3) ∧ counted s u (rTIL_QUIESCE_PURGE (tileSite s l)) (sbHeld s c) ∧
      ctxsBut s u c ∧ u.mem = s.mem) ∧
    (∀ k, x.downAt + 100000 ≤ s.gt → x.state = 2 → armedSlot s c = some k → timeout fun u =>
      sbHeld u c = 0 ∧ (ctxGet u c).state = 1 ∧ (ctxGet u c).active = k ∧ ctxsBut s u c) ∧
    (∀ b, x.downAt + 100000 ≤ s.gt → x.state ≠ 2 → x.restart = some b → x.restoring = false → armedSlot s c = none →
      timeout fun u => sbHeld u c = 0 ∧ (ctxGet u c).restart = none ∧ ctxsBut s u c)

/-- R136, R140: a MATMUL of one output tile whose record, headers and tags pass their checks issues and writes the rows of C that its tile computes,
and nothing else. R142, R143: an INT8 element of at most one K-step is CIN plus the sum of the products, clamped to the 32-bit range, with the clamp
noted. -/
def Obligations.MatmulTile : Prop :=
  (∀ (s : State) (l c : Nat) (w : List Nat) (x : Mm) (p : Option Nat × Option Nat) (ws : List (Nat × Bytes)) (o : Bool),
    let v := (ctxGet s c).img
    engineIssue s l 1 0 c w → mmSetup s l (jobOf (ctxGet s c) w []) 0 = .ok x → x.m ≤ 16 → x.n ≤ x.nt →
    mmFirst { s := s, pa := none, pb := none, done := 0, base := 0, steps := 0, again := false, sat := false, flt := none } l v x 0 0 = .ok p → mmTile s l v x 0 0 = .ok (ws, o) →
    canWrite s l v (ws.map fun e => (0, e)) →
    runsTo (.matmul l []) s fun t => engineIssued s t l c w ∧ wrote s t l v (ws.map fun e => (0, e))) ∧
  (∀ (x : Mm) (ra rb : List Nat × Bytes) (cin : Nat), x.af = 0 → x.bf = 0 → x.out = 0 → ra.1.length = rb.1.length → ra.1.length ≤ x.kt →
    let sum := toSigned 32 cin + (List.zipWith (fun a b => toSigned 8 a * toSigned 8 b) ra.1 rb.1).sum
    mmElem x ra rb cin none = (ofSigned 32 (max (-2147483648) (min 2147483647 sum)), decide (sum < -2147483648 ∨ 2147483647 < sum)))

/-- R157, R162, R164, R166: an EVAL whose record and header pass their checks evaluates its samples in order and writes the outputs and STATUS of each
at its row of OPD2, and nothing else. R161: a sample with a NaN feature on a path sets the NaN latch of the request buffer it is linked to. -/
def Obligations.ThresherEvaluation : Prop :=
  ∀ (s : State) (l c : Nat) (w : List Nat) (x : Thr) (A : Nat → ThrAcc),
    let v := (ctxGet s c).img
    let ins := fun i => spBytes s l v 0 (x.samples + i * x.ss) (x.foff + 2 * x.nf) ++
      (if x.cin ≠ 0 then spBytes s l v 0 (x.cin - 1 + i * x.os) (4 * x.c) else []) ++
      spBytes s l v x.sp x.hdr (thrTreeOff x.d x.round x.c (x.tfirst + x.tcount))
    let ws := (List.range x.ns).map fun i => (0, x.rows + i * x.os, thrRow (A i))
    engineIssue s l 2 0 c w → thrSetup s l (jobOf (ctxGet s c) w []) 0 = .ok x → (∀ i < x.ns, evalSampleOf s l v x i = .ok (A i)) →
    inOrder x.ns ins (fun i => spBytes s l v 0 (x.rows + i * x.os) (4 * x.c + 4)) → canWrite s l v ws →
    runsTo (.eval l []) s fun t => engineIssued s t l c w ∧ wrote s t l v ws ∧
      ∀ i b r, i < x.ns → (A i).nan = true → thrLink (jobOf (ctxGet s c) w []) 0 i = some b → tget none (ctxGet s c).bufs b = some r →
        tget none (ctxGet t c).bufs b = some { r with nan := true }

/-- R168: a STREAM that passes its checks joins the forming pass, or closes it and waits behind it, and writes nothing yet; PASS_START runs a forming pass that
is full, closed or due, and otherwise does nothing; a full one that starts while a STREAM waits is a demand of the contexts of both (R215). R169: PASS_CHUNK
adds the next chunk's trees to every sample of every member; after the last chunk the rows are written, the pass ends and is counted. R172: a chunk that cannot
be read faults every context of the pass with ENGINE. Then the tile's engines start what they can. -/
def Obligations.ThresherPasses : Prop :=
  (∀ (s : State) (l c : Nat) (w : List Nat) (i : Nat) (e : SbEnt) (p : Pass),
    let x := ctxGet s c
    let next := passJoin (tileGet s l).form p
    engineIssue s l 2 1 c w → sbFree s l = some i → e.ctx = c → e.ply = x.ply → streamPart s l e i (jobOf x w []) 0 = .ok p →
    runsTo (.stream l []) s fun t => engineIssued s t l c w ∧ t.mem = s.mem ∧ (tileGet t l).form = next.1 ∧ (tileGet t l).run = (tileGet s l).run ∧
      ∃ y, tget none (tileGet t l).sb i = some y ∧ y.inPass = next.2 ∧ y.todo.isSome = !next.2) ∧
  (∀ (s : State) (l : Nat),
    let k := thrLead s l
    let after := fun (i : Instr) (P : State → Prop) => runsTo i s fun t => ∃ u, P u ∧ t = enginesPump u k
    (∀ p, (tileGet s l).run = none → (tileGet s l).form = some p → passReady p s.gt = true → after (.passStart l) fun u =>
      (tileGet u l).run = some p ∧ (tileGet u l).form = none ∧ u = { s with tiles := u.tiles, vds := u.vds } ∧
      ∀ i y rest, thrQueue s k (l - k) = (i, y) :: rest → y.op = 1 → 256 ≤ passSamples p →
        ∀ c, (c = y.ctx ∨ ∃ m ∈ p.members, m.ctx = c) → (sampGet u (tilePart s l) c).now = true) ∧
    (((tileGet s l).run ≠ none ∨ (tileGet s l).form = none ∨ ∀ p, (tileGet s l).form = some p → passReady p s.gt = false) →
      after (.passStart l) fun u => u = s) ∧
    ((tileGet s l).run = none → after (.passChunk l []) fun u => u = s) ∧
    (∀ p a, (tileGet s l).run = some p → passBad s p (passTrees p).1 (passTrees p).2 = some a → after (.passChunk l []) fun u =>
      ∀ m ∈ p.members, (ctxGet s m.ctx).state = 1 → faultsWith u m.ctx 8) ∧
    (∀ p ms, intact s → (tileGet s l).run = some p → ms ≠ [] →
      let n := (passTrees p).1
      let at_ := fun t => p.addr + thrTreeOff p.depth p.round p.outputs t
      let trees := (List.range n).map fun i => (p.tfirst + p.done + i, memR s (at_ (p.tfirst + p.done + i)) (thrStride p.depth p.round p.outputs))
      p.members.map (chunkMember s k p trees) = ms.map .ok →
      (p.done + n < p.tcount → after (.passChunk l []) fun u =>
        (tileGet u l).run = some { p with members := ms, done := p.done + n, part := (passTrees p).2 } ∧ u = { s with tiles := u.tiles, obs := u.obs }) ∧
      (p.tcount ≤ p.done + n → after (.passChunk l []) fun u =>
        (tileGet u l).run = none ∧ counted s u (rTHR_PASSES (tileSite s l)) 1) ∧
      (∀ m, p.tcount ≤ p.done + n → ms = [m] → (tget none (tileGet s k).sb m.slot).isSome →
        let ws := (List.zip m.rows (List.range m.samples.length)).map fun e =>
          (0, e.1, thrRow { out := m.acc.getD e.2 [], nan := bit (m.stat.getD e.2 0) 0, range := bit (m.stat.getD e.2 0) 1 })
        canWrite s k (ctxGet s m.ctx).img ws → after (.passChunk l []) fun u => wrote s u k (ctxGet s m.ctx).img ws ∧ ctxsBut s u m.ctx)))

/-- R106, R115, R118, R189: with one iteration and rows that pass their checks, where no row reads what an earlier row wrote, each of these commands
issues and writes its result rows, zeros after the last element of each, and nothing else: EW the operation EFLAGS selects element by element, FMA the
product of the first two operands plus the destination, REDUCE the fixed tree of the row, SOFTMAX, NORM and LUT the values their units give (Config's
uninterpreted functions: log entry 8), CONVERT the elements in the destination format, COMBINE the combined partial records of each query. EW works on FP32, or on
BF16 with EFLAGS bit 4; subnormals read and written as zero (R112). -/
def Obligations.VectorRows : Prop :=
  ∀ (s : State) (l c : Nat) (w : List Nat) (rs cs : Nat) (A B D : Nat → List Nat),
    let x := ctxGet s c
    let v := x.img
    let f := cwFlags w
    let o := fun i => opdOf v x.b 0 (cwOpd w i)
    let has := fun (i fmt : Nat) (E : Nat → List Nat) => ∀ r < rs, vxRow s l v (o i) cs fmt r = .ok (E r)
    let reads := fun (i fmt r : Nat) => rowSpan s l v (o i) cs fmt r
    let gives := fun (i : Instr) (op cols fmt : Nat) (ins : Nat → List Nat) (E : Nat → List Nat) =>
      engineIssue s l 3 op c w → vxShape w = .ok (rs, cs) → inOrder rs ins (fun r => rowSpan s l v (o 2) cols fmt r) →
      canWrite s l v (rowWrites (o 2) cols fmt rs E) →
      runsTo i s fun t => engineIssued s t l c w ∧ wrote s t l v (rowWrites (o 2) cols fmt rs E) ∧
        regsBut s t [rTIL_ISSUED (tileSite s l), rOBS_TRC_LOST]
    (let fmt := if bit f 4 then 4 else 5
      let two := fun (a b : Nat) => encFmt fmt false (decF32 (ewOp (f % 16) (encF32 (decFmt fmt a)) (encF32 (decFmt fmt b))))
      (f < 32 → f % 16 < 5 → has 0 fmt A → has 1 fmt B →
        gives (.ew l []) 0 cs fmt (fun r => reads 0 fmt r ++ reads 1 fmt r) (fun r => List.zipWith two (A r) (B r))) ∧
      (f < 32 → f % 16 = 5 → has 0 fmt A → gives (.ew l []) 0 cs fmt (reads 0 fmt) (fun r => List.zipWith two (A r) (A r)))) ∧
    (f = 0 → has 0 5 A → has 1 5 B → has 2 5 D →
      gives (.fma l []) 1 cs 5 (fun r => reads 0 5 r ++ reads 1 5 r ++ reads 2 5 r)
        (fun r => List.zipWith (fun p z => f32fma p.1 p.2 z) ((A r).zip (B r)) (D r))) ∧
    (f = 0 → has 0 5 A → gives (.reduce l []) 2 1 5 (reads 0 5) (fun r => [vxReduce f32add ((A r).map fun e => encF32 (decF32 e))])) ∧
    (f = 1 → has 0 5 A → gives (.reduce l []) 2 1 5 (reads 0 5) (fun r => [vxReduce (f32max true) ((A r).map fun e => encF32 (decF32 e))])) ∧
    (f = 0 → has 0 5 A → gives (.softmax l []) 3 cs 5 (reads 0 5)
      (fun r => (List.range cs).map fun i => normF32 (Config.vxSoftmax ((A r).map fun e => BitVec.ofNat 32 (normF32 e)) i).toNat)) ∧
    (f ≤ 1 → has 0 5 A → gives (.norm l []) 4 cs 5 (reads 0 5)
      (fun r => (List.range cs).map fun i => normF32 (Config.vxNorm (f == 1) ((A r).map fun e => BitVec.ofNat 32 (normF32 e)) i).toNat)) ∧
    (∀ tab, f = 0 → rdChk s l v (o 1).sp (o 1).a 512 = .ok tab → has 0 4 A → gives (.lut l []) 5 cs 4 (reads 0 4)
      (fun r => (A r).map fun e =>
        normBf16 (Config.vxLut ((rowElems 4 256 tab).map fun z => BitVec.ofNat 16 (normBf16 z)) (BitVec.ofNat 16 (normBf16 e))).toNat)) ∧
    (f < 512 → f % 16 ≤ 7 → bits f 7 4 ≤ 7 → has 0 (f % 16) A →
      gives (.convert l []) 9 cs (bits f 7 4) (reads 0 (f % 16)) (fun r => (A r).map fun e =>
        encFmt (bits f 7 4) (bit f 8 && (!fmtFloat (f % 16) || decide (fmtBits (bits f 7 4) < fmtBits (f % 16)))) (decFmt (f % 16) e))) ∧
    (∀ h nq, let dim := if byteAt h 4 = 0 then 64 else 128
      let ws := rowWrites (o 2) dim f nq A
      engineIssue s l 3 8 c w → nq = bits (cwOpd w 3) 29 16 → nq ≠ 0 → cwOpd w 1 = 0 → (f = 4 ∨ f = 5) → rdChk s l v (o 0).sp (o 0).a 64 = .ok h →
      (∀ q < nq, combineRow s l v (o 0) f (leAt h 12 4) q = .ok (A q) ∧ (A q).length = dim) →
      inOrder nq (fun q => spBytes s l v (o 0).sp ((o 0).a + q * leAt h 12 4)
        (64 + leAt (spR s l v (o 0).sp ((o 0).a + q * leAt h 12 4) 64) 0 4 * 576)) (fun q => rowSpan s l v (o 2) dim f q) →
      canWrite s l v ws → runsTo (.combine l []) s fun t => engineIssued s t l c w ∧ wrote s t l v ws)

/-- R121 to R123: QUANT of up to 16 rows issues and writes the scale entry and the codes of each row, and the block's header with the TAG of EFLAGS, and
nothing else. R125, R126: DEQUANT of up to 16 rows whose header and tags agree writes each code less its zero point times its scale, NaN where the entry
is NONFINITE. -/
def Obligations.QuantiseDequantise : Prop :=
  ∀ (s : State) (l c : Nat) (w : List Nat) (rs cs : Nat),
    let x := ctxGet s c
    let v := x.img
    let f := cwFlags w
    let o := fun i => opdOf v x.b 0 (cwOpd w i)
    (∀ A : Nat → List Nat,
      let mode := bits f 5 4
      let fmt := if mode < 2 then 0 else mode
      let tag := bits f 11 6
      let q := fun i => quantRow mode ((A i).map (decFmt (f % 16)))
      let ws := ((o 2).sp, (o 2).a, padTo 256 ((List.range rs).flatMap fun i => scaleEntry (q i) tag fmt)) ::
        ((List.range rs).map fun i => ((o 1).sp, (o 1).a + 64 + i * rowBytes cs fmt, padTo (rowBytes cs fmt) (packElems fmt (q i).codes))) ++
        [((o 1).sp, (o 1).a, blockHdr tag fmt rs cs)]
      engineIssue s l 3 6 c w → vxShape w = .ok (rs, cs) → rs ≤ 16 → f < 4096 → (f % 16 = 4 ∨ f % 16 = 5 ∨ f % 16 = 7) →
      (∀ r < rs, vxRow s l v (o 0) cs (f % 16) r = .ok (A r)) → canWrite s l v ws →
      runsTo (.quant l []) s fun t => engineIssued s t l c w ∧ wrote s t l v ws) ∧
    (∀ (h e : Bytes) (q : Nat → Bytes) (tg : Nat),
      let fmt := byteAt h 1 % 16
      let ent := fun i => slice e (16 * i) 16
      let out := fun i => (rowElems fmt cs (q i)).map fun z => if bit (byteAt (ent i) 12) 7 then (if f = 4 then nanBf16 else nanF32)
        else if f = 4 then encBf16 (decF32 (deqVal fmt z (toSigned 32 (leAt (ent i) 4 4)) (leAt (ent i) 0 4)))
        else deqVal fmt z (toSigned 32 (leAt (ent i) 4 4)) (leAt (ent i) 0 4)
      engineIssue s l 3 7 c w → vxShape w = .ok (rs, cs) → rs ≤ 16 → (f = 4 ∨ f = 5) → rdChk s l v (o 0).sp (o 0).a 64 = .ok h → fmt ≤ 3 →
      leAt h 4 4 % 2 ^ 17 = cs → leAt h 2 2 % 32 = rs → rdChk s l v (o 1).sp (o 1).a 256 = .ok e → tagCheck 0 0 h e rs none = .ok tg →
      (∀ i < rs, rdChk s l v (o 0).sp ((o 0).a + 64 + i * rowBytes cs fmt) (cdiv (cs * fmtBits fmt) 8) = .ok (q i)) →
      canWrite s l v (rowWrites (o 2) cs f rs out) →
      runsTo (.dequant l []) s fun t => engineIssued s t l c w ∧ wrote s t l v (rowWrites (o 2) cs f rs out))

/-- R107: with one iteration and operands that can be read, COPY writes the source bytes at the destination, GATHER the indexed 64-byte units in
order, SCATTER the units in order at their indices, TRANSPOSE column i of the source as row i, FILL the immediate byte, and nothing else changes in
memory. -/
def Obligations.MoverCommands : Prop :=
  ∀ (s : State) (l c : Nat) (w : List Nat),
    let x := ctxGet s c
    let v := x.img
    let f := cwFlags w
    let n := cwOpd w 3 % 2 ^ 30
    let o := fun i => opdOf v x.b 0 (cwOpd w i)
    let gives := fun (i : Instr) (op : Nat) (ws : List (Nat × Nat × Bytes)) => engineIssue s l 4 op c w → canWrite s l v ws →
      runsTo i s fun t => engineIssued s t l c w ∧ wrote s t l v ws ∧ regsBut s t [rTIL_ISSUED (tileSite s l), rOBS_TRC_LOST]
    (∀ b, f = 0 → rdChk s l v (o 0).sp (o 0).a (64 * n) = .ok b → gives (.copy l []) 0 [((o 1).sp, (o 1).a, b)]) ∧
    (∀ tab (B : Nat → Bytes), f = 0 → rdChk s l v (o 2).sp (o 2).a (4 * n) = .ok tab →
      (∀ i < n, rdChk s l v (o 0).sp ((o 0).a + 64 * leAt tab (4 * i) 4) 64 = .ok (B i)) →
      inOrder n (fun i => spBytes s l v (o 0).sp ((o 0).a + 64 * leAt tab (4 * i) 4) 64) (fun i => spBytes s l v (o 1).sp ((o 1).a + 64 * i) 64) →
      gives (.gather l []) 1 ((List.range n).map fun i => ((o 1).sp, (o 1).a + 64 * i, B i))) ∧
    (∀ tab (B : Nat → Bytes), f = 0 → rdChk s l v (o 2).sp (o 2).a (4 * n) = .ok tab →
      (∀ i < n, rdChk s l v (o 0).sp ((o 0).a + 64 * i) 64 = .ok (B i)) →
      inOrder n (fun i => spBytes s l v (o 0).sp ((o 0).a + 64 * i) 64) (fun i => spBytes s l v (o 1).sp ((o 1).a + 64 * leAt tab (4 * i) 4) 64) →
      gives (.scatter l []) 2 ((List.range n).map fun i => ((o 1).sp, (o 1).a + 64 * leAt tab (4 * i) 4, B i))) ∧
    (∀ rs cs (A : Nat → List Nat), f ≤ 1 → vxShape w = .ok (rs, cs) →
      let fmt := if bit f 0 then 7 else 0
      (∀ r < rs, vxRow s l v (o 0) cs fmt r = .ok (A r)) →
      gives (.transpose l []) 3 (rowWrites (o 1) rs fmt cs fun k => (List.range rs).map fun r => (A r).getD k 0)) ∧
    (f = 0 → (o 2).sp = 3 → gives (.fill l []) 4 [((o 1).sp, (o 1).a, List.replicate (64 * n) (BitVec.ofNat 8 (cwOpd w 2)))])

/-- R182, R186, R191, R192, R193: with one iteration and a record, history or matrix that passes its checks, ATTEND writes the partial
records of each query (with no valid position its maximum is a free value of the query, log entry 28), TOPK the k best positions of each query in descending score,
GEMV each row's exact integer dot product, dequantised when EFLAGS asks, XPOSE the transposed array, and nothing else changes in memory. R184: HAPPEND writes the codes of each token's
key and value at the next positions and then TOKENS. -/
def Obligations.ScorePortCommands : Prop :=
  ∀ (s : State) (l c : Nat) (w : List Nat) (p : List Nat),
    let x := ctxGet s c
    let v := x.img
    let f := cwFlags w
    let o := fun i => opdOf v x.b 0 (cwOpd w i)
    let nq := p.getD 0 0 % 32
    let os := p.getD 2 0
    let job := jobOf x w []
    spRecord s l job 0 = .ok p →
    (∀ h sc qs, recOpd s l job 0 (p.getD 3 0) = .ok sc → histOf s c (physA s l v 1 (o 1).a) = .ok h → scoreFits h nq = true →
      queryBlock s l v (o 0).a sc nq h.dim = .ok qs → (∀ q ∈ qs, leAt q.2 4 4 = 0) → 0 < nq → nq ≤ 16 → os % 64 = 0 → (∀ z ∈ p.drop 4, z = 0) →
      f = 0 →
      (∀ B : Nat → Bytes, p.getD 0 0 < 32 → 64 + cdiv h.segs.length 64 * (64 + 4 * h.dim) ≤ os →
        (∀ q < nq, attendQuery s h (qs.getD q ([], [])).1 (qs.getD q ([], [])).2 (p.getD 1 0) os = .ok (B q)) →
        let ws := (List.range nq).map fun q => (0, (o 2).a + q * os, B q)
        engineIssue s l 5 0 c w → canWrite s l v ws → runsTo (.attend l []) s fun t => engineIssued s t l c w ∧ wrote s t l v ws) ∧
      (let k := bits (p.getD 0 0) 22 16
        ∀ S : Nat → List Int, bits (p.getD 0 0) 15 5 = 0 → p.getD 0 0 < 2 ^ 23 → 0 < k → k ≤ 64 → nq * k ≤ 1024 → p.getD 1 0 = 0 →
        (∀ q < nq, scoresOf s h (qs.getD q ([], [])).1 (histP h) = .ok (S q)) →
        let ws := (List.range nq).map fun q => (0, (o 2).a + q * os, topBytes k (topK k ((S q).zip (List.range (S q).length))))
        engineIssue s l 5 1 c w → canWrite s l v ws → runsTo (.topk l []) s fun t => engineIssued s t l c w ∧ wrote s t l v ws)) ∧
    (∀ h va (K V : Nat → List Nat), let nt := nq
      let fmt := if bit f 3 then 4 else 5
      let t0 := if bit f 2 then 0 else h.tokens
      let ws := (List.range nt).flatMap fun j =>
        [(keyA h ((t0 + j) % histCap h), (K j).map fun e => BitVec.ofNat 8 (appendCode h.kinv fmt e)),
         (valA h ((t0 + j) % histCap h), (V j).map fun e => BitVec.ofNat 8 (appendCode h.vinv fmt e))]
      f % 4 = 0 → f < 16 → cwOpd w 2 = 0 → p.getD 0 0 < 32 → nt ≤ 16 → (0 < nt ∨ bit f 2 = true) → p.getD 1 0 = 0 → (∀ z ∈ p.drop 3, z = 0) →
      recOpd s l job 0 (p.getD 2 0) = .ok va → histOf s c (physA s l v 1 (o 1).a) = .ok h →
      (∀ j < nt, vxRow s l v ⟨0, (o 0).a⟩ h.dim fmt j = .ok (K j) ∧ vxRow s l v ⟨0, va⟩ h.dim fmt j = .ok (V j)) →
      apartD (ws ++ [(h.rec_, leBytes 8 ((t0 + nt) % 2 ^ 40) ++ memR s (h.rec_ + 8) 56)]) → engineIssue s l 5 2 c w →
      runsTo (.happend l []) s fun t => engineIssued s t l c w ∧
        wroteD s t (ws ++ [(h.rec_, leBytes 8 ((t0 + nt) % 2 ^ 40) ++ memR s (h.rec_ + 8) 56)])) ∧
    (∀ sc rows k sb bases qs (T : Nat → Nat) (R : Nat → List Int × Bytes), f ≤ 1 → p.getD 0 0 < 32 → 0 < nq → nq ≤ 16 → p.getD 1 0 = 0 → os % 64 = 0 →
      (∀ z ∈ p.drop 4, z = 0) → recOpd s l job 0 (p.getD 3 0) = .ok sc → matrixOf s c (physA s l v 1 (o 1).a) = .ok (rows, k, sb, bases) → 4 * rows ≤ os →
      queryBlock s l v (o 0).a sc nq k = .ok qs →
      (∀ b, 16 * b < rows → gemvBlock s bases k sb rows b (if b = 0 then none else some (T (b - 1))) = .ok (T b)) →
      (∀ q < nq, ∀ y ∈ spBytes s l v 0 ((o 2).a + q * os) (4 * rows), y < tierBase) →
      (∀ i < rows, gemvRow s bases k sb i = .ok (R i)) →
      let ws := (List.range nq).map fun q => 
        let e := qs.getD q ([], [])
        (0, (o 2).a + q * os, (List.range rows).flatMap fun i =>
          leBytes 4 (if f = 0 then ofSigned 32 (dotI e.1 (R i).1)
            else if bit (byteAt e.2 12) 7 || bit (byteAt (R i).2 12) 7 then nanF32
            else deqInt (dotI e.1 (R i).1) (toSigned 32 (leAt e.2 4 4)) (toSigned 32 (leAt (R i).2 8 4)) (leAt e.2 0 4) (leAt (R i).2 0 4) none))
      engineIssue s l 5 3 c w → canWrite s l v ws → runsTo (.gemv l []) s fun t => engineIssued s t l c w ∧ wrote s t l v ws) ∧
    (∀ S : Nat → Bytes, let rows := p.getD 0 0 % 65536
      let cols := p.getD 0 0 / 65536
      let e := if bit f 1 then 2 else 1
      let sn := (rows - 1) * p.getD 1 0 + cols * e
      let dn := (cols - 1) * p.getD 2 0 + rows * e
      let ws := (List.range cols).map fun k => (1, (o 1).a + k * p.getD 2 0, (List.range rows).flatMap fun r => slice (S r) (k * e) e)
      (f = 0 ∨ f = 2) → cwOpd w 2 = 0 → 0 < rows → 0 < cols → rows % 8 = 0 → cols % 8 = 0 → p.getD 1 0 % 8 = 0 → p.getD 2 0 % 8 = 0 →
      cols * e ≤ p.getD 1 0 → rows * e ≤ p.getD 2 0 → (∀ z ∈ p.drop 3, z = 0) → inWin v 1 (o 0).a sn = true → inWin v 1 (o 1).a dn = true →
      overlaps (o 0).a sn (o 1).a dn = false → (∀ r < rows, rdChk s l v 1 ((o 0).a + r * p.getD 1 0) (cols * e) = .ok (S r)) →
      engineIssue s l 5 4 c w → canWrite s l v ws → runsTo (.xpose l []) s fun t => engineIssued s t l c w ∧ wrote s t l v ws)

/-- R181, R184, R186, R187, R191 to R193, R197: at a bank that is not fenced, with nothing uncorrectable and its group not critical, BANK_READ answers
status 0 and the units, 3 where one of them holds an entry with a parity error, BANK_WRITE stores them (a Granary unit as its entry), SCORE keeps the exact scores and answers each query's maximum, VALUE answers each segment's weights,
BANK_TOPK the best positions, DOT the exact row sums, BANK_XPOSE stores the transposed block, APPEND the codes of one position; nothing else in memory
changes. A corrected error answers status 1, an uncorrectable codeword status 2 with its unit, a fenced bank status 4, an unlisted opcode status 5. A
score-port operation is kept waiting while its group is critical. Every reply carries the header of its operation. -/
def Obligations.BankOperations : Prop :=
  ∀ (s : State) (n : Nat) (hd : BankHdr), n < 4096 → s.bank.held = [] →
    let answers := fun (t : State) (st : Nat) (d : Bytes) => t.bank.hdr = hd ∧ t.bank.status = st ∧ t.bank.data = d ∧ t = { s with bank := t.bank }
    let stores := fun (i : Instr) (ws : List (Nat × Bytes)) => apartD ws → runsTo i s fun t =>
      t.bank.hdr = hd ∧ t.bank.status = 0 ∧ t.bank.data = [] ∧ wroteD s t ws ∧
      t = { s with bank := t.bank, mem := t.mem, obs := t.obs, carried := t.carried }
    let inBank := fun (off len : Nat) => 0 < len ∧ off + len ≤ 32768
    let plain := fun (off len : Nat) => ∀ k < len, unitEntry s n (off + k) = none
    (∀ opc off len hit, opc ∉ bankOpcs → runsTo (.bankRead ⟨n, hd⟩ opc off len hit) s fun t =>
      t.bank.hdr = hd ∧ t.bank.status = 5 ∧ counted s t rBT_BAD_OPC 1 ∧ regsBut s t [rBT_BAD_OPC] ∧ t = { s with bank := t.bank, regs := t.regs }) ∧
    (bankFenced s n = true → ∀ off len data hit, inBank off len → data.length = 64 * len →
      (runsTo (.bankRead ⟨n, hd⟩ 1 off len hit) s fun t => answers t 4 []) ∧ runsTo (.bankWrite ⟨n, hd⟩ off data hit) s fun t => answers t 4 []) ∧
    ((groupGet s (n / 64)).crit = true → bankFenced s n = false → ∀ a nq k ms cs codes off sp dst dp two pos key val hit,
      off + 7 * sp + 8 * (if two then 2 else 1) ≤ bankSize → dst + 7 * dp + 8 * (if two then 2 else 1) ≤ 2 ^ 33 →
      ∀ i ∈ [Instr.score ⟨n, hd⟩ a nq codes hit, .value ⟨n, hd⟩ a ms cs hit, .bankTopk ⟨n, hd⟩ a nq k codes hit, .dot ⟨n, hd⟩ a nq codes hit,
             .bankXpose ⟨n, hd⟩ off sp dst dp two hit, .append ⟨n, hd⟩ a pos key val hit],
        runsTo i s fun t => t = { s with bank := { s.bank with held := [i] } }) ∧
    ((∀ b, bankFenced s b = false) → s.bad = [] → (groupGet s (n / 64)).crit = false →
      (∀ off len, inBank off len →
        (runsTo (.bankRead ⟨n, hd⟩ 1 off len .none) s fun t =>
          if unitsParity s n off len then answers t 3 [] else answers t 0 (tierR s (bankA n + 64 * off) (64 * len))) ∧
        (∀ u, u < 32768 → unitEntry s n u = none → plain off len → freeSpares (groupGet s (n / 64)) ≠ [] →
          runsTo (.bankRead ⟨n, hd⟩ 1 off len (.ce u)) s fun t =>
            t.bank.status = 1 ∧ t.bank.data = tierR s (bankA n + 64 * off) (64 * len) ∧ counted s t rBT_CE 1 ∧ cntUp s t (cGroup (n / 64) 1) 1 ∧
            t.mem = s.mem) ∧
        (∀ c, c < 65536 → off ≤ c / 2 → c / 2 < off + len → unitEntry s n (c / 2) = none → runsTo (.bankRead ⟨n, hd⟩ 1 off len (.ue c)) s fun t =>
          t.bank.status = 2 ∧ t.bank.data = leBytes 4 (c / 2) ∧ counted s t rBT_UE 1 ∧ t.mem = s.mem) ∧
        (∀ data, data.length = 64 * len → plain off len → stores (.bankWrite ⟨n, hd⟩ off data .none) [(bankA n + 64 * off, data)]) ∧
        (∀ data ep i, data.length = 64 → len = 1 → unitEntry s n off = some (ep, i) → runsTo (.bankWrite ⟨n, hd⟩ off data .none) s fun t =>
          t.bank.status = 0 ∧ entGet t (n / 1024) ep i = entOf ep s.uids data ∧ t.mem = s.mem)) ∧
      (∀ a h nq codes r, histAt s a = .ok h → 0 < nq → nq ≤ 16 → (bankSegs h n).length * segPos h * nq ≤ 4096 → bankScores s h n nq codes = .ok r →
        (runsTo (.score ⟨n, hd⟩ a nq codes .none) s fun t =>
          answers t 0 (r.flatMap fun q => match q with | [] => [] | x :: y => leBytes 4 (ofSigned 32 (y.foldl max x))) ∧
          tget [] t.bank.scores n = r.flatten) ∧
        (∀ k, 0 < k → k ≤ 64 → nq * k ≤ 1024 → (bankPos h n).Pairwise (· < ·) →
          runsTo (.bankTopk ⟨n, hd⟩ a nq k codes .none) s fun t => answers t 0 (r.flatMap fun q => topBytes k (topK k (q.zip (bankPos h n)))))) ∧
      (∀ a h ms cs (R : Nat → List (Nat × List Nat)), histAt s a = .ok h →
        let pos := bankPos h n
        let full := fun q => (List.range (histP h)).map fun i => (tget [] s.bank.scores n).getD (q * pos.length + pos.findIdx fun p => p == i) 0
        (∀ q < ms.length, (bankSegs h n).mapM (fun j => segValue s h (full q) (ms.getD q 0) (cs.getD q 0) (j * segPos h) (segValid h j)) = .ok (R q)) →
        runsTo (.value ⟨n, hd⟩ a ms cs .none) s fun t =>
          answers t 0 (((List.range ms.length).map R).flatten.flatMap fun e => leBytes 4 e.1 ++ e.2.flatMap (leBytes 4))) ∧
      (∀ a nv codes rows k sb bases (R : Nat → List Int × Bytes),
        matrixOf s (leAt (memR s (tierBase + a) 32) 12 2) (tierBase + a) = .ok (rows, k, sb, bases) → 0 < nv → nv ≤ 16 →
        (∀ i < rows, gemvRow s bases k sb i = .ok (R i)) →
        runsTo (.dot ⟨n, hd⟩ a nv codes .none) s fun t => answers t 0 ((List.range nv).flatMap fun q =>
          ((List.range rows).filter fun i => bankOf (bases.getD (i / (16 * sb)) 0) == n).flatMap fun i =>
            leBytes 4 (ofSigned 32 (dotI (i8s (slice codes (q * k) k)) (R i).1)))) ∧
      (∀ off sp dst dp (two : Bool), let e := if two then 2 else 1
        off + 7 * sp + 8 * e ≤ bankSize → dst + 7 * dp + 8 * e ≤ 2 ^ 33 →
        stores (.bankXpose ⟨n, hd⟩ off sp dst dp two .none) ((List.range 8).map fun c => (tierBase + dst + c * dp,
          (List.range 8).flatMap fun r => slice (memR s (bankA n + off + r * sp) (8 * e)) (c * e) e))) ∧
      (∀ a h pos key val, histAt s a = .ok h → pos < histCap h → (h.segs.getD (pos / segPos h) (0, 0, false)).1 = n →
        stores (.append ⟨n, hd⟩ a pos key val .none) [(keyA h pos, slice key 0 h.dim), (valA h pos, slice val 0 h.dim)]))

/-- R195: PATROL_SCRUB reads one unit of the bank. R197: MIGRATION_COPY adds to the units copied; BANK_REMAP, once the copy is complete, serves the bank
from its spare, counts the retirement, and advances the epoch with cause 4; before that it does nothing. R178: BANK_REFRESH stamps the bank. R179:
ACTIVATION_WINDOW grants each group at most its budget, counts what it granted and the window in which an operation waited, and halves the next budget of
every hot group (that the activations asked for are the command's operands is the model's choice, log entry 140). R185: with nothing stored or met in error,
LG_MIGRATE copies each segment of a logical group to the place the ranking of R306 gives it and rewrites its placement entry, within the limit of a
millisecond; where no group has room, the group is not to leave, a command names the history or the limit is reached, it does nothing. -/
def Obligations.TierUpkeep : Prop :=
  (∀ (s : State) (n unit : Nat) (hd : BankHdr), n < 4096 → unit < 32768 → bankFenced s n = false → s.bad = [] →
    runsTo (.patrolScrub ⟨n, hd⟩ unit .none) s fun t => if parityUnit s n unit then t = s else
      t.bank.hdr = hd ∧ t.bank.status = 0 ∧ t.bank.data = memR s (bankA n + 64 * unit) 64 ∧ t = { s with bank := t.bank }) ∧
  (∀ (s : State) (n k : Nat) (hd : BankHdr), runsTo (.migrationCopy ⟨n, hd⟩ k) s fun t => t.bank.hdr = hd ∧ t.bank.status = 0 ∧
    (groupGet t (n / 64)).copying = (groupGet s (n / 64)).copying.map (fun e => if e.1 = n % 64 then (e.1, e.2.1, min 32768 (e.2.2 + k)) else e) ∧
    (∀ g, g ≠ n / 64 → groupGet t g = groupGet s g) ∧ t.mem = s.mem ∧ t.regs = s.regs ∧ t.rq = s.rq) ∧
  (∀ (s : State) (n : Nat),
    let g := n / 64
    let done := (groupGet s g).copying.find? fun e => e.1 == n % 64 && decide (e.2.2 ≥ 32768)
    (done = none → runsTo (.bankRemap n) s fun t => t = s) ∧
    (∀ e, done = some e → runsTo (.bankRemap n) s fun t =>
      physBank t n = e.2.1 ∧ (groupGet t g).copying = (groupGet s g).copying.erase e ∧ tget 0 t.spares g = tget 0 s.spares g + 1 ∧
      counted s t rBT_RETIRED 1 ∧ epochMoved s t 4 ∧ (∀ g', g' ≠ g → groupGet t g' = groupGet s g') ∧ t.mem = s.mem)) ∧
  (∀ (s : State) (n : Nat), n < 4096 → runsTo (.bankRefresh n) s fun t =>
    tget 0 t.bank.times n = s.gt ∧ (∀ k, k ≠ n → tget 0 t.bank.times k = tget 0 s.bank.times k) ∧ t = { s with bank := t.bank }) ∧
  (∀ (s : State) (acts : List (Nat × List Nat)), (acts.map fun e => e.1).Nodup → (∀ e ∈ acts, e.1 < 64) →
    runsTo (.activationWindow acts) s fun t =>
      (∀ e ∈ acts, (groupGet t e.1).actLast = min (actBudget s e.1) (e.2.take 4).sum ∧ cntUp s t (cGroup e.1 0) (min (actBudget s e.1) (e.2.take 4).sum)) ∧
      (∀ g, g < 64 → (∀ e ∈ acts, e.1 ≠ g) → (groupGet t g).actLast = 0) ∧ (∀ g, (groupGet t g).copying = (groupGet s g).copying) ∧
      (∀ g, g < 64 → (groupGet t g).hot = (groupGet s g).hot ∧ (groupGet t g).halved = (groupGet s g).hot) ∧
      counted s t rBT_ACT_WAIT (b2n (acts.any fun e => decide (actBudget s e.1 < (e.2.take 4).sum))) ∧ regsBut s t [rBT_ACT_WAIT] ∧
      t = { s with pwr := t.pwr, obs := t.obs, regs := t.regs, vds := t.vds } ∧
      ((∀ e ∈ acts, (groupGet s e.1).hot = false ∧ (groupGet s e.1).crit = false) → t.vds = s.vds)) ∧
  (∀ (s : State) (a lg : Nat) (hits : List EngHit),
    (∀ e, histAt s a = .error e → runsTo (.lgMigrate a lg hits) s fun t => t = s) ∧
    (∀ h, histAt s a = .ok h →
      let js := (List.range h.segs.length).filter fun j => decide (j / 64 = lg) && !(h.segs.getD j (0, 0, false)).2.2
      let src := (h.segs.getD (64 * lg) (0, 0, false)).1 / 64
      let free := lgPlaces s h lg src
      (js = [] ∨ histBusy s a = true ∨ groupLeaves s src = false ∨ migLimit s ≤ migCount s ∨ free = none →
        runsTo (.lgMigrate a lg hits) s fun t => t = s) ∧
      (∀ places, free = some places → js ≠ [] → histBusy s a = false → groupLeaves s src = true → migCount s < migLimit s → intact s →
        let size := 2 * segPos h * h.dim
        let dst := fun (i : Nat) => places.getD i (0, 0)
        let old := fun (i : Nat) => (h.segs.getD (js.getD i 0) (0, 0, false)).2.1
        let segs := (List.range js.length).map fun i => (bankA (dst i).1 + 64 * ((dst i).2 / 64), memR s (old i) size)
        let ents := (List.range js.length).map fun i => (tierBase + leAt (memR s (tierBase + a) 64) 32 8 + 16 * js.getD i 0,
          leBytes 4 (dst i).1 ++ leBytes 4 ((dst i).2 / 64) ++ leBytes 8 0)
        apartD (segs ++ ents) → (∀ i < js.length, ∀ e ∈ segs, old i + size ≤ e.1 ∨ e.1 + e.2.length ≤ old i) →
        runsTo (.lgMigrate a lg []) s fun t => wroteD s t (segs ++ ents) ∧ counted s t rBT_LG_MIGRATE 1)))

/-- R351 to R353: SAMPLER_RECORD joins the oldest waiting event to the newest record when it is identical, near enough and not committed, counting it as
coalesced, and otherwise appends a record with the next sequence. R355: LOG_PAGE_COMMIT commits a page that is due, while the flash is mounted. R358: a
read that includes byte 0 gives the record at the cursor and moves it on, or NONE with the reason; LOG_PAGE_FETCH ends the wait for a page; SEEK, OLDEST
and NEWEST place the cursor. -/
def Obligations.SamplerCommands : Prop :=
  (∀ s : State, s.smpIn = [] → runsTo .samplerRecord s fun t => t = s) ∧
  (∀ (s : State) (k : Nat) (b : Bytes) (rest : List (Nat × Bytes)), s.smpIn = (k, b) :: rest →
    let type := if k < 0x10 then 0x100 + k else k % 65536
    let near := fun (r : SmpRec) => r.type = type ∧ r.body = b ∧ s.gt - r.last < rgf s rSMP_CFG 15 0 * 1000000 ∧ r.rep < 65535
    let new := fun (cont : Bool) => ({ seq := s.smp.next, type := type, body := b, gt := s.gt, last := s.gt, rep := 1, cont := cont, committed := false } : SmpRec)
    let appends := fun (cont : Bool) => ((s.smp.ring ++ [new cont]).map smpLen).sum ≤ 524288 → runsTo .samplerRecord s fun t =>
      t.smp = { s.smp with ring := s.smp.ring ++ [new cont], next := s.smp.next + 1 } ∧ t.smpIn = rest ∧ counted s t rSMP_RECORDS 1 ∧
      cntUp s t (cDev 2) 1 ∧ regsBut s t [rSMP_RECORDS] ∧ t = { s with smp := t.smp, smpIn := t.smpIn, regs := t.regs, obs := t.obs }
    (s.smp.ring = [] → appends false) ∧
    (∀ r, s.smp.ring.getLast? = some r →
      (near r → r.committed = false → runsTo .samplerRecord s fun t =>
        t.smp = { s.smp with ring := s.smp.ring.dropLast ++ [{ r with rep := r.rep + 1, last := s.gt }] } ∧ t.smpIn = rest ∧
        counted s t rSMP_COALESCED 1 ∧ regsBut s t [rSMP_COALESCED] ∧ t = { s with smp := t.smp, smpIn := t.smpIn, regs := t.regs }) ∧
      (near r → r.committed = true → appends true) ∧ (¬near r → appends false))) ∧
  (∀ s : State, (pageDue s = false ∨ flsMounted s = false → runsTo .logPageCommit s fun t => t = s) ∧
    (pageDue s = true → flsMounted s = true → pageFill pageRoom (smpDirty s) ≠ [] → s.smp.log.length < logPages s → runsTo .logPageCommit s fun t =>
      let p := pageFill pageRoom (smpDirty s)
      t.smp.pages = s.smp.pages + 1 ∧ t.smp.log = s.smp.log ++ [⟨s.smp.pages, s.gt, p.map fun r => { r with committed := true }⟩] ∧
      t.smp.ring = s.smp.ring.map (fun r => if p.any fun q => q.seq == r.seq then { r with committed := true } else r) ∧ t = { s with smp := t.smp })) ∧
  (∀ (s : State) (off len : Nat),
    let c := s.smp.cursor
    let none_ := fun (fl : Nat) (t : State) => t.reply = slice (smpNone s c fl) 0 len ∧ t.regs = s.regs ∧ t.smp.ring = s.smp.ring
    let gives := fun (r : SmpRec) (t : State) => t.reply = slice (smpBytes r) 0 len ∧ t.smp.cursor = c + 1 ∧ t.smp.ring = s.smp.ring ∧
      t.smp.pos = r.seq
    (off ≠ 0 → runsTo (.samplerRead off len) s fun t => t.reply = slice s.smp.buf off len ∧ t = { s with reply := t.reply }) ∧
    (0 < len →
      (s.smp.next ≤ c → runsTo (.samplerRead 0 len) s fun t => none_ 0 t ∧ t.smp.cursor = c) ∧
      (∀ r, c < s.smp.next → smpFind s c = some (r, none) → runsTo (.samplerRead 0 len) s fun t => gives r t) ∧
      (∀ r p, c < s.smp.next → smpFind s c = some (r, some p) →
        (s.smp.fetched = some p → runsTo (.samplerRead 0 len) s fun t => gives r t) ∧
        (s.smp.fetched ≠ some p → runsTo (.samplerRead 0 len) s fun t => none_ 1 t ∧ t.smp.cursor = c ∧ t.smp.fetching = some p)) ∧
      (c < s.smp.next → smpFind s c = none → runsTo (.samplerRead 0 len) s fun t => none_ 2 t ∧ t.smp.cursor = smpFrom s c))) ∧
  (∀ (s : State) (bad : Bool), s.smp.fetching = none → runsTo (.logPageFetch bad) s fun t => t = s) ∧
  (∀ (s : State) (p : Nat), s.smp.fetching = some p →
    (runsTo (.logPageFetch false) s fun t => t = { s with smp := { s.smp with fetching := none, fetched := some p } }) ∧
    (runsTo (.logPageFetch true) s fun t => (∀ e ∈ t.smp.log, e.1 ≠ p) ∧ t.smp.fetching = none ∧ t.smp.ring = s.smp.ring ∧
      counted s t rSMP_GAPS 1 ∧ regsBut s t [rSMP_GAPS])) ∧
  (∀ s : State,
    let at_ := fun (q : Nat) (t : State) => t = { s with smp := { s.smp with cursor := q, fetching := none } }
    (runsTo .seek s (at_ (smpFrom s (rg s rSMP_RD_SEQ_LO + 2 ^ 32 * rg s rSMP_RD_SEQ_HI)))) ∧ (runsTo .oldest s (at_ (smpOldest s))) ∧
    runsTo .newest s (at_ (s.smp.next - 1)))

/-- R336: a codeword read well within its limits only counts; one that no step corrects counts in FLS_UE and its block is refreshed and retired. R337: a
program fills its block and an erase counts, a failed one retires the block. R338: a patrol pass that is not due does nothing; a block past RETAIN is
refreshed. R343, R349: LIFE_COMMIT stores the LIFE image, LIFE_FETCH and CAPTURE_FETCH put theirs into the staging region. R350: CAPTURE_COPY moves the
oldest waiting capture to the next slot. -/
def Obligations.FlashCommands : Prop :=
  (∀ (s : State) (b page cw bitsN : Nat), bitsN ≤ refreshBits s → (blkGet s b).reads + 1 < max 1 (rgf s rFLS_DISTURB 15 0) * 1000 →
    runsTo (.flashReadComplete b page cw bitsN 0) s fun t =>
      blkGet t b = { (blkGet s b) with reads := (blkGet s b).reads + 1 } ∧ (∀ k, k ≠ b → blkGet t k = blkGet s k) ∧
      counted s t rFLS_CORR (b2n (decide (0 < bitsN))) ∧ regsBut s t [rFLS_CORR] ∧ t = { s with flash := t.flash, regs := t.regs }) ∧
  (∀ (s : State) (b page cw bitsN : Nat), runsTo (.flashReadComplete b page cw bitsN 3) s fun t =>
    counted s t rFLS_UE 1 ∧ counted s t rFLS_RETRY_READS (b2n (decide (0 < retryMax s))) ∧ counted s t rFLS_SOFT_READS 1 ∧ rgb t rFLS_STATUS 1 = true ∧ t.mem = s.mem ∧
    ((blkGet s b).valid = true → (blkGet t b).bad = true ∧ (s.pwr.fail = false → counted s t rFLS_REFRESH 1))) ∧
  (∀ (s : State) (b pages : Nat),
    (runsTo (.programComplete b pages true) s fun t =>
      (blkGet t b).valid = true ∧ (blkGet t b).erases = (blkGet s b).erases ∧ (∀ k, k ≠ b → blkGet t k = blkGet s k) ∧
      t = { s with flash := t.flash, life := t.life, smp := t.smp }) ∧
    ((blkGet s b).bad = false →
      (runsTo (.programComplete b pages false) s fun t => (blkGet t b).bad = true ∧ counted s t rFLS_RETIRED 1 ∧ rgb t rFLS_STATUS 0 = true) ∧
      (runsTo (.eraseComplete b false) s fun t => (blkGet t b).bad = true ∧ counted s t rFLS_RETIRED 1 ∧ rgb t rFLS_STATUS 0 = true ∧ tget 0 t.life 172 = min (tget 0 s.life 172 + 1) 0xFFFFFFFF)) ∧
    ((∀ e ∈ s.flash.blocks, e.2.erases ≤ max 1 (rgf s rFLS_CFG 31 16)) → (blkGet s b).erases < max 1 (rgf s rFLS_CFG 31 16) →
      runsTo (.eraseComplete b true) s fun t =>
        blkGet t b = { (blkGet s b) with erases := (blkGet s b).erases + 1, valid := false, reads := 0 } ∧ (∀ k, k ≠ b → blkGet t k = blkGet s k) ∧
        (∀ e ∈ t.flash.pages, e.1 / 2 ^ 32 ≠ b) ∧ tget 0 t.life 152 = tget 0 s.life 152 + 1 ∧ t = { s with flash := t.flash, life := t.life })) ∧
  (∀ (s : State) (reads : List (Nat × Nat × Nat × Nat × Nat)),
    (flsMounted s = false ∨ s.pwr.fail = true ∨ (s.flash.patrolling = false ∧ powNs s < s.flash.patrolAt + patrolNs s) →
      runsTo (.flashPatrol reads) s fun t => t = s) ∧
    (flsMounted s = true → s.pwr.fail = false → (s.flash.patrolling = true ∨ s.flash.patrolAt + patrolNs s ≤ powNs s) →
      runsTo (.flashPatrol reads) s fun t => t.flash.patrolAt = powNs s ∧ t.flash.patrolling = false ∧ t.mem = s.mem)) ∧
  (∀ (s : State) (b : Nat),
    let due := (blkGet s b).progAt + max 1 (rgf s rFLS_AGE 15 0) * dayNs
    ((blkGet s b).valid = false ∨ s.pwr.fail = true ∨ powNs s < due → runsTo (.retentionRefresh b) s fun t => t = s) ∧
    ((blkGet s b).valid = true → s.pwr.fail = false → due ≤ powNs s → runsTo (.retentionRefresh b) s fun t =>
      (blkGet t b).valid = false ∧ (blkGet t b).erases = (blkGet s b).erases + 1 ∧ counted s t rFLS_REFRESH 1 ∧ regsBut s t [rFLS_REFRESH] ∧
      t = { s with flash := t.flash, regs := t.regs, life := t.life })) ∧
  (∀ s : State,
    (flsMounted s = false → runsTo .lifeCommit s fun t => t = s) ∧
    (flsMounted s = true → maxSeq (copiesOf s 5) + 1 < 2 ^ 64 → runsTo .lifeCommit s fun t => flsBody t 5 = lifeImage s ∧
      t.smpIn = s.smpIn ++ [(0x15, lifeImage s)] ∧ t = { s with flash := t.flash, smpIn := t.smpIn, life := t.life }) ∧
    (s.flash.capWait = [] ∨ flsMounted s = false ∨ s.pwr.fail = true ∨ s.boot.stage ≠ 0x10 → runsTo .captureCopy s fun t => t = s) ∧
    (∀ n a len rest, s.flash.capWait = (n, a, len) :: rest → flsMounted s = true → s.pwr.fail = false → s.boot.stage = 0x10 →
      len ≤ 2 ^ 29 → kindSeq s 0x42 < 2 ^ 64 →
      runsTo .captureCopy s fun t => capGet t (s.flash.nextCap % 16) = some (memR s a len) ∧ t.flash.capWait = rest ∧
        t.flash.nextCap = (s.flash.nextCap % 16 + 1) % 16 ∧ t = { s with flash := t.flash, smpIn := t.smpIn, obs := t.obs, life := t.life }) ∧
    (let stages := fun (i : Instr) (img : Bytes) =>
        let a := lpBase + (lpRegion s 1).1 + 64 * rg s rFLS_CMD_ARG;
        (64 * rg s rFLS_CMD_ARG + img.length ≤ (lpRegion s 1).2 → s.bad = [] → runsTo i s fun t => memR t a img.length = img ∧ memBut s t a img.length ∧
          rg t rFLS_CMD_STATUS = 0 ∧ regsBut s t [rFLS_CMD_STATUS]) ∧
        ((lpRegion s 1).2 < 64 * rg s rFLS_CMD_ARG + img.length → runsTo i s fun t => t = { s with regs := t.regs } ∧ rg t rFLS_CMD_STATUS = 0 ∧
          regsBut s t [rFLS_CMD_STATUS]);
      stages .lifeFetch (lifeImage s) ∧ ∀ slot, (∀ c, capGet s slot = some c → stages (.captureFetch slot) c) ∧
        (capGet s slot = none → runsTo (.captureFetch slot) s fun t => t = { s with regs := t.regs } ∧ rg t rFLS_CMD_STATUS = 2 ^ 28 ∧
          regsBut s t [rFLS_CMD_STATUS])) ∧
    (runsTo .patrolNow s fun t => t.flash = { s.flash with patrolling := true } ∧ rg t rFLS_CMD_STATUS = 0 ∧ regsBut s t [rFLS_CMD_STATUS] ∧
      t = { s with flash := t.flash, regs := t.regs }))

/-- R258, R260, R261, R265, R266: a model command runs when it is the mailbox's next one, and ends with one completion word. A malformed block ends with
BAD_CMD, a context without the slot it needs with STATE; slots, contexts and memory stay, but that a command for a context names the queue of
its slots' events (the model's choice: log entry 41). A LOAD whose image is there and passes every
check leaves the slot LOADED with the image's digest, or ARMED or ACTIVE as ARM says; one that fails leaves it EMPTY with the status of the failed check;
one whose chunks are missing waits, LOADING, at least until chunk 0 is there. ARM arms the LOADED slot, or commits it in a FREE or FAULTED context; UNLOAD empties it; LIBSTORE and
LIBDELETE change one library entry. -/
def Obligations.ModelCommands : Prop :=
  (∀ (s : State) (fb : Bool), ∀ i ∈ [(1, Instr.load fb), (2, .arm), (3, .unload), (4, .libstore fb), (5, .libdelete)],
    (mboxHead s = none → runsTo i.2 s fun t => t = s) ∧
    (∀ b, mboxHead s = some b → byteAt b 0 ≠ i.1 → runsTo i.2 s fun t => t = s) ∧
    (∀ b, mboxHead s = some b → byteAt b 0 = i.1 → loadsRunning s < 2 → (running s = false ∨ modelForm b = false) → runsTo i.2 s fun t =>
      t.mbox.queue = s.mbox.queue.tail ∧ t.mbox.done = s.mbox.done ++ [doneWord b 12] ∧ t.slots = s.slots ∧ t.ctxs = s.ctxs ∧ t.mem = s.mem ∧
      t.flash = s.flash)) ∧
  (∀ (s : State) (fb : Bool) (b : Bytes), running s = true → modelForm b = true → mboxHead s = some b →
    let c := leAt b 4 2
    let u := ctxQueue { s with mbox := { s.mbox with queue := s.mbox.queue.tail } } c (byteAt b 3)
    let kept := fun (t : State) (k : Nat) => mslotGet t c k =
      (if (mslotGet s c k).state = 0 then mslotGet s c k else { (mslotGet s c k) with rq := byteAt b 3 })
    let stays := fun (t : State) => kept t 0 ∧ kept t 1 ∧ (∀ d k, d ≠ c → k < 2 → mslotGet t d k = mslotGet s d k) ∧ t.ctxs = s.ctxs ∧ t.mem = s.mem
    let loaded := [0, 1].find? fun k => (mslotGet s c k).state == 2
    let ends := fun (t : State) (st : Nat) => t.mbox.queue = s.mbox.queue.tail ∧ t.mbox.done = s.mbox.done ++ [doneWord b st]
    (byteAt b 0 = 1 → loadsRunning s < 2 →
      (loadSlot s c = none → runsTo (.load fb) s fun t => ends t 5 ∧ stays t) ∧
      (∀ k, loadSlot s c = some k →
        (∀ st d, sourceOf s b fb = .fail st d → runsTo (.load fb) s fun t => ends t st ∧ stays t) ∧
        (∀ i v, sourceOf s b fb = .wait i → tget none s.sessions i = some v → runsTo (.load fb) s fun t =>
          t.mem = s.mem ∧ t.ctxs = s.ctxs ∧ t.mbox.queue = s.mbox.queue.tail ∧
          (tget false v.chunks 0 = false →
            mslotGet t c k = { mslot0 with state := 1, copyAt := v.copyAt, allocs := [(4, v.copyAt, 2 * roundUp v.size 64)], rq := byteAt b 3 % 64,
                                           tag := leAt b 6 2 } ∧
            tget none t.sessions i = some { v with waiting := some b } ∧ t.mbox.done = s.mbox.done ∧
            t = { s with mbox := t.mbox, slots := t.slots, sessions := t.sessions })) ∧
        (∀ img bad e, sourceOf s b fb = .bytes img bad → loadImage u c k img b bad (copyOf u b) = .error e → runsTo (.load fb) s fun t =>
          ends t e.1 ∧ mslotGet t c k = mslot0 ∧ kept t (1 - k) ∧ t.ctxs = s.ctxs ∧ t.mem = s.mem) ∧
        (∀ img bad w, sourceOf s b fb = .bytes img bad → loadImage u c k img b bad (copyOf u b) = .ok w →
          imgVerify s (some (c / 1024)) img = none ∧ imgSigned s img = none ∧ bad = false ∧ (mslotGet w c k).state = 2 ∧
          (mslotGet w c k).digest = imgDigest img ∧
          (bit (byteAt b 1) 0 = false → runsTo (.load fb) s fun t => ends t 0 ∧ mslotGet t c k = mslotGet w c k ∧ t.mem = w.mem ∧ t.ctxs = s.ctxs) ∧
          (bit (byteAt b 1) 0 = true → ((ctxGet s c).state = 1 ∨ (ctxGet s c).state = 2) → runsTo (.load fb) s fun t => ends t 0 ∧ (mslotGet t c k).state = 3 ∧ t.mem = w.mem ∧
            t.ctxs = s.ctxs) ∧
          (bit (byteAt b 1) 0 = true → ((ctxGet s c).state = 0 ∨ (ctxGet s c).state = 3) → runsTo (.load fb) s fun t => ends t 0 ∧ (mslotGet t c k).state = 4 ∧
            (ctxGet t c).state = 1 ∧ (ctxGet t c).active = k)))) ∧
    (byteAt b 0 = 2 →
      (loaded = none → runsTo .arm s fun t => ends t 5 ∧ stays t) ∧
      (∀ k, loaded = some k → ((ctxGet s c).state = 1 ∨ (ctxGet s c).state = 2) → runsTo .arm s fun t =>
        ends t 0 ∧ (mslotGet t c k).state = 3 ∧ (mslotGet t c k).armedAt = s.gt ∧ kept t (1 - k) ∧ t.ctxs = s.ctxs ∧ t.mem = s.mem) ∧
      (∀ k, loaded = some k → ((ctxGet s c).state = 0 ∨ (ctxGet s c).state = 3) → runsTo .arm s fun t =>
        ends t 0 ∧ (mslotGet t c k).state = 4 ∧ (ctxGet t c).state = 1 ∧ (ctxGet t c).active = k ∧ ctxsBut s t c ∧ t.mem = s.mem)) ∧
    (byteAt b 0 = 3 →
      (loaded = none → runsTo .unload s fun t => ends t 5 ∧ stays t) ∧
      (∀ k, loaded = some k → runsTo .unload s fun t =>
        ends t 0 ∧ mslotGet t c k = mslot0 ∧ kept t (1 - k) ∧ t.ctxs = s.ctxs ∧ t.mem = s.mem)) ∧
    (byteAt b 0 = 4 → loadsRunning s < 2 → leAt b 24 8 ≤ 255 → byteAt b 2 ≠ 2 →
      (∀ img, sourceOf s b fb = .bytes img false → imgVerify s none img = none → imgSigned s img = none → flsMounted s = true → flsWorn s = false →
        s.pwr.fail = false → libGet s (leAt b 24 8) = none → img.length ≤ 65535 * 16384 → kindSeq s 0x41 < 2 ^ 64 →
        ((libAll s).map fun e => e.2.length).sum + img.length +
          clampN (2 ^ 30) (2 ^ 36) (rgf s rFLS_CAPACITY 15 0 * 2 ^ 30 / 64) + 2 ^ 31 + 2 ^ 28 ≤ rgf s rFLS_CAPACITY 15 0 * 2 ^ 30 →
        runsTo (.libstore fb) s fun t => ends t 0 ∧ libGet t (leAt b 24 8) = some img ∧
          (∀ i, i ≠ leAt b 24 8 → libGet t i = libGet s i) ∧ t.slots = s.slots ∧ t.mem = s.mem) ∧
      (∀ st d, sourceOf s b fb = .fail st d → runsTo (.libstore fb) s fun t => ends t st ∧ t.flash = s.flash ∧ t.mem = s.mem)) ∧
    (byteAt b 0 = 5 → mcFrom b ≤ 255 →
      (flsMounted s = false → runsTo .libdelete s fun t => ends t 11 ∧ t.flash = s.flash ∧ t.mem = s.mem) ∧
      (flsMounted s = true → runsTo .libdelete s fun t => ends t 0 ∧ libGet t (mcFrom b) = none ∧
        (∀ i, i ≠ mcFrom b → libGet t i = libGet s i) ∧ t.slots = s.slots ∧ t.mem = s.mem)))

/-- R267: CHAN_OPEN opens a free session with its port, EtherType, timeout, secret and size, its image in room for a retained copy, or ends with NO_SPACE; CHAN_CLOSE closes it, failing a command that waits for it
with FETCH. A chunk with the right tag, number and length is written at its place of the session's image, any other is counted in REJECTED; CHANNEL_TIMEOUT fails the waiting
command with FETCH once the timeout has passed with chunks missing, and does nothing before. -/
def Obligations.LoadChannel : Prop :=
  (∀ (s : State) (b : Bytes), running s = true → modelForm b = true → mboxHead s = some b →
    let i := mcFrom b
    let a := leAt b 24 8
    let ends := fun (t : State) (w : List Nat) => t.mbox.queue = s.mbox.queue.tail ∧ t.mbox.done = s.mbox.done ++ w
    (byteAt b 0 = 6 →
      (i ≤ 3 → chanPort s (a % 256) = true → bits a 15 8 = 0 → a < 2 ^ 48 → mcSize b ≠ 0 → mcSize b ≤ 2 ^ 32 → tget none s.sessions i = none →
        (copyRoom s (mcSize b) = none → runsTo .chanOpen s fun t => ends t [doneWord b 4] ∧ t.sessions = s.sessions ∧ t.mem = s.mem) ∧
        (∀ x, copyRoom s (mcSize b) = some x → runsTo .chanOpen s fun t => ends t [doneWord b 0] ∧
          tget none t.sessions i = some (⟨a % 256, bits a 31 16, s.gt + bits a 47 32 * 1000000, slice b 32 32, mcSize b, [], 0, none, x⟩ : Session) ∧
          (∀ j, j ≠ i → tget none t.sessions j = tget none s.sessions j) ∧ t.slots = s.slots ∧ t.ctxs = s.ctxs ∧ t.mem = s.mem)) ∧
      ((3 < i ∨ chanPort s (a % 256) = false ∨ bits a 15 8 ≠ 0 ∨ 2 ^ 48 ≤ a ∨ mcSize b = 0 ∨ 2 ^ 32 < mcSize b ∨
        (tget none s.sessions i).isSome = true) → runsTo .chanOpen s fun t =>
        ends t [doneWord b 12] ∧ t.sessions = s.sessions)) ∧
    (byteAt b 0 = 7 → i ≤ 3 →
      (tget none s.sessions i = none → runsTo .chanClose s fun t => ends t [doneWord b 12] ∧ t.sessions = s.sessions) ∧
      (∀ v, tget none s.sessions i = some v →
        (v.waiting = none → runsTo .chanClose s fun t => ends t [doneWord b 0] ∧ tget none t.sessions i = none ∧ t.slots = s.slots ∧ t.mem = s.mem) ∧
        (∀ w, v.waiting = some w → runsTo .chanClose s fun t => ends t [doneWord w 6, doneWord b 0] ∧ tget none t.sessions i = none ∧ t.mem = s.mem)))) ∧
  (∀ (s : State) (n m i : Nat) (b : Bytes) (fec : Bool) (v : Session),
    let p := (b.drop 14).take (b.length - 18)
    let k := beAt p 4 4
    let len := beAt p 8 2
    let good := 12 + len + 16 ≤ p.length ∧ slice p (12 + len) 16 = shake256 16 (v.secret ++ p.take (12 + len)) ∧ k < chunkCount v ∧
      (len = 4096 ∨ (k + 1 = chunkCount v ∧ 1 ≤ len ∧ len ≤ 4096))
    n < 16 → m < subCount s n → linkUp s n m = true → chunkSession s n m b = some i → macCheck s n b fec = none → tget none s.sessions i = some v →
    v.waiting = none →
    (good → s.bad = [] → runsTo (.chunkFrame n m b fec) s fun t =>
      tget none t.sessions i = some { v with chunks := tset false v.chunks k true } ∧ wroteD s t [(lpBase + v.copyAt + 4096 * k, slice p 12 len)] ∧
      t.slots = s.slots) ∧
    (¬good → runsTo (.chunkFrame n m b fec) s fun t =>
      tget none t.sessions i = some { v with rejected := v.rejected + 1 } ∧ t.mem = s.mem ∧ t.slots = s.slots)) ∧
  (∀ (s : State) (n m : Nat) (b : Bytes) (fec : Bool), (16 ≤ n ∨ linkUp s n m = false ∨ chunkSession s n m b = none) →
    runsTo (.chunkFrame n m b fec) s fun t => t = s) ∧
  (∀ (s : State) (i : Nat), (tget none s.sessions i = none → runsTo (.channelTimeout i) s fun t => t = s) ∧
    (∀ v, tget none s.sessions i = some v →
      (s.gt < v.until_ ∨ v.waiting = none ∨ chunksMissing v = 0 → runsTo (.channelTimeout i) s fun t => t = s) ∧
      (∀ w, v.until_ ≤ s.gt → v.waiting = some w → chunksMissing v ≠ 0 → runsTo (.channelTimeout i) s fun t =>
        tget none t.sessions i = none ∧ t.mbox.done = s.mbox.done ++ [doneWord w 6] ∧ t.mem = s.mem)))

/-- R262, R264: SLOT_COMMIT with no request outstanding, the head TAKE and no entry held makes the ARMED slot ACTIVE with the next generation, its
ring at command 0, its knots at their initial values, and advances the epoch with cause 5; the old ACTIVE slot is DRAINING; otherwise it does nothing.
R263: FORCED_COMMIT after tDRAIN, while that condition is not met, advances PLY, refuses what is outstanding, and leaves the commit to the quiesce. DRAIN_END empties a DRAINING slot. -/
def Obligations.SlotCommitment : Prop :=
  ∀ (s : State) (c : Nat),
    let x := ctxGet s c
    let ready := x.state = 1 ∧ x.restart = none ∧ x.restoring = false ∧ x.bufs = [] ∧ sbHeld s c = 0 ∧ headUe s c = none ∧
      cwEngine (headOf s c) = 0 ∧ cwOp (headOf s c) = 1
    (armedSlot s c = none → (runsTo (.slotCommit c) s fun t => t = s) ∧ runsTo (.forcedCommit c) s fun t => t = s) ∧
    (∀ k, armedSlot s c = some k →
      let m := mslotGet s c k
      (ready → m.forced = false → runsTo (.slotCommit c) s fun t =>
        (ctxGet t c).state = 1 ∧ (ctxGet t c).active = k ∧ (ctxGet t c).pos = 0 ∧ (ctxGet t c).admitted = m.admitted ∧ (ctxGet t c).bufs = m.bufs ∧
        (ctxGet t c).img = { m.img with gen := if 65535 ≤ tget 0 s.gens c then 1 else tget 0 s.gens c + 1 } ∧ (ctxGet t c).ply = x.ply ∧
        (mslotGet t c k).state = 4 ∧ ((mslotGet s c (1 - k)).state = 4 → (mslotGet t c (1 - k)).state = 5) ∧
        (m.img.knotCount ≤ 8192 → ∀ i < m.img.knotCount, knotGet t (c / 1024) m.img i = m.img.knots.getD i 0) ∧
        epochMoved s t 5 ∧ ctxsBut s t c ∧ t.mem = s.mem ∧ t.tiles = s.tiles) ∧
      (¬ready ∨ m.forced = true → runsTo (.slotCommit c) s fun t => t = s) ∧
      (x.state ≠ 1 ∨ m.forced = true ∨ ready ∨ s.gt < m.armedAt + 1000000 → runsTo (.forcedCommit c) s fun t => t = s) ∧
      (x.state = 1 → m.forced = false → ¬ready → m.armedAt + 1000000 ≤ s.gt → runsTo (.forcedCommit c) s fun t =>
        (ctxGet t c).ply = (x.ply + 1) % 4096 ∧ (ctxGet t c).bufs = [] ∧ (ctxGet t c).restart = some false ∧ (ctxGet t c).downAt = s.gt ∧
        (mslotGet t c k).forced = true ∧ (mslotGet t c k).state = 3 ∧ ctxsBut s t c ∧ t.mem = s.mem)) ∧
    (∀ k, ((mslotGet s c k).state = 5 → runsTo (.drainEnd c k) s fun t => mslotGet t c k = mslot0 ∧ t.ctxs = s.ctxs ∧ t.mem = s.mem) ∧
      ((mslotGet s c k).state ≠ 5 → runsTo (.drainEnd c k) s fun t => t = s))

/-- R270, R272: a whole message of one flit, good and next in sequence, is taken: its SEQ becomes the last accepted. R275, R283, R285: one for another
device is relayed over its route, or discarded and counted when there is none; one already accepted in the last millisecond is counted as a duplicate.
R278, R279, R281, R287: for this device a REQ is journalled and queued for its context, a HEAD becomes a frame with its origin's stamp or finds no cell, an
RSP frees its forward-table entry, a LOAD brings a chunk to its session. R284: a LIVE that is no repeat updates what is known of its sender (that a repeat is
one of the last millisecond is the model's choice, log entry 118). Flits
of another KIND and links that are down are not this event. -/
def Obligations.PeerMessages : Prop :=
  ∀ (s : State) (l : Nat) (f : Bytes),
    let b := flitLoad f
    let h := slice b 0 32
    let r := slice b 32 32
    let p := flitPart f
    let q := procPart s p
    let d := flitSrc f
    let mine := flitDst f = devId s ∧ heardMsg s f = false ∧ (linkGet s l).miswire = false
    (∀ i ∈ [(1, Instr.reqMessage l [f]), (2, .rspMessage l [f]), (3, .headMessage l [f]), (4, .loadMessage l [f]), (5, .liveMessage l [f])],
      (flitKind f ≠ i.1 → runsTo i.2 s fun t => t = s) ∧ ((linkGet s l).up = false → runsTo i.2 s fun t => t = s)) ∧
    (∀ i ∈ [(1, Instr.reqMessage l [f]), (2, .rspMessage l [f]), (3, .headMessage l [f]), (4, .loadMessage l [f])], oneFlit s l f i.1 →
      (linkGet s l).miswire = false → l < 4 →
      (flitDst f ≠ devId s → bit (byteAt f 0) 0 = false →
        (∀ o, route s (flitDst f) (flitMsg f) (b2n (bit (byteAt f 0) 3)) = some o → runsTo i.2 s fun t =>
          counted s t rPL_RELAY 1 ∧ cntUp s t (cLink l 5) 1 ∧ t.jrnl = s.jrnl ∧ t.mem = s.mem ∧ t.frames = s.frames) ∧
        (route s (flitDst f) (flitMsg f) (b2n (bit (byteAt f 0) 3)) = none → runsTo i.2 s fun t =>
          counted s t rPL_UNROUTABLE 1 ∧ (linkGet t l).rxSeq = flitSeq f ∧ t.jrnl = s.jrnl ∧ t.mem = s.mem ∧ t.frames = s.frames)) ∧
      (flitDst f = devId s → heardMsg s f = true → runsTo i.2 s fun t =>
        counted s t rPL_DUP 1 ∧ (linkGet t l).rxSeq = flitSeq f ∧ t.jrnl = s.jrnl ∧ t.mem = s.mem ∧ t.frames = s.frames)) ∧
    (oneFlit s l f 1 → mine →
      (∀ c k, binding s q (byteAt h 6) = some c → jFree s p = some k → (tileGet s (c / 1024)).rq.length < 4096 →
        let len := bits (leAt r 16 4) 27 16
        runsTo (.reqMessage l [f]) s fun t =>
          jGet t p k = some (⟨false, 0, reqHeader (leAt h 8 8) (leAt r 8 4) c p d true (byteAt h 7 % 32) (bit (leAt r 16 4) 31) (slice b 64 len).length
            (byteAt h 6) k, slice b 64 len, none, none, c, false, some (bits (leAt h 0 4) 15 14, bits (leAt h 0 4) 13 0, leAt h 4 2 % 4096, d)⟩ : JSlot) ∧
          (tileGet t (c / 1024)).rq = (tileGet s (c / 1024)).rq ++ [⟨p, k⟩] ∧ generalBut s t p [(journalAt s k, 2112)] ∧ t.frames = s.frames) ∧
      (binding s q (byteAt h 6) = none → runsTo (.reqMessage l [f]) s fun t => counted s t (rTIL_UNBOUND q) 1 ∧ t.jrnl = s.jrnl ∧ t.mem = s.mem)) ∧
    (oneFlit s l f 2 → mine →
      let k := fwdKey p (leAt b 0 4 % 16384)
      (∀ e, tget none s.pl.fwd k = some e → leAt b 4 2 % 4096 = e.fply → e.dev = d → runsTo (.rspMessage l [f]) s fun t => tget none t.pl.fwd k = none) ∧
      ((∀ e, tget none s.pl.fwd k = some e → leAt b 4 2 % 4096 ≠ e.fply ∨ e.dev ≠ d) → runsTo (.rspMessage l [f]) s fun t =>
        counted s t rPL_PLY_DROP 1 ∧ t.pl.fwd = s.pl.fwd ∧ t.vds = s.vds ∧ t.mem = s.mem)) ∧
    (oneFlit s l f 3 → mine →
      (poolFree s p ≤ guardCells s p → runsTo (.headMessage l [f]) s fun t => counted s t (rTM_DROP_INGRESS p) 1 ∧ t.frames = s.frames ∧ t.mem = s.mem) ∧
      (guardCells s p < poolFree s p → (pipeMark (pipeGet s q)).bypass = false → rgb s (rPIPE_CTRL q) 0 = false → runsTo (.headMessage l [f]) s fun t =>
        (subGet t 16 p).seq = ((subGet s 16 p).seq + 1) % 2 ^ 32 ∧
        ∃ n x, generalBut s t p ((x.cells.flatMap fun c => [(256 * c, 256), (linkAt s c, 32)]) ++ [(ringAt s x.ring, 32)]) ∧ (pipeGet t q).dq = (pipeGet s q).dq ++ [n] ∧ frameGet t n = some x ∧ x.fromPeer = true ∧ x.srcDev = d ∧ x.gt = leAt h 8 8 ∧
          x.length = leAt h 16 2 % 16384 ∧ x.bytes = b.drop 32 ∧ x.stage = .queued)) ∧
    (oneFlit s l f 4 → mine → s.bad = [] → ∀ v, tget none s.sessions (beAt b 0 4) = some v → v.port = 64 + p → v.waiting = none →
      let len := beAt b 8 2
      12 + len + 16 ≤ b.length → slice b (12 + len) 16 = shake256 16 (v.secret ++ b.take (12 + len)) → beAt b 4 4 < chunkCount v → len = 4096 ∨
        (beAt b 4 4 + 1 = chunkCount v ∧ 1 ≤ len ∧ len ≤ 4096) →
      runsTo (.loadMessage l [f]) s fun t =>
        tget none t.sessions (beAt b 0 4) = some { v with chunks := tset false v.chunks (beAt b 4 4) true } ∧
        wroteD s t [(lpBase + v.copyAt + 4096 * beAt b 4 4, slice b 12 len)]) ∧
    (oneFlit s l f 5 → d ≠ devId s →
      let v := peerGet s d
      (liveAgain s v (leAt b 4 4) = true → runsTo (.liveMessage l [f]) s fun t => t.pl.peers = s.pl.peers) ∧
      (liveAgain s v (leAt b 4 4) = false →
        (ringMatches s (slice b 16 64) = true → runsTo (.liveMessage l [f]) s fun t =>
          (leAt b 4 4, s.gt) ∈ (peerGet t d).seqs ∧ (peerGet t d).heard = true ∧ (peerGet t d).down = byteAt b 1 % 16 ∧ (peerGet t d).last = s.gt ∧
          (peerGet t d).mismatch = false ∧ (peerGet t d).live = (v.live || !v.heard) ∧ t.mem = s.mem) ∧
        (ringMatches s (slice b 16 64) = false → runsTo (.liveMessage l [f]) s fun t =>
          (leAt b 4 4, s.gt) ∈ (peerGet t d).seqs ∧ (peerGet t d).mismatch = true ∧ (peerGet t d).live = false ∧ (peerGet t d).last = s.gt)))

/-- R272: an IDLE flit on an up link acknowledges flits of the replay buffer and returns credits, up to 32 a pool; one with NAK has the
unacknowledged flits sent again. R270: a flit with a bad CRC is counted
and asks for a replay, as does a good one that is not the next expected. Any other flit is not the event, and changes nothing. -/
def Obligations.PeerFlits : Prop :=
  ∀ (s : State) (l : Nat) (f : Bytes),
    let v := linkGet s l
    let next := flitSeq f = (v.rxSeq + 1) % 4096
    (v.up = false ∨ flitGood f = false ∨ flitKind f ≠ 0 → runsTo (.idleFlit l f) s fun t => t = s) ∧
    (v.up = true → flitGood f = true → flitKind f = 0 → v.out = [] → bit (leAt f 6 2) 15 = false → runsTo (.idleFlit l f) s fun t =>
      let n := ((v.replay.findIdx? fun x => flitSeq x == leAt f 6 2 % 4096).map (· + 1)).getD 0
      let pool := bits (leAt f 8 2) 14 12
      (linkGet t l).replay = v.replay.drop n ∧ credits (linkGet t l) pool = min 32 (credits v pool + leAt f 8 2 % 256) ∧
      (∀ k, k ≠ pool → credits (linkGet t l) k = credits v k) ∧ (linkGet t l).rxSeq = v.rxSeq ∧ (∀ k, k ≠ l → linkGet t k = linkGet s k) ∧
      t = { s with pl := t.pl }) ∧
    (v.up = true → flitGood f = true → flitKind f = 0 → v.out = [] → bit (leAt f 6 2) 15 = true → l < 4 →
      let left := v.replay.drop (((v.replay.findIdx? fun x => flitSeq x == leAt f 6 2 % 4096).map (· + 1)).getD 0)
      runsTo (.idleFlit l f) s fun t =>
        (linkGet t l).replay.length = left.length ∧ counted s t (rPL_L_REPLAY l) (b2n !left.isEmpty) ∧ t.mem = s.mem ∧ t.frames = s.frames) ∧
    (v.up = false ∨ (flitGood f = true ∧ (flitKind f = 0 ∨ next)) → runsTo (.flitCrcError l f) s fun t => t = s) ∧
    (v.up = true → flitGood f = true → flitKind f ≠ 0 → ¬next → runsTo (.flitCrcError l f) s fun t =>
      linkGet t l = { v with nak := true } ∧ (∀ k, k ≠ l → linkGet t k = linkGet s k) ∧ t = { s with pl := t.pl }) ∧
    (v.up = true → flitGood f = false → l < 4 → runsTo (.flitCrcError l f) s fun t =>
      linkGet t l = { v with nak := true } ∧ counted s t (rPL_L_CRC_ERR l) 1 ∧ cntUp s t (cLink l 2) 1 ∧ t.mem = s.mem ∧ t.frames = s.frames)

/-- R284, R282: PEER_LOST after 50 µs without a LIVE, and PEER_BACK after 1 s of gap-free LIVE, change the peer's liveness, advance its FPLY in every
partition and free its open forward-table entries; before that they do nothing. R281: FWD_EXPIRE frees an entry after 10 ms. R284: LIVE_SEND sends
the next LIVE on an up link. R272, R273: LINK_UP brings a link up from its start, MISWIRE where the neighbour is not the one expected. R269, R271: a lane
failure halves the lanes or takes the link down, a retraining begins after 8 replays and ends with the lanes that trained. -/
def Obligations.PeerLiveness : Prop :=
  (∀ (s : State) (d : Nat), d < 64 →
    let v := peerGet s d
    let advanced := fun (t : State) => ∀ p < 4, fplyGet t p d = (fplyGet s p d + 1) % 4096 ∧
      ∀ k < 16384, ∀ e, tget none s.pl.fwd (fwdKey p k) = some e → e.dev = d → tget none t.pl.fwd (fwdKey p k) = none
    (v.live = false ∨ s.gt < v.last + 50000 → runsTo (.peerLost d) s fun t => t = s) ∧
    (v.live = true → v.last + 50000 ≤ s.gt → runsTo (.peerLost d) s fun t => peerGet t d = { v with live := false } ∧ advanced t) ∧
    (v.heard = false ∨ v.live = true ∨ v.mismatch = true ∨ v.last + 50000 ≤ s.gt ∨ s.gt < v.stable + 1000000000 →
      runsTo (.peerBack d) s fun t => t = s) ∧
    (v.heard = true → v.live = false → v.mismatch = false → s.gt < v.last + 50000 → v.stable + 1000000000 ≤ s.gt →
      runsTo (.peerBack d) s fun t => peerGet t d = { v with live := true } ∧ advanced t)) ∧
  (∀ (s : State) (p k : Nat),
    ((∀ e, tget none s.pl.fwd (fwdKey p k) = some e → s.gt < e.since + 10000000) → runsTo (.fwdExpire p k) s fun t => t = s) ∧
    (∀ e, tget none s.pl.fwd (fwdKey p k) = some e → e.since + 10000000 ≤ s.gt → runsTo (.fwdExpire p k) s fun t =>
      tget none t.pl.fwd (fwdKey p k) = none ∧ counted s t rPL_FWD_EXPIRE 1 ∧ regsBut s t [rPL_FWD_EXPIRE] ∧ t = { s with pl := t.pl, regs := t.regs })) ∧
  (∀ s : State, (plEnabled s = false → runsTo .liveSend s fun t => t = s) ∧
    (plEnabled s = true → runsTo .liveSend s fun t => t.pl.liveSeq = (s.pl.liveSeq + 1) % 2 ^ 32 ∧ t.mem = s.mem ∧
      ∀ l < 4, (linkGet s l).up = true → (linkGet s l).retraining = false → (linkGet s l).out = [] → 1 ≤ credits (linkGet s l) (6 + b2n (wrapLink s l)) →
        (linkGet s l).replay.length < 512 → (linkGet t l).txSeq = ((linkGet s l).txSeq + 1) % 4096)) ∧
  (∀ (s : State) (l lanes nb : Nat),
    (plEnabled s = false ∨ 3 < l ∨ bit s.boot.noRef (4 + l) = true ∨ (linkGet s l).up = true ∨ lanes < 2 → runsTo (.linkUp l lanes nb) s fun t => t = s) ∧
    (plEnabled s = true → l ≤ 3 → bit s.boot.noRef (4 + l) = false → (linkGet s l).up = false → 2 ≤ lanes → runsTo (.linkUp l lanes nb) s fun t =>
      linkGet t l = { plink0 with up := true, lanes := laneMode lanes, neighbour := nb, miswire := topo s != 0 && expectId s l != nb } ∧
      (∀ k, k ≠ l → linkGet t k = linkGet s k) ∧ t.mem = s.mem)) ∧
  (∀ (s : State) (l lanes : Nat), l < 4 →
    let v := linkGet s l
    (v.up = false → (runsTo (.retrain l lanes) s fun t => t = s) ∧ runsTo (.plLaneFail l) s fun t => t = s) ∧
    (v.up = true → v.retraining = false →
      (replayCount s v < 8 → runsTo (.retrain l lanes) s fun t => t = s) ∧
      (8 ≤ replayCount s v → runsTo (.retrain l lanes) s fun t => linkGet t l = { v with retraining := true } ∧ counted s t (rPL_L_RETRAIN l) 1 ∧
        cntUp s t (cLink l 4) 1 ∧ t.mem = s.mem)) ∧
    (v.up = true → v.retraining = true →
      (min v.lanes (laneMode lanes) ≠ 0 → runsTo (.retrain l lanes) s fun t =>
        (linkGet t l).up = true ∧ (linkGet t l).retraining = false ∧ (linkGet t l).lanes = min v.lanes (laneMode lanes)) ∧
      (min v.lanes (laneMode lanes) = 0 → runsTo (.retrain l lanes) s fun t => (linkGet t l).up = false)) ∧
    (v.up = true → 2 < v.lanes → runsTo (.plLaneFail l) s fun t => linkGet t l = { v with lanes := v.lanes / 2 } ∧ t.mem = s.mem) ∧
    (v.up = true → v.lanes ≤ 2 → runsTo (.plLaneFail l) s fun t => (linkGet t l).up = false ∧ t.mem = s.mem))

/-- R312, R316, R318, R319, R322 to R324: ENGINE_HANG of an engine that does not hang does nothing; a first hang resets the engine, its entries go and every
ACTIVE context that held one restarts with its requests kept; a second one within 10 ms fails the site. PIPE_STEER takes the pipe out, has the
next pipe replay the frames of its ring and take the descriptors it held for others, and lets the partition's contexts go on without their requests;
PIPE_REPLAY_END ends the fault once all are replayed. TM_HANG, of an eligible queue on an up sub-port that has dequeued nothing for 1 ms, a pair without a good copy and a lost standby PLL start the partition's reset; TM_HANG in a
partition that is being taken over or steered escalates to that reset, in one whose reset is in progress to the chip reset; PAIR_MISMATCH with a copy to blame cuts it off, PLL_LOSS_OF_LOCK switches to the standby. An island processor
that is outvoted leaves the vote until ISLAND_RESYNC_END; a second disagreement halts the island, and ISLAND_WATCHDOG loses its commands and starts a chip
reset, or, while one is in progress, escalates to level 5. -/
def Obligations.FaultRecovery : Prop :=
  (∀ (s : State) (l e : Nat),
    let k := evenOf s l
    let site := tileSite s k
    let u := unitCode 1 (site * 8 + e)
    let soon := match tget none s.flt.hang u with | some g => decide (s.gt < g + 10000000) | none => false
    ((6 ≤ e ∨ (tileGet s k).site = none ∨ engineHung s k e = false) → runsTo (.engineHang l e) s fun t => t = s) ∧
    (e < 6 → (tileGet s k).site ≠ none → engineHung s k e = true →
      (soon = false → runsTo (.engineHang l e) s fun t =>
        faultCounted s t (r5holds s) ∧ counted s t rFLT_ENG_RESETS 1 ∧ tget none t.flt.hang u = some s.gt ∧ t.mem = s.mem ∧
        (∀ i x, tget none (tileGet t k).sb i = some x → x.engine ≠ e) ∧
        (∀ x ∈ sbUsed s k, x.2.engine = e → (ctxGet s x.2.ctx).state = 1 →
          (ctxGet t x.2.ctx).ply = ((ctxGet s x.2.ctx).ply + 1) % 4096 ∧ (ctxGet t x.2.ctx).pos = 0 ∧ (ctxGet t x.2.ctx).restart = some true ∧
          (ctxGet t x.2.ctx).bufs = (ctxGet s x.2.ctx).bufs) ∧
        (∀ c, (∀ x ∈ sbUsed s k, x.2.engine = e → x.2.ctx ≠ c) → ctxGet t c = ctxGet s c)) ∧
      (soon = true → site < 20 → partLevel s (site / 5) = none → (siteGet s site).fenced = false → (siteGet s site).role < 2 → runsTo (.engineHang l e) s fun t =>
        (siteGet t site).fenced = true ∧ (siteGet t site).role = 2))) ∧
  (∀ (s : State) (p : Nat),
    let q := (p + 1) % 4
    let alone := (List.range 4).all fun i => i == p || (pipeGet s i).out.isNone
    ((4 ≤ p ∨ (pipeGet s p).out ≠ none) → runsTo (.pipeSteer p) s fun t => t = s) ∧
    (p < 4 → (pipeGet s p).out = none → partLevel s p = none →
      (∀ h ∈ ringFrames s p, ∀ f, frameGet s h = some f → generalBad s p (ringAt s f.ring) 32 = none) → runsTo (.pipeSteer p) s fun t =>
      (pipeGet t p).out = some s.gt ∧ (pipeGet t p).dq = [] ∧ (pipeGet t p).replay = [] ∧
      (pipeGet t q).dq ++ (pipeGet t q).replay = (pipeGet s q).dq ++ (pipeGet s q).replay ++ ringFrames s p ++
        ((pipeGet s p).dq ++ (pipeGet s p).replay).filter (fun h => !(ringFrames s p).contains h) ∧
      ((pipeGet s q).dq.length ≤ 65536 → (pipeGet t q).dq.length ≤ 65536) ∧
      (∀ h ∈ ringFrames s p, ∀ f, frameGet s h = some f →
        frameGet t h = some { f with stage := .queued, headSlot := none, replayed := true, tables := none }) ∧
      (∀ i, i ≠ p → i ≠ q → pipeGet t i = pipeGet s i) ∧ counted s t rFLT_STEERS 1 ∧ faultCounted s t (alone && r5holds s) ∧
      t.faults.map (fun f => (f.cls, f.unit)) = s.faults.map (fun f => (f.cls, f.unit)) ++ [(8, unitCode 2 p)] ∧ t.mem = s.mem ∧
      (∀ c, tilePart s (c / 1024) = p → (ctxGet s c).state = 1 → (ctxGet s c).bufs ≠ [] →
        (ctxGet t c).ply = ((ctxGet s c).ply + 1) % 4096 ∧ (ctxGet t c).bufs = []) ∧
      (∀ c, tilePart s (c / 1024) ≠ p → ctxGet t c = ctxGet s c)) ∧
    ((pipeGet s p).out = none ∨ replaying s p = true → runsTo (.pipeReplayEnd p) s fun t => t = s) ∧
    (∀ f, (pipeGet s p).out ≠ none → replaying s p = false → faultOpen s 8 (unitCode 2 p) f → runsTo (.pipeReplayEnd p) s fun t =>
      t.faults = s.faults.erase f ∧ t.pipes = s.pipes ∧ t = { s with faults := t.faults, latches := t.latches, rq := t.rq, regs := t.regs })) ∧
  (∀ (s : State) (p : Nat),
    let starts := fun (t : State) => faultCounted s t false ∧ partResetStarts s t p
    (4 ≤ p → runsTo (.pllLossOfLock p) s fun t => t = s) ∧ (tmHung s p = false → runsTo (.tmHang p) s fun t => t = s) ∧
    (tmHung s p = true → partLevel s p = none → resetCovers s p = false → runsTo (.tmHang p) s starts) ∧
    (tmHung s p = true → partLevel s p = some 3 → resetCovers s p = false → runsTo (.tmHang p) s fun t => starts t ∧ counted s t rFLT_ESCALATIONS 1) ∧
    (tmHung s p = true → partLevel s p = some 4 → chipCaptured s = false → runsTo (.tmHang p) s fun t => chipResetStarts s t) ∧
    (p < 4 → bit s.flt.pllOut p = true → partLevel s p = none → resetCovers s p = false → runsTo (.pllLossOfLock p) s starts) ∧
    (p < 4 → bit s.flt.pllOut p = false → faultFree s 11 (unitCode 8 p) → runsTo (.pllLossOfLock p) s fun t =>
      t.flt.pllOut = s.flt.pllOut + 2 ^ p ∧ tget 0 t.flt.pllSwap p = s.time.up + 100 ∧ faultCounted s t (r5holds s) ∧ epochMoved s t 4 ∧ t.faults = s.faults ∧ t.mem = s.mem ∧ t.ctxs = s.ctxs) ∧
    (∀ b copy, (4 ≤ p ∨ 2 ≤ b) → runsTo (.pairMismatch p b copy) s fun t => t = s) ∧
    (∀ b copy, p < 4 → b < 2 → (copy = none ∨ tget 0 s.flt.pairCut (2 * p + b) ≠ 0) → partLevel s p = none → resetCovers s p = false →
      runsTo (.pairMismatch p b copy) s starts) ∧
    (∀ b k, p < 4 → b < 2 → tget 0 s.flt.pairCut (2 * p + b) = 0 → faultFree s 9 (unitCode 3 (2 * p + b)) →
      runsTo (.pairMismatch p b (some k)) s fun t =>
        tget 0 t.flt.pairCut (2 * p + b) = 2 ^ (k % 2) ∧ faultCounted s t (r5holds s) ∧ t.faults = s.faults ∧ t.mem = s.mem ∧ t.ctxs = s.ctxs)) ∧
  (∀ (s : State) (k : Nat),
    (s.flt.islHalted = true → runsTo (.islandVoteDisagree k) s fun t => t = s) ∧
    (s.flt.islHalted = false → s.flt.islOut = none → runsTo (.islandVoteDisagree k) s fun t =>
      t.flt = { s.flt with islOut := some (k % 3) } ∧ faultCounted s t (r5holds s) ∧ t.faults.length = s.faults.length + 1 ∧
      t = { s with flt := t.flt, faults := t.faults, latches := t.latches, rq := t.rq, regs := t.regs }) ∧
    (s.flt.islHalted = false → s.flt.islOut ≠ none → runsTo (.islandVoteDisagree k) s fun t =>
      t.flt = { s.flt with islHalted := true } ∧ faultCounted s t false ∧ faultN t = true) ∧
    ((s.flt.islHalted = true ∨ s.flt.islOut = none) → runsTo .islandResyncEnd s fun t => t = s) ∧
    (∀ f, s.flt.islHalted = false → s.flt.islOut ≠ none → faultOpen s 12 (unitCode 9 0) f → runsTo .islandResyncEnd s fun t =>
      t.flt = { s.flt with islOut := none } ∧ t.faults = s.faults.erase f) ∧
    (s.flt.islHalted = false → runsTo .islandWatchdog s fun t => t = s) ∧
    (s.flt.islHalted = true → chipCaptured s = false → runsTo .islandWatchdog s fun t =>
      t.flt.islHalted = false ∧ t.mbox.queue = [] ∧ t.sessions = [] ∧ t.wv.pending = none ∧ chipResetStarts s t) ∧
    (s.flt.islHalted = true → chipCaptured s = true → runsTo .islandWatchdog s fun t =>
      t.flt.islHalted = false ∧ t.mbox.queue = [] ∧ t.boot.stage = stFailed ∧ t.boot.f = s.boot.f + 1 ∧ t.flt.resetReq = true ∧
      counted s t rFLT_ESCALATIONS 1))

/-- R16 to R18, R320, R331: SITE_FAIL of a site in service fences it, marks it in the repair map, counts the replies dropped and advances the epoch with
cause 4. A spare takes its logical tile: every ACTIVE context there restarts once its region is restored, its requests kept. Without a spare the tile has
no site; with no surviving tile every ACTIVE context there faults with ENGINE. A failure while the partition is being taken over or steered escalates to the
partition's reset, while that reset is in progress to the chip reset. A site out of service does not fail again. REGION_RESTORE_END restores the regions in their order: the context goes on, or faults with
ENGINE when the copy of its active slot is unreadable. -/
def Obligations.SiteTakeover : Prop :=
  (∀ (s : State) (n : Nat) (cube : Option Nat) (drops : Nat),
    let v := siteGet s n
    let p := n / 5
    let l := evenOf s v.lt
    let spare := if unguarded s then none else ((List.range 5).map fun i => 5 * p + i).find? fun k => (siteGet s k).role == 1 && k != n
    let out := fun (t : State) => (siteGet t n).fenced = true ∧ (siteGet t n).role = 2 ∧ (siteGet t n).lt = 31 ∧ epochMoved s t 4 ∧
      counted s t rFLT_FENCE_DROP drops
    ((20 ≤ n ∨ v.fenced = true ∨ 2 ≤ v.role) → runsTo (.siteFail n cube drops) s fun t => t = s) ∧
    (n < 20 → v.fenced = false → v.role < 2 →
      (20 ≤ v.lt → faultFree s 2 (unitCode 0 n) → runsTo (.siteFail n cube drops) s fun t =>
        out t ∧ (∀ k, k ≠ n → siteGet t k = siteGet s k) ∧ t.faults = s.faults ∧ t.ctxs = s.ctxs ∧ t.tiles = s.tiles ∧ t.mem = s.mem) ∧
      (∀ k, v.lt < 20 → partLevel s p = none → spare = some k → runsTo (.siteFail n cube drops) s fun t =>
        out t ∧ faultCounted s t (r5holds s) ∧ counted s t rFLT_TAKEOVERS 1 ∧ (siteGet t k).role = 0 ∧ (siteGet t k).lt = v.lt ∧
        (tileGet t v.lt).site = some k ∧ (∀ i, i ≠ n → i ≠ k → siteGet t i = siteGet s i) ∧ t.mem = s.mem ∧
        (∀ c ∈ holders s l, (ctxGet s c).state = 1 → (ctxGet t c).restoring = true ∧ (ctxGet t c).ply = ((ctxGet s c).ply + 1) % 4096 ∧
          (ctxGet t c).bufs = (ctxGet s c).bufs) ∧
        ∀ c, c ∉ holders s l → ctxGet t c = ctxGet s c) ∧
      (v.lt < 20 → partLevel s p = none → spare = none → runsTo (.siteFail n cube drops) s fun t =>
        out t ∧ faultCounted s t false ∧ counted s t rFLT_TAKEOVERS 1 ∧ (tileGet t v.lt).site = none ∧ (∀ i, i ≠ n → siteGet t i = siteGet s i) ∧
        ((∀ k, tilePart s k = p → k ≠ v.lt → (tileGet s k).site = none) →
          ∀ c ∈ holders s l, (ctxGet s c).state = 1 → faultsWith t c 8)) ∧
      (v.lt < 20 → partLevel s p = some 4 → chipCaptured s = false → runsTo (.siteFail n cube drops) s fun t => chipResetStarts s t) ∧
      (v.lt < 20 → partLevel s p = some 3 → resetCovers s p = false → runsTo (.siteFail n cube drops) s fun t =>
        epochMoved s t 4 ∧ faultCounted s t false ∧ counted s t rFLT_ESCALATIONS 1 ∧
        (spare ≠ none → partResetStarts s t p)))) ∧
  (∀ (s : State) (c : Nat),
    let l := c / 1024
    let x := ctxGet s c
    ((tget [] s.flt.restore l).head? ≠ some c → runsTo (.regionRestoreEnd c) s fun t => t = s) ∧
    (∀ rest, tget [] s.flt.restore l = c :: rest →
      let u : State := { s with flt := { s.flt with restore := tset [] s.flt.restore l rest } }
      let w := if slotHolds s c 0 then (refill u c 0).getD u else u
      let lost := (slotHolds s c 0 && x.active == 0 && (refill u c 0).isNone) || (slotHolds s c 1 && x.active == 1 && (refill w c 1).isNone)
      (lost = false → runsTo (.regionRestoreEnd c) s fun t =>
        tget [] t.flt.restore l = rest ∧ (ctxGet t c).restoring = false ∧ (sbHeld s c = 0 → (ctxGet t c).restart = none) ∧ ctxsBut s t c) ∧
      (lost = true → x.state = 1 → runsTo (.regionRestoreEnd c) s fun t =>
        tget [] t.flt.restore l = rest ∧ faultsWith t c 8 ∧ ctxsBut s t c) ∧
      (rest = [] → (∀ e ∈ tset [] s.flt.restore l [], tilePart s e.1 = tilePart s l → e.2 = []) → runsTo (.regionRestoreEnd c) s fun t =>
        bit t.flt.takeover (tilePart s l) = false)))

/-- R315: ESCALATION_TIMEOUT of an engine reset that is not acknowledged in time starts its partition's reset, of a partition reset the chip reset, of a chip
reset the failure of the start; a reset that covers its own does not start again, and no other level escalates. R319, R328, R329, R332: ENGINE_RESET, PART_RESET, CHIP_RESET and CAPTURE answer RESULT 0 and act, RESULT 1 while a reset
that covers them runs, RESULT 5 for an engine or site that does not exist. CAPTURE_END writes the capture with its sections to its slot, counts it, tells
the Sampler, and lets the reset that it precedes run; an unknown number does nothing. -/
def Obligations.ResetsAndCaptures : Prop :=
  (∀ (s : State) (u : Nat),
    let late := s.faults.find? fun f => f.unit == unitCode 1 u && f.action == 8 && !f.told && decide (s.gt ≥ f.detect + 50000)
    (late = none → runsTo (.escalationTimeout 2 u) s fun t => t = s) ∧
    (∀ f, late = some f → resetCovers s f.part = false → runsTo (.escalationTimeout 2 u) s fun t =>
      counted s t rFLT_ESCALATIONS 1 ∧ partResetStarts s t f.part) ∧
    (∀ f, late = some f → resetCovers s f.part = true → runsTo (.escalationTimeout 2 u) s fun t =>
      counted s t rFLT_ESCALATIONS 1 ∧ t.flt = s.flt ∧ t.mem = s.mem) ∧
    (∀ n, n < 2 ∨ 4 < n → runsTo (.escalationTimeout n u) s fun t => t = s) ∧
    (chipCaptured s = true → runsTo (.escalationTimeout 3 u) s fun t => counted s t rFLT_ESCALATIONS 1 ∧ t.flt = s.flt ∧ t.mem = s.mem) ∧
    (chipCaptured s = false → runsTo (.escalationTimeout 3 u) s fun t => chipResetStarts s t) ∧
    (runsTo (.escalationTimeout 4 u) s fun t =>
      t.boot.stage = 0x13 ∧ t.boot.f = s.boot.f + 1 ∧ t.flt.resetReq = true ∧ faultN t = true ∧ counted s t rFLT_ESCALATIONS 1 ∧ t.mem = s.mem)) ∧
  (∀ (s : State) (site engine : Nat),
    let n := site % 32
    let e := engine % 8
    let l := evenOf s (siteGet s n).lt
    let ends := fun (t : State) (r : Nat) => rgf t rFLT_CMD_STATUS 30 28 = r
    let only := fun (t : State) (r : Nat) => ends t r ∧ regsBut s t [rFLT_CMD_STATUS] ∧ t = { s with regs := t.regs }
    ((6 ≤ e ∨ 20 ≤ n) → runsTo (.engineReset site engine) s fun t => only t 5) ∧
    (e < 6 → n < 20 → resetCovers s (n / 5) = true → runsTo (.engineReset site engine) s fun t => only t 1) ∧
    (e < 6 → n < 20 → resetCovers s (n / 5) = false → 20 ≤ (siteGet s n).lt → runsTo (.engineReset site engine) s fun t => only t 0) ∧
    (e < 6 → n < 20 → resetCovers s (n / 5) = false → (siteGet s n).lt < 20 → runsTo (.engineReset site engine) s fun t =>
      ends t 0 ∧ counted s t rFLT_ENG_RESETS 1 ∧ regsBut s t [rFLT_CMD_STATUS, rFLT_ENG_RESETS] ∧ t.mem = s.mem ∧ t.faults = s.faults ∧
      (∀ i x, tget none (tileGet t l).sb i = some x → x.engine ≠ e) ∧
      (∀ x ∈ sbUsed s l, x.2.engine = e → (ctxGet s x.2.ctx).state = 1 →
        (ctxGet t x.2.ctx).restart = some true ∧ (ctxGet t x.2.ctx).pos = 0 ∧ (ctxGet t x.2.ctx).bufs = (ctxGet s x.2.ctx).bufs) ∧
      (∀ c, (∀ x ∈ sbUsed s l, x.2.engine = e → x.2.ctx ≠ c) → ctxGet t c = ctxGet s c)) ∧
    (∀ p, let q := p % 4
      ((resetCovers s q = true ∨ starting s = true) → runsTo (.partReset p) s fun t => only t 1) ∧
      (resetCovers s q = false → starting s = false → runsTo (.partReset p) s fun t => ends t 0 ∧ partResetStarts s t q) ∧
      (∀ chip, resetCovers s q = true → runsTo (.capture p chip) s fun t => only t 1) ∧
      (∀ chip, resetCovers s q = false → runsTo (.capture p chip) s fun t =>
        ends t 0 ∧ (∃ c, t.flt.caps = s.flt.caps ++ [c] ∧ c.scope = 2 ∧ c.part = (if chip then 0xFF else q) ∧ c.num = s.flt.capNo + 1 ∧ c.since = s.gt) ∧
        regsBut s t [rFLT_CMD_STATUS] ∧ t = { s with flt := t.flt, regs := t.regs })) ∧
    ((chipCaptured s = true ∨ starting s = true) → runsTo .chipReset s fun t => only t 1) ∧
    (chipCaptured s = false → starting s = false → runsTo .chipReset s fun t => ends t 0 ∧ chipResetStarts s t)) ∧
  (∀ (s : State) (num k : Nat),
    let c? := s.flt.caps.find? fun c => c.num == num
    (c? = none → runsTo (.captureEnd num k) s fun t => t = s) ∧
    (∀ c, c? = some c →
      let b := (capBytes s c (clampN 1 5 k)).take (2 ^ 26)
      (2 ≤ c.scope → runsTo (.captureEnd num k) s fun t =>
        t.flt.caps = s.flt.caps.erase c ∧ counted s t rFLT_CAPTURES 1 ∧ t.smpIn = s.smpIn ++ [(0x21, (capBytes s c (clampN 1 5 k)).take 64)] ∧
        (c.addr = 0 → t.mem = s.mem) ∧
        (c.addr ≠ 0 → memWBad s c.addr b.length = none → memR t c.addr b.length = b ∧ memBut s t c.addr b.length ∧ t.flash.capWait.getLast? = some (num, c.addr, b.length)) ∧ t.ctxs = s.ctxs) ∧
      (c.scope = 0 → runsTo (.captureEnd num k) s fun t =>
        t.flt.caps = s.flt.caps.erase c ∧ counted s t rFLT_CAPTURES 1 ∧ counted s t rFLT_PART_RESETS 1) ∧
      (c.scope = 1 → runsTo (.captureEnd num k) s fun t =>
        t.flt.caps = [] ∧ counted s t rFLT_CHIP_RESETS 1 ∧ t.boot.warm = true ∧ t.boot.stage = if s.boot.f ≥ 3 then 0x11 else 5)))

/-- R291 to R297, R300, R302: at a WINDOW_BOUNDARY the live power registers take effect, B is the lowest of the grade limit, the host cap and the pin cap,
each partition's bucket takes its grant and is capped at twice its share, or at its share when B fell, and its throttle step moves by the four triggers;
windows with demand, windows without tile budget and rising steps are counted. STEP_GLIDE_END, PWR_LIMIT_CHANGE, PWR_CAP_WRITE, DROOP and STRETCH_END
change one thing each; STRETCH_END does nothing before the stretch has lasted 16 cycles (R304). R305, R307: SENSOR_SAMPLE stores every reading, marks a sensor failed for good that is out of range or apart from all the others in
service, gives each group and partition its temperature, and trips on the second sample in a row at a trip threshold. R308: PWR_FAIL_ASSERT stops grants,
moves every partition to step 7 and flushes the Sampler; PWR_FAIL_DEASSERT ends that. -/
def Obligations.PowerControl : Prop :=
  (∀ (s : State) (pOther : Nat) (eMeas : List Nat),
    let limit := gradeLimit s
    let b := min limit (min (hostCap s (rg s rPWR_CAP)) (pinCap s s.pwr.pins))
    let tiles : Int := 10 * (b : Int) - pOther - 10 * ((rg s rPWR_GUARD) % 128 : Nat)
    let weight := fun p => max 1 (bits (rg s rPWR_WEIGHT) (8 * p + 7) (8 * p))
    let pack := pOther + ((List.range 4).map fun p => eMeas.getD p 0).sum / 1000
    let soft : Int := (clampN 85 104 (bits (rg s rPWR_THERM) 7 0) : Nat)
    let softT : Int := (clampN 90 104 (bits (rg s rPWR_THERM) 15 8) : Nat)
    let hot := fun p => (pwrGet s p).tj > soft ∨ (pwrGet s p).tier > softT ∨ ((pack :: s.pwr.history).take 100).sum > 1000 * b ∨
      (pwrGet s p).stretches > rg s rPWR_DROOP % 65536
    let calm := fun p => ¬hot p ∧ (pwrGet s p).tj ≤ soft - 2 ∧ (pwrGet s p).tier ≤ softT - 2
    let rises := fun p => hot p ∧ (pwrGet s p).step < 7 ∧ ∀ g, (pwrGet s p).upAt = some g → g + 100000 ≤ s.gt
    let falls := fun p => calm p ∧ 0 < (pwrGet s p).step ∧ (pwrGet s p).calmAt + 1000000 ≤ s.gt ∧ s.pwr.fail = false
    runsTo (.windowBoundary pOther eMeas) s fun t =>
      t.pwr.budget = b ∧ t.pwr.history = (pack :: s.pwr.history).take 100 ∧ (∀ a ∈ pwrLive, pwrEff t a = rg s a) ∧
      rg t rPWR_POWER = min pack 65535 ∧ rg t rPWR_OTHER = min pOther 65535 ∧ counted s t rPWR_DEMAND (b2n (s.pwr.demanded || !(pwrDemands s).isEmpty)) ∧ t.pwr.demanded = false ∧
      counted s t rPWR_CAP_UNMET (b2n (decide (tiles ≤ 0))) ∧
      (∀ p, p < 4 →
        let v := pwrGet s p
        let share := if pipeIn s p then tiles.toNat * 1000 * weight p / max 1 ((List.range 4).map fun q => if pipeIn s q then weight q else 0).sum else 0
        let grant := if s.pwr.fail || !pipeIn s p then 0 else share - (eMeas.getD p 0 - v.spent)
        let x : Int := min (v.bucket + grant) (2 * share : Nat)
        (pwrGet t p).grant = grant ∧ (pwrGet t p).share = share ∧ (pwrGet t p).spent = 0 ∧
        (pwrGet t p).bucket = (if b < s.pwr.budget then min x share else x) ∧
        (rises p → (pwrGet t p).step = v.step + 1 ∧ (pwrGet t p).upAt = some s.gt) ∧ (falls p → (pwrGet t p).step = v.step - 1) ∧
        (¬rises p → ¬falls p → (pwrGet t p).step = v.step) ∧ (pwrGet t p).stretches = 0) ∧
      t = { s with pwr := t.pwr, vds := t.vds, obs := t.obs, regs := t.regs, rq := t.rq }) ∧
  (∀ (s : State) (p v : Nat),
    let put := fun (x : PwrPart) (t : State) => pwrGet t p = x ∧ (∀ q, q ≠ p → pwrGet t q = pwrGet s q)
    (4 ≤ p → ∀ i ∈ [Instr.stepGlideEnd p, .droop p, .stretchEnd p], runsTo i s fun t => t = s) ∧
    (stretchLong s p = false → runsTo (.stretchEnd p) s fun t => t = s) ∧
    (p < 4 → (runsTo (.stepGlideEnd p) s fun t => put { (pwrGet s p) with gliding := false } t ∧ t = { s with pwr := t.pwr }) ∧
      (stretchLong s p = true → runsTo (.stretchEnd p) s fun t => put { (pwrGet s p) with stretching := false } t ∧ t = { s with pwr := t.pwr }) ∧
      ((pwrGet s p).stretching = true → runsTo (.droop p) s fun t => t = s) ∧
      ((pwrGet s p).stretching = false → runsTo (.droop p) s fun t =>
        put { (pwrGet s p) with stretching := true, stretchAt := s.time.up, stretches := (pwrGet s p).stretches + 1, stretchAll := (pwrGet s p).stretchAll + 1 } t ∧
        counted s t rPWR_STRETCH 1 ∧ regsBut s t [rPWR_STRETCH] ∧ t = { s with pwr := t.pwr, regs := t.regs })) ∧
    (runsTo (.pwrLimitChange v) s fun t => t = { s with pwr := { s.pwr with pins := v % 8 } }) ∧
    (runsTo (.pwrCapWrite v) s fun t => rg t rPWR_CAP = v % 1024 ∧ regsBut s t [rPWR_CAP] ∧ t = { s with regs := t.regs })) ∧
  (∀ (s : State) (die tier : List Int),
    let far := fun (first n i : Nat) (r : Nat → Int) =>
      let others := (List.range n).filter fun j => j != i && !(sensorGet s (first + j)).2
      decide (r i < -40 ∨ r i > 150) || (!others.isEmpty && others.all fun j => decide (r i - r j > 15 ∨ r j - r i > 15))
    runsTo (.sensorSample die tier) s fun t =>
      (∀ k i, k < 20 → i < 4 → sensorGet t (4 * k + i) =
        (die.getD (4 * k + i) 0, (sensorGet s (4 * k + i)).2 || far (4 * k) 4 i fun j => die.getD (4 * k + j) 0)) ∧
      (∀ g i, g < 64 → i < 2 → sensorGet t (80 + 2 * g + i) =
        (tier.getD (2 * g + i) 0, (sensorGet s (80 + 2 * g + i)).2 || far (80 + 2 * g) 2 i fun j => tier.getD (2 * g + j) 0)) ∧
      (∀ g, g < 64 → let h := (groupGet t g).temp
        h = sensorsRead t (80 + 2 * g) 2 ∧ (groupGet t g).hot = hyst (groupGet s g).hot h (thHot s) ∧
        (groupGet t g).crit = hyst (groupGet s g).crit h (thCrit s) ∧
        (groupGet t g).r2x = (if (groupGet s g).r2x then decide (h ≥ 83) else decide (h > 85)) ∧
        tget 0 t.pwr.trips (16 + g) = if h ≥ 110 then tget 0 s.pwr.trips (16 + g) + 1 else 0) ∧
      (∀ p, p < 4 → (pwrGet t p).tj = hottest ((List.range 5).map fun i => sensorsRead t (20 * p + 4 * i) 4) ∧
        (pwrGet t p).tier = hottest ((List.range 16).map fun i => (groupGet t (16 * p + i)).temp) ∧
        tget 0 t.pwr.trips p = if (pwrGet t p).tj ≥ 112 then tget 0 s.pwr.trips p + 1 else 0) ∧
      (t.pwr.tripped = true ↔ s.pwr.tripped = true ∨ (∃ p, p < 4 ∧ 2 ≤ tget 0 t.pwr.trips p) ∨ ∃ g, g < 64 ∧ 2 ≤ tget 0 t.pwr.trips (16 + g)) ∧
      (t.pwr.tripped = false → t.frames = s.frames) ∧ t.mem = s.mem ∧ t.ctxs = s.ctxs) ∧
  (∀ s : State,
    (s.pwr.fail = true → runsTo .pwrFailAssert s fun t => t = s) ∧
    (s.pwr.fail = false → runsTo .pwrFailAssert s fun t => t.pwr.fail = true ∧ ∀ p, p < 4 → 7 ≤ (pwrGet t p).step) ∧
    (s.pwr.fail = false → s.flt.caps = [] → runsTo .pwrFailAssert s fun t =>
      counted s t rPWR_STEP_UP ((List.range 4).filter fun p => decide ((pwrGet s p).step < 7)).length ∧ t.mem = s.mem ∧ t.ctxs = s.ctxs ∧ s.smp.next ≤ t.smp.next) ∧
    (runsTo .pwrFailDeassert s fun t => t = { s with pwr := { s.pwr with fail := false } }))

/-- R312, R455: SRAM_PATROL_SCRUB counts a fault for each corrected and each uncorrectable codeword of the site that it finds and leaves memory as it is.
R452, R372: LP_PATROL_SCRUB counts corrections, and each uncorrectable unit in its range, which it leaves unless the unit lies in the counter sample ring or
the trace region. LP_PERIODIC_RETRAIN counts for a channel in service. R327: LP_CHANNEL_RETIRE takes the channel out of service once, recomputes the
capacity, advances the epoch with cause 6, restarts the rings, writes nothing outside LPDDR5X and nothing there but for slots with retained copies, and
faults every ACTIVE context that lost storage with ENGINE. -/
def Obligations.MemoryUpkeep : Prop :=
  (∀ (s : State) (site : Nat) (ces : List Nat),
    let mine := fun (a : Nat) => decide (sramBase site ≤ a ∧ a < sramBase site + 20971520)
    let bad := s.bad.filter fun e => mine e.1
    (20 ≤ site → runsTo (.sramPatrolScrub site ces) s fun t => t = s) ∧
    (site < 20 → faultFree s 3 (unitCode 0 site) → runsTo (.sramPatrolScrub site ces) s fun t =>
      counted s t rFLT_MASKED (if r5holds s then (ces.filter mine).length else 0) ∧
      counted s t rFLT_UNMASKED (bad.length + if r5holds s then 0 else (ces.filter mine).length) ∧
      t.faults = s.faults ∧ (bad ≠ [] → rgb t rFLT_STATUS 31 = true) ∧
      t = { s with faults := t.faults, latches := t.latches, rq := t.rq, regs := t.regs })) ∧
  (∀ (s : State) (first last : Nat) (ces : List Nat),
    let mine := fun (a : Nat) => decide (lpBase + first ≤ a ∧ a < lpBase + last)
    let ring := fun (a : Nat) => [9, 10].any fun r => decide (lpBase + (lpRegion s r).1 ≤ a ∧ a < lpBase + (lpRegion s r).1 + (lpRegion s r).2)
    let bad := s.bad.filter fun e => mine e.1
    runsTo (.lpPatrolScrub first last ces) s fun t =>
      counted s t rLP_CE (ces.filter mine).length ∧ counted s t rLP_UE bad.length ∧
      ((∀ e ∈ bad, ring e.1 = false) → t.mem = s.mem ∧ t.bad = s.bad ∧ regsBut s t [rLP_CE, rLP_UE] ∧
        t = { s with regs := t.regs, obs := t.obs, lp := t.lp }) ∧
      ((∀ f ∈ s.bad, cwOf f.1 = f.1) → ∀ e ∈ bad, ring e.1 = true → memR t e.1 64 = List.replicate 64 0 ∧ ∀ f ∈ t.bad, f.1 ≠ e.1) ∧ t.ctxs = s.ctxs) ∧
  (∀ (s : State) (c : Nat),
    let gone := decide (16 ≤ c) || rgb s rLP_STATUS (16 + c)
    (gone = true → ∀ i ∈ [Instr.lpPeriodicRetrain c, .lpChannelRetire c], runsTo i s fun t => t = s) ∧
    (gone = false → runsTo (.lpPeriodicRetrain c) s fun t => counted s t rLP_RETRAIN 1 ∧ regsBut s t [rLP_RETRAIN] ∧ t = { s with regs := t.regs }) ∧
    (gone = false → runsTo (.lpChannelRetire c) s fun t =>
      rgb t rLP_STATUS (16 + c) = true ∧ lpChans t = (lpChans s).erase c ∧ epochMoved s t 6 ∧ faultCounted s t false ∧
      rgf t rGLB_CONFIG 8 0 = lpFitted (rgf s rLP_STATUS 13 12) * ((lpChans s).length - 1) / 16 ∧ t.obs.trWr = 0 ∧ (∀ p, p < 4 → rg t (rTM_SRING_WR p) = 0) ∧
      (∀ e ∈ s.ctxs, (ctxGet s e.1).state = 1 → e.2 = ctxGet s e.1 → lpLoses s (mslotGet s e.1 e.2.active) = true → faultsWith t e.1 8) ∧
      (∀ d, (ctxGet s d).state ≠ 1 ∨ lpLoses s (mslotGet s d (ctxGet s d).active) = false → (∀ e ∈ s.ctxs, e.1 = d → e.2 = ctxGet s d) → ctxGet t d = ctxGet s d) ∧
      (∀ x, x < lpBase → tget 0 t.mem x = tget 0 s.mem x) ∧ ((∀ e ∈ s.slots, (mslotGet s (e.1 / 2) (e.1 % 2)).copyLen = 0) → t.mem = s.mem)))

/-- R388, R417: a weave command runs when it is the mailbox's next one and ends with one completion word; a malformed one ends with BAD_CMD and changes
nothing. WSTORE puts an image that passes into the weave slot not in use, and starts a chip reset when RESET is set; WPATCH of an image that passes is
pending until its APPLY_AT; WQUERY ends; WCANCEL before APPLY_AT discards the pending patch and both commands end. R387: PATCH_SWITCH before APPLY_AT does
nothing; at APPLY_AT every patched value is in force, the ring digest is formed again and the WPATCH ends, with STATE when it was late; without a REG
section the epoch advances once, with cause 2, and a profile map section gives each class its profile. R383: DIGEST_GRACE_END drops the previous digest
after tDIGEST_GRACE. -/
def Obligations.WeaveCommands : Prop :=
  (∀ (s : State) (fb : Bool),
    let ends := fun (b : Bytes) (t : State) (st : Nat) => t.mbox.queue = s.mbox.queue.tail ∧ t.mbox.done = s.mbox.done ++ [doneWord b st]
    let frame := fun (t : State) => t = { s with mbox := t.mbox, rq := t.rq, regs := t.regs }
    let read := fun (t : State) => t = { s with mbox := t.mbox, rq := t.rq, regs := t.regs, obs := t.obs }
    (∀ i ∈ [(9, Instr.wstore fb), (10, .wpatch fb), (11, .wquery), (12, .wcancel)],
      (mboxHead s = none → runsTo i.2 s fun t => t = s) ∧
      (∀ b, mboxHead s = some b →
        (byteAt b 0 ≠ i.1 → runsTo i.2 s fun t => t = s) ∧
        (byteAt b 0 = i.1 → weaveForm s b = false → runsTo i.2 s fun t => ends b t 8 ∧ frame t) ∧
        (byteAt b 0 = i.1 → i.1 ≤ 10 → weaveArgs s b = false → runsTo i.2 s fun t => ends b t 8 ∧ frame t))) ∧
    (∀ b, mboxHead s = some b → weaveForm s b = true →
      (byteAt b 0 = 11 → runsTo .wquery s fun t => ends b t 0 ∧ frame t) ∧
      (byteAt b 0 = 12 →
        ((∀ p, s.wv.pending = some p → p.at_ ≤ s.gt) → runsTo .wcancel s fun t => ends b t 7 ∧ frame t) ∧
        (∀ p, s.wv.pending = some p → s.gt < p.at_ → runsTo .wcancel s fun t =>
          t.wv = { s.wv with pending := none } ∧ t.mbox.done = s.mbox.done ++ [doneWord p.block 0, doneWord b 0] ∧
          t = { s with mbox := t.mbox, wv := t.wv, rq := t.rq, regs := t.regs })) ∧
      (byteAt b 0 = 9 → weaveArgs s b = true →
        (weaveFetch s b fb = none → runsTo (.wstore fb) s fun t => ends b t 6 ∧ frame t) ∧
        (∀ img, weaveFetch s b fb = some img →
          (∀ st, weaveCheck s img 0 = some st → runsTo (.wstore fb) s fun t => ends b t st ∧ read t) ∧
          (weaveCheck s img 0 = none → (flsMounted s = false ∨ s.pwr.fail = true) → runsTo (.wstore fb) s fun t => ends b t 9 ∧ read t) ∧
          (weaveCheck s img 0 = none → flsMounted s = true → s.pwr.fail = false → (∀ e ∈ weaveSlots s, e.2.1 + 1 < 2 ^ 64) →
            runsTo (.wstore fb) s fun t =>
            (∃ q, weaveGet t (storeSlot s) = some (q, img) ∧ ∀ e ∈ weaveSlots s, e.2.1 < q) ∧
            (∀ k, k ≠ storeSlot s → weaveGet t k = weaveGet s k) ∧
            (bit (byteAt b 1) 0 = false → ends b t 0 ∧ t = { s with mbox := t.mbox, rq := t.rq, regs := t.regs, flash := t.flash, obs := t.obs, life := t.life }) ∧
            (bit (byteAt b 1) 0 = true → chipCaptured s = false → chipResetStarts s t)))) ∧
      (byteAt b 0 = 10 → weaveArgs s b = true →
        (s.wv.pending ≠ none → runsTo (.wpatch fb) s fun t => ends b t 7 ∧ frame t) ∧
        (s.wv.pending = none → weaveFetch s b fb = none → runsTo (.wpatch fb) s fun t => ends b t 6 ∧ frame t) ∧
        (∀ img st, s.wv.pending = none → weaveFetch s b fb = some img → weaveCheck s img 1 = some st → runsTo (.wpatch fb) s fun t => ends b t st ∧ read t) ∧
        (∀ img, s.wv.pending = none → weaveFetch s b fb = some img → weaveCheck s img 1 = none → runsTo (.wpatch fb) s fun t =>
          t.wv = { s.wv with pending := some ⟨b, img, leAt b 24 8, decide (leAt b 24 8 ≠ 0 ∧ leAt b 24 8 ≤ s.gt)⟩ } ∧
          t.mbox.queue = s.mbox.queue.tail ∧ t.mbox.done = s.mbox.done ∧ t = { s with mbox := t.mbox, wv := t.wv, rq := t.rq, regs := t.regs, obs := t.obs })))) ∧
  (∀ s : State,
    ((∀ p, s.wv.pending = some p → s.gt < p.at_) → runsTo .patchSwitch s fun t => t = s) ∧
    (∀ p, s.wv.pending = some p → p.at_ ≤ s.gt →
      let r := (patchRun (epochAdvance { s with wv := { s.wv with pending := none } } 2) p.image).st
      runsTo .patchSwitch s fun t =>
        t.weave = r.weave ∧ t.vds = r.vds ∧ t.wv.ring = ringDigest t ∧ t.mbox.done = r.mbox.done ++ [doneWord p.block (if p.late then 7 else 0)] ∧
        ((∀ x ∈ wsects p.image, x.type ≠ 10) → epochMoved s t 2 ∧ t.wv.pending = none ∧
          t = { s with wv := t.wv, weave := t.weave, vds := t.vds, mbox := t.mbox, rq := t.rq, regs := t.regs, epochAt := t.epochAt, epochCause := t.epochCause }) ∧
        (∀ x, wsects p.image = [x] → x.type = 11 → s.wv.live.contains 11 = true → x.first + x.size ≤ 256 → x.off + x.size ≤ p.image.length →
          (∀ k < x.size, byteAt p.image (x.off + k) < 64) → ∀ k < x.size,
            tget ((x.first + k) % 64) t.weave.profMap (x.first + k) = byteAt p.image (x.off + k)))) ∧
  (∀ s : State,
    ((s.wv.ringOld = [] ∨ s.gt < s.wv.ringAt + 1000000) → runsTo .digestGraceEnd s fun t => t = s) ∧
    (s.wv.ringOld ≠ [] → s.wv.ringAt + 1000000 ≤ s.gt → runsTo .digestGraceEnd s fun t => t = { s with wv := { s.wv with ringOld := [] } }))

/-- R390 to R399: while the supplies stand and nothing has stopped the device, START_STAGE_END leads from each stage of Table STA-1 to the next, a cold or a
warm start as the table says; a stage that ends past its bound or fails, and STAGE_TIMEOUT past the bound, make the start FAILED, counted, with RESET_REQ_N.
FCc_WP_N rises as mount begins (R447). A flash of which no channel can be mounted or firmware that does not pass lead to HOSTLOAD; three failed starts lead to SAFE; a default weave gives guarded mode with
every port disabled; the last stage leads to RUNNING with F 0. R410, R437, R438: supplies that rise and fall start and stop the island and the device:
fuses, flash and the committed log outlive the always-on supply, and what the island holds outlives the main one. -/
def Obligations.StartStages : Prop :=
  (∀ (s : State) (i : StageIn),
    let at_ := fun (n : Nat) (t : State) => t.boot.stage = n ∧ t.boot.stageAt = s.gt
    let failed := fun (t : State) => at_ 0x13 t ∧ t.boot.f = s.boot.f + 1 ∧ t.flt.resetReq = true
    (stageRuns s = false → runsTo (.startStageEnd i) s fun t => t = s) ∧
    (stageRuns s = false ∨ stageLate s i.long = false → runsTo (.stageTimeout i.long) s fun t => t = s) ∧
    (stageRuns s = true → stageLate s i.long = true → ∀ c ∈ [Instr.startStageEnd i, .stageTimeout i.long], runsTo c s fun t => failed t ∧ t.mem = s.mem) ∧
    (stageRuns s = true → stageLate s i.long = false →
      (s.boot.stage = 1 → runsTo (.startStageEnd i) s fun t => if i.ok then at_ 2 t else failed t) ∧
      (s.boot.stage = 2 → runsTo (.startStageEnd i) s fun t =>
        if i.ok ∧ s.boot.lifecycle ≠ 0 then at_ 3 t ∧ rgf t rGLB_CONFIG 31 30 = i.grade % 4 ∧ t.flash.wpN = true else failed t) ∧
      (s.boot.stage = 3 → (flsMounted s = true ∨ fcUnmounted i ≠ 3) → runsTo (.startStageEnd i) s fun t => at_ 4 t ∧ t.mem = s.mem) ∧
      (s.boot.stage = 3 → flsMounted s = false → fcUnmounted i = 3 → runsTo (.startStageEnd i) s fun t => at_ 0x12 t ∧ t.boot.fw = [] ∧ t.boot.f = s.boot.f) ∧
      (s.boot.stage = 4 →
        ((copiesOf s 9).getD 0 none = none → runsTo (.startStageEnd i) s fun t => at_ 0x12 t ∧ t.boot.fw = []) ∧
        (∀ x, (copiesOf s 9).getD 0 none = some x →
          ((i.ok = false ∨ fwCheck s x.2 ≠ 0) → runsTo (.startStageEnd i) s fun t => at_ 0x12 t ∧ t.boot.fw = []) ∧
          (i.ok = true → fwCheck s x.2 = 0 → runsTo (.startStageEnd i) s fun t =>
            at_ (if s.boot.f ≥ 3 then 0x11 else 5) t ∧ t.boot.fw = x.2 ∧ t.boot.hostLoaded = false))) ∧
      (s.boot.stage = 5 → runsTo (.startStageEnd i) s fun t => if i.ok then at_ (if s.boot.warm then 7 else 6) t else failed t) ∧
      (s.boot.stage = 6 → runsTo (.startStageEnd i) s fun t =>
        at_ 7 t ∧ (∀ k ∈ i.sites, k < 20 → siteRetired t k = true) ∧ t = { s with boot := t.boot, flt := t.flt, regs := t.regs }) ∧
      (s.boot.stage = 7 → runsTo (.startStageEnd i) s fun t =>
        at_ 8 t ∧ epochMoved s t 4 ∧ t.flt.pllOut = repairAt s 4158 % 16 ∧
        (∀ k, k < 20 → siteRetired s k = true → (siteGet t k).role = 2) ∧ t.mem = s.mem ∧ t.ctxs = s.ctxs) ∧
      (s.boot.stage = 8 → runsTo (.startStageEnd i) s fun t =>
        if (lpChans s).all fun c => i.channels.contains c then failed t
        else at_ 9 t ∧ lpChans t = ((lpChans s).filter fun c => !i.channels.contains c) ∧ rgb t rLP_STATUS 10 = true) ∧
      (s.boot.stage = 9 → runsTo (.startStageEnd i) s fun t => at_ 10 t ∧ t.boot.noRef = i.noRef % 256 ∧ t.mem = s.mem ∧ t.ctxs = s.ctxs) ∧
      (s.boot.stage = 10 → runsTo (.startStageEnd i) s fun t => at_ 11 t) ∧
      (s.boot.stage = 10 → (s.boot.defWeave = true ∨ flsMounted s = false) → runsTo (.startStageEnd i) s fun t =>
        t.wv.default_ = true ∧ unguarded t = false ∧ (∀ n, n < 16 → rgb t (rFP_CFG n) 31 = false) ∧ epochMoved s t 1) ∧
      (s.boot.stage = 11 → runsTo (.startStageEnd i) s fun t => at_ 0x10 t ∧ t.boot.f = 0))) ∧
  (∀ (s : State) (straps : Nat),
    (s.boot.aon = true → runsTo (.pgoodAonRise straps) s fun t => t = s) ∧
    (s.boot.aon = false → runsTo (.pgoodAonRise straps) s fun t =>
      t = { s with gt := 0, boot := { s.boot with aon := true }, hp := { s.hp with smbAddr := straps % 4 } }) ∧
    (runsTo .pgoodAonFall s fun t =>
      t.boot.aon = false ∧ t.boot.main = false ∧ t.boot.svnMin = s.boot.svnMin ∧ t.boot.epoch = s.boot.epoch ∧ t.boot.lifecycle = s.boot.lifecycle ∧
      t.boot.revoked = s.boot.revoked ∧ t.regs = State.reset.regs ∧ t.mem = [] ∧ t.ctxs = [] ∧ t.flash.pages = s.flash.pages ∧ t.flash.blocks = s.flash.blocks ∧
      t.flash.wpN = false ∧ t.flash.ceN = 0xFFFF ∧ t.smp.log = s.smp.log ∧ t.smp.ring = [] ∧ t.mbox = State.reset.mbox) ∧
    ((s.boot.aon = false ∨ s.boot.main = true) → runsTo .pgoodMainRise s fun t => t = s) ∧
    (s.boot.aon = true → s.boot.main = false → runsTo .pgoodMainRise s fun t =>
      t.boot.main = true ∧ t.boot.warm = false ∧ t.boot.began = s.gt ∧ t.boot.stage = (if s.boot.again = false then 1 else if s.boot.f ≥ 3 then 0x11 else 5) ∧
      t.mem = s.mem ∧ t.ctxs = s.ctxs) ∧
    (s.boot.main = false → runsTo .pgoodMainFall s fun t => t = s) ∧
    (s.boot.main = true → runsTo .pgoodMainFall s fun t =>
      t.boot.main = false ∧ t.boot.stage = 1 ∧ t.boot.f = s.boot.f + b2n (startOrReset s) ∧ t.boot.fw = s.boot.fw ∧ t.mem = [] ∧ t.bad = [] ∧ t.ctxs = [] ∧
      t.slots = [] ∧ t.wv.pending = none ∧ t.mbox.queue = s.mbox.queue ∧ t.flash = s.flash) ∧
    (s.boot.aon = true → runsTo .hostPortReady s fun t => t = { s with boot := { s.boot with ready := true } }) ∧
    (s.boot.aon = false → runsTo .hostPortReady s fun t => t = s))

/-- R396 to R407, R417: a trust command runs when it is the mailbox's next one and ends with one completion word; one that is malformed or that the state does
not accept ends with BAD_CMD and burns no fuse. ATTEST writes the report and its signature to the exchange buffer, IDENTITY the stored identity and its
certificate. ENROL and REVOKE that pass every check commit the slots and burn one epoch step, the first ENROL of a device the lifecycle too; a request that
fails a check answers that check's status and changes neither fuses nor flash. FWLOAD of an image that passes runs it and lets a held start go on; FWSTORE
keeps it; SVN_RAISE burns FW_SVN_MIN up to the firmware's SVN; START in SAFE clears F and goes on at stage 0x05. -/
def Obligations.TrustCommands : Prop :=
  ∀ (s : State) (n : Nat),
    let rows := [(16, Instr.attest), (17, .identity), (18, .enrol n), (19, .revoke n), (20, .fwload), (21, .fwstore), (22, .svnRaise n), (23, .start)]
    let ends := fun (b : Bytes) (t : State) (st : Nat) => t.mbox.queue = s.mbox.queue.tail ∧ t.mbox.done = s.mbox.done ++ [doneWord b st]
    let bare := fun (t : State) => t = { s with mbox := t.mbox, smpIn := t.smpIn }
    (∀ i ∈ rows,
      (mboxHead s = none → runsTo i.2 s fun t => t = s) ∧
      (∀ b, mboxHead s = some b → byteAt b 0 ≠ i.1 → runsTo i.2 s fun t => t = s) ∧
      (∀ b, mboxHead s = some b → byteAt b 0 = i.1 → (trustState s i.1 = false ∨ trustForm b = false) → runsTo i.2 s fun t => ends b t 1 ∧ bare t)) ∧
    (∀ b, mboxHead s = some b → trustForm b = true → trustState s (byteAt b 0) = true →
      (byteAt b 0 = 16 →
        let first := bits (tcArg b) 14 0
        let most := bits (tcArg b) 22 16
        let r := attestReport s (slice b 32 32) first most
        let out := r ++ slice (Config.slhSign idSeed (digest64 r)) 0 49856
        (tcArg b = first + most * 65536 → most ≤ 64 → tcFrom b + out.length ≤ xbufSize → runsTo .attest s fun t =>
          ends b t 0 ∧ tread t.xbuf (tcFrom b) out.length = out ∧ (∀ a, a < tcFrom b ∨ tcFrom b + out.length ≤ a → tget 0 t.xbuf a = tget 0 s.xbuf a) ∧
          t = { s with mbox := t.mbox, xbuf := t.xbuf }) ∧
        ((tcArg b ≠ first + most * 65536 ∨ 64 < most ∨ xbufSize < tcFrom b + out.length) → runsTo .attest s fun t => ends b t 1 ∧ bare t)) ∧
      (byteAt b 0 = 17 →
        (xbufSize < tcFrom b + 128 + sigBytes → runsTo .identity s fun t => ends b t 1 ∧ bare t) ∧
        (tcFrom b + 128 + sigBytes ≤ xbufSize → flsMounted s = false → runsTo .identity s fun t => ends b t 10 ∧ bare t) ∧
        (tcFrom b + 128 + sigBytes ≤ xbufSize → flsMounted s = true → s.boot.idMismatch = false → runsTo .identity s fun t =>
          ends b t 0 ∧ tread t.xbuf (tcFrom b) (128 + sigBytes) = slice (flsBody s 1) 0 (128 + sigBytes) ∧ t = { s with mbox := t.mbox, xbuf := t.xbuf })) ∧
      (∀ i ∈ [(18, Instr.enrol n), (19, .revoke n)], byteAt b 0 = i.1 →
        let q := supplied s b
        let c := enrolCheck s i.1 q
        ((tcSize b < 128 ∨ xbufSize < tcFrom b + tcSize b) → runsTo i.2 s fun t => ends b t 1 ∧ bare t) ∧
        (128 ≤ tcSize b → tcFrom b + tcSize b ≤ xbufSize →
          (c ≠ 0 → runsTo i.2 s fun t => ends b t c ∧ bare t) ∧
          (c = 0 → (flsMounted s = false ∨ s.pwr.fail = true) → runsTo i.2 s fun t => ends b t 10 ∧ bare t) ∧
          (c = 0 → flsMounted s = true → s.pwr.fail = false →
            (n = 0 → runsTo i.2 s fun t => ends b t 9 ∧ t.boot = s.boot) ∧
            (1 ≤ n → ¬(i.1 = 18 ∧ s.boot.lifecycle = 1) → runsTo i.2 s fun t => ends b t 0 ∧ t.boot = { s.boot with epoch := s.boot.epoch + 1 }) ∧
            (2 ≤ n → i.1 = 18 → s.boot.lifecycle = 1 → runsTo i.2 s fun t =>
              ends b t 0 ∧ t.boot = { s.boot with epoch := s.boot.epoch + 1, lifecycle := 2 }) ∧
            (n = 1 → i.1 = 18 → s.boot.lifecycle = 1 → runsTo i.2 s fun t => ends b t 9 ∧ t.boot = { s.boot with epoch := s.boot.epoch + 1 }) ∧
            runsTo i.2 s fun t => t = { s with mbox := t.mbox, smpIn := t.smpIn, flash := t.flash, boot := t.boot, life := t.life }))) ∧
      (byteAt b 0 = 20 →
        (xbufSize < tcFrom b + tcSize b → runsTo .fwload s fun t => ends b t 1 ∧ bare t) ∧
        (tcFrom b + tcSize b ≤ xbufSize →
          (fwCheck s (supplied s b) ≠ 0 → runsTo .fwload s fun t => ends b t (fwCheck s (supplied s b)) ∧ bare t) ∧
          (fwCheck s (supplied s b) = 0 → runsTo .fwload s fun t =>
            ends b t 0 ∧ t.boot.fw = supplied s b ∧ t.boot.hostLoaded = true ∧
            t.boot.stage = (if s.boot.stage = 0x11 ∨ s.boot.f ≥ 3 then 0x11 else 5)))) ∧
      (byteAt b 0 = 21 →
        ((flsMounted s = false ∨ s.pwr.fail = true) → runsTo .fwstore s fun t => ends b t 10 ∧ bare t) ∧
        (flsMounted s = true → s.pwr.fail = false → runsTo .fwstore s fun t =>
          ends b t 0 ∧ (s.boot.fw.length ≤ 2 ^ 23 → maxSeq (copiesOf s 9) + 1 < 2 ^ 64 → ∃ q, some (q, s.boot.fw) ∈ copiesOf t 9) ∧
          t = { s with mbox := t.mbox, smpIn := t.smpIn, flash := t.flash, life := t.life })) ∧
      (byteAt b 0 = 22 → let top := max s.boot.svnMin (fwSvn s)
        runsTo (.svnRaise n) s fun t =>
          ends b t (if s.boot.svnMin + n < top then 9 else 0) ∧ t.boot = { s.boot with svnMin := min top (s.boot.svnMin + n) } ∧
          t = { s with mbox := t.mbox, smpIn := t.smpIn, boot := t.boot }) ∧
      (byteAt b 0 = 23 → runsTo .start s fun t =>
        ends b t 0 ∧ t.boot.stage = 5 ∧ t.boot.stageAt = s.gt ∧ t.boot.f = 0 ∧ t.boot.defWeave = bit (byteAt b 1) 0 ∧ t.mem = s.mem))

/-- R410: before the port is ready no transaction does anything. R411, R412, R414: an RD whose CRC fails, whose address or length breaks the rules, or whose
unit is not up performs no access and answers its status with zeros; an RD of the exchange buffer, of a populated memory or of a register performs its access
once and answers READY with the data; a result that is not ready, or whose RD ended early, is held until an RD of the same address and LEN, and any other RD
answers HELD. A window read of the tier gives a table's place as its entries stand (log entry 143). An uncorrectable codeword answers UE with its address. RDSR answers the status byte and clears what was dropped or failed; RDID answers the
identity; RST right after RSTEN discards a held result and is otherwise an ignored command. -/
def Obligations.HostPortReads : Prop :=
  ∀ (s : State) (addr len crc : Nat) (hit : RqHit) (meets : List (Nat × Bool)),
    let u := hpTaken s
    let n := hpBytes len
    let no := List.replicate n (0 : Byte)
    let crcFine := crcOn s = false ∨ crc = rdCrc addr len
    (s.boot.ready = false → ∀ a b, ∀ i ∈ [Instr.rd addr len crc a b hit meets, .rdsr a b, .rdid, .rsten, .rst], runsTo i s fun t => t = s) ∧
    (s.boot.ready = true →
      (∀ r, ¬crcFine → (runsTo (.rd addr len crc r false hit meets) s fun t =>
        rdSays s t 0x11 no ∧ t.hp = { u.hp with crcFailed := true } ∧ counted s t rHP_CRC_ERR 1 ∧ rgb t rHP_ISR 3 = true ∧
        regsBut s t [rHP_CRC_ERR, rHP_ISR] ∧ t = { u with hp := t.hp, regs := t.regs, reply := t.reply }) ∧
        runsTo (.rd addr len crc r true hit meets) s fun t => t.reply = [] ∧ t.hp.held = s.hp.held) ∧
      (crcFine →
        (∀ r a l d, s.hp.held = some (a, l, d) → ¬(a = addr ∧ l = len) →
          (runsTo (.rd addr len crc r false hit meets) s fun t => rdSays s t 0x02 no ∧ t = { u with reply := t.reply }) ∧
          runsTo (.rd addr len crc r true hit meets) s fun t => t = { u with reply := [] }) ∧
        (∀ d, s.hp.held = some (addr, len, d) →
          (runsTo (.rd addr len crc true false hit meets) s fun t =>
            rdSays s t (byteAt d 0) (d.drop 1) ∧ t.hp.held = none ∧ t = { u with hp := t.hp, reply := t.reply, regs := t.regs }) ∧
          (runsTo (.rd addr len crc false false hit meets) s fun t =>
            rdSays s t 0x01 no ∧ counted s t rHP_RETRY 1 ∧ regsBut s t [rHP_RETRY] ∧ (∃ e, t.hp.held = some (addr, len, e) ∧ e.drop 1 = d.drop 1))) ∧
        (s.hp.held = none →
          (∀ x, hpTarget s addr len = .bad x → ∀ r, runsTo (.rd addr len crc r false hit meets) s fun t =>
            rdSays s t 0x10 no ∧ t.hp = { u.hp with errAddr := x } ∧ t.mem = s.mem ∧ regsBut s t [rHP_ISR]) ∧
          (hpTarget s addr len = .direct → unitsUp s addr n = false → ∀ r, runsTo (.rd addr len crc r false hit meets) s fun t =>
            rdSays s t 0x13 no ∧ t.hp = u.hp ∧ t.mem = s.mem ∧ regsBut s t [rHP_ISR]) ∧
          (hpTarget s addr len = .direct → unitsUp s addr n = true →
            let v := unitsRead (hpUnits addr n) u hit
            (runsTo (.rd addr len crc true false hit meets) s fun t => rdSays v.2 t 0x00 v.1 ∧ t = { v.2 with hp := { v.2.hp with held := none }, reply := t.reply }) ∧
            (runsTo (.rd addr len crc false false hit meets) s fun t => rdSays v.2 t 0x01 no ∧ t.hp.held = some (addr, len, leBytes 1 0 ++ v.1)) ∧
            runsTo (.rd addr len crc false true hit meets) s fun t => t.reply = [] ∧ t.hp.held = some (addr, len, leBytes 1 0 ++ v.1)) ∧
          (∀ o, hpTarget s addr len = .xbuf o → runsTo (.rd addr len crc true false hit meets) s fun t =>
            rdSays s t 0x00 (tread s.xbuf o n) ∧ t = { u with reply := t.reply }) ∧
          (∀ a, hpTarget s addr len = .mem a →
            (memUp s a = false → runsTo (.rd addr len crc true false hit meets) s fun t => rdSays s t 0x13 no ∧ t.hp = u.hp ∧ t.mem = s.mem) ∧
            (memUp s a = true → devBad s a n = none →
              let inTier := tierBase ≤ a ∧ a < lpBase
              (¬inTier → runsTo (.rd addr len crc true false hit []) s fun t =>
                rdSays s t 0x00 (memR s a n) ∧ t = { s with hp := u.hp, obs := t.obs, reply := t.reply }) ∧
              (inTier → tierParity s a n = false → runsTo (.rd addr len crc true false hit []) s fun t =>
                rdSays s t 0x00 (tierR s a n) ∧ t = { s with hp := u.hp, obs := t.obs, reply := t.reply }) ∧
              (inTier → tierParity s a n = true → runsTo (.rd addr len crc true false hit []) s fun t =>
                rdSays s t 0x12 no ∧ t.hp = { u.hp with errAddr := a } ∧ t.mem = s.mem ∧ regsBut s t [rHP_ISR])) ∧
            (∀ b, memUp s a = true → devBad s a n = some b → runsTo (.rd addr len crc true false hit []) s fun t =>
              rdSays s t 0x12 no ∧ t.hp.errAddr = b ∧ t.hp.held = none)))) ∧
      (∀ complete free, runsTo (.rdsr complete free) s fun t =>
        t.reply = leBytes 1 (128 + 64 * b2n (alertN s) + 32 * b2n (decide (mboxPending s ≥ 16)) + 16 * b2n s.hp.dropped + 8 * b2n s.hp.crcFailed +
          4 * b2n (s.hp.held.isSome && complete) + 2 * b2n (s.hp.held.isSome && !complete) + b2n free) ∧
        t = { u with reply := t.reply, hp := { u.hp with dropped := false, crcFailed := false } }) ∧
      (runsTo .rdid s fun t => slice t.reply 0 4 = leBytes 4 0x096000B2 ∧ t.reply.length = 16 ∧ t = { u with reply := t.reply }) ∧
      (runsTo .rsten s fun t => t = { u with reply := [], hp := { u.hp with rsten := true } }) ∧
      (s.hp.rsten = true → runsTo .rst s fun t => t = { u with reply := [], hp := { u.hp with held := none } }) ∧
      (s.hp.rsten = false → runsTo .rst s fun t => t.reply = [] ∧ counted s t rHP_BAD_CMD 1 ∧ regsBut s t [rHP_BAD_CMD] ∧ t.hp = u.hp))

/-- R413, R415, R416: a WR cut short changes nothing; one that finds both buffers occupied is dropped and counted; one whose CRC fails sets CRC_ERR; one that
no unit decodes or whose unit is not up sets ADDR; a memory window outside the staging region sets PROT and no byte of memory changes; else it applies and
WRITES counts it: register words in ascending order, bytes of the exchange buffer, bytes of the staging region. -/
def Obligations.HostPortWrites : Prop :=
  ∀ (s : State) (addr len : Nat) (data : Bytes) (crc : Nat),
    let u := hpTaken s
    let n := hpBytes len
    let d := data.take n
    let crcFine := crcOn s = false ∨ crc = wrCrc addr len d
    let tells := fun (t : State) (i : Nat) => rgb t rHP_WSTAT i = true ∧ rgb t rHP_ISR 3 = true ∧ rgf t rHP_WSTAT 15 0 = rgf s rHP_WSTAT 15 0
    let counts := fun (t : State) => rgf t rHP_WSTAT 15 0 = (rgf s rHP_WSTAT 15 0 + 1) % 65536
    (∀ cut full, s.boot.ready = false → runsTo (.wr addr len data crc cut full) s fun t => t = s) ∧
    (s.boot.ready = true →
      (∀ cut full, (cut = true ∨ data.length < n) → runsTo (.wr addr len data crc cut full) s fun t => t = u) ∧
      (n ≤ data.length →
        (runsTo (.wr addr len data crc false true) s fun t =>
          tells t 30 ∧ t.hp = { u.hp with dropped := true } ∧ counted s t rHP_WDROP 1 ∧ regsBut s t [rHP_WSTAT, rHP_ISR, rHP_WDROP] ∧
          t = { u with hp := t.hp, regs := t.regs }) ∧
        (¬crcFine → runsTo (.wr addr len data crc false false) s fun t =>
          tells t 31 ∧ t.hp = { u.hp with crcFailed := true } ∧ counted s t rHP_CRC_ERR 1 ∧ regsBut s t [rHP_WSTAT, rHP_ISR, rHP_CRC_ERR] ∧
          t = { u with hp := t.hp, regs := t.regs }) ∧
        (crcFine →
          (∀ x, hpTarget s addr len = .bad x → runsTo (.wr addr len data crc false false) s fun t =>
            tells t 28 ∧ t.hp = { u.hp with errAddr := x } ∧ regsBut s t [rHP_WSTAT, rHP_ISR] ∧ t = { u with hp := t.hp, regs := t.regs }) ∧
          (hpTarget s addr len = .direct → unitsUp s addr n = false → runsTo (.wr addr len data crc false false) s fun t =>
            tells t 28 ∧ t.hp = { u.hp with errAddr := addr } ∧ regsBut s t [rHP_WSTAT, rHP_ISR] ∧ t = { u with hp := t.hp, regs := t.regs }) ∧
          (hpTarget s addr len = .direct → unitsUp s addr n = true →
            let w := (hpUnits addr n).foldl (fun s a => unitWrite s a (leAt d (a - addr) 4)) u
            runsTo (.wr addr len data crc false false) s fun t => rgf t rHP_WSTAT 15 0 = (rgf w rHP_WSTAT 15 0 + 1) % 65536 ∧ regsBut w t [rHP_WSTAT] ∧
              t = { w with regs := t.regs }) ∧
          (∀ o, hpTarget s addr len = .xbuf o → runsTo (.wr addr len data crc false false) s fun t =>
            counts t ∧ tread t.xbuf o n = d ∧ (∀ a, a < o ∨ o + n ≤ a → tget 0 t.xbuf a = tget 0 s.xbuf a) ∧ regsBut s t [rHP_WSTAT] ∧
            t = { u with xbuf := t.xbuf, regs := t.regs }) ∧
          (∀ a, hpTarget s addr len = .mem a →
            (inStaging s a n = false → runsTo (.wr addr len data crc false false) s fun t =>
              tells t 29 ∧ t.hp = { u.hp with errAddr := a } ∧ regsBut s t [rHP_WSTAT, rHP_ISR] ∧ t = { u with hp := t.hp, regs := t.regs }) ∧
            (inStaging s a n = true → memUp s a = false → runsTo (.wr addr len data crc false false) s fun t =>
              tells t 28 ∧ t.hp = { u.hp with errAddr := a } ∧ t = { u with hp := t.hp, regs := t.regs }) ∧
            (inStaging s a n = true → memUp s a = true → memWBad s a n = none → runsTo (.wr addr len data crc false false) s fun t =>
              counts t ∧ memR t a n = d ∧ memBut s t a n ∧ regsBut s t [rHP_WSTAT] ∧ t.xbuf = s.xbuf ∧ t.ctxs = s.ctxs)))))

/-- R417: a doorbell copies the block into the mailbox queue of 16, or sets OVERRUN when 16 are pending; an OP that belongs to no table completes with
UNKNOWN_OP; a read of HP_MBOX_DONE pops one word or answers 0. R428: a read of GLB_EPOCH answers the epoch and latches its cause. R430: a read of GLB_GT_LO
answers the low word of Global Time and latches the high one. R9: a register write stores RW bits, clears RW1C bits written 1 and leaves every other bit;
one to an address that no block decodes or to a fenced site has no effect. -/
def Obligations.RegistersAndMailbox : Prop :=
  ∀ s : State,
    (16 ≤ mboxPending s → runsTo .mailboxDoorbell s fun t => rgb t rHP_MBOX_STATUS 30 = true ∧ regsBut s t [rHP_MBOX_STATUS] ∧ t = { s with regs := t.regs }) ∧
    (mboxPending s < 16 → runsTo .mailboxDoorbell s fun t =>
      t = { s with mbox := { s.mbox with queue := s.mbox.queue ++ [(List.range 16).flatMap fun i => leBytes 4 (rg s (rHP_MBOX_CMD i))] } }) ∧
    (mboxHead s = none → runsTo .unknownOp s fun t => t = s) ∧
    (∀ b, mboxHead s = some b →
      (((1 ≤ byteAt b 0 ∧ byteAt b 0 ≤ 7) ∨ (9 ≤ byteAt b 0 ∧ byteAt b 0 ≤ 12) ∨ (16 ≤ byteAt b 0 ∧ byteAt b 0 ≤ 23)) → runsTo .unknownOp s fun t => t = s) ∧
      ((byteAt b 0 = 0 ∨ byteAt b 0 = 8 ∨ (13 ≤ byteAt b 0 ∧ byteAt b 0 ≤ 15) ∨ 24 ≤ byteAt b 0) → runsTo .unknownOp s fun t =>
        t = { s with mbox := { s.mbox with queue := s.mbox.queue.tail, done := s.mbox.done ++ [doneWord b 0xFF] } })) ∧
    (s.mbox.done = [] → runsTo .mailboxDoneRead s fun t => t = { s with reply := [0, 0, 0, 0] }) ∧
    (∀ w rest, s.mbox.done = w :: rest → runsTo .mailboxDoneRead s fun t =>
      t = { s with reply := leBytes 4 w, mbox := { s.mbox with done := rest } }) ∧
    (runsTo .epochRead s fun t => t.reply = leBytes 4 (rg s rGLB_EPOCH) ∧ rg t rGLB_EPOCH_CAUSE = s.epochCause % 2 ^ 32 ∧
      regsBut s t [rGLB_EPOCH_CAUSE] ∧ t = { s with regs := t.regs, reply := t.reply }) ∧
    (runsTo .globalTimeRead s fun t => t.reply = leBytes 4 s.gt ∧ rg t rGLB_GT_HI = s.gt / 2 ^ 32 % 2 ^ 32 ∧ regsBut s t [rGLB_GT_HI] ∧
      t = { s with regs := t.regs, reply := t.reply }) ∧
    (∀ a v, resolveReg s a = none → runsTo (.registerWrite a v) s fun t => t = s) ∧
    (∀ a r b i o v, resolveReg s a = some r → decodeReg r = some (b, i, o) →
      ((siteFrozen s b i = true ∨ regRow r = none) → runsTo (.registerWrite a v) s fun t => t = s) ∧
      (∀ row, siteFrozen s b i = false → regRow r = some row → b ∈ [Block.pipe, .bind, .shf, .thr, .pll, .pwr, .glb, .lp] → r ≠ rGLB_EPOCH →
        runsTo (.registerWrite a v) s fun t =>
          (let x := mergeBits (rg s r) (v % 2 ^ 32) row.rw
           rg t r = (x - (x &&& (v % 2 ^ 32 &&& row.w1c))) % 2 ^ 32) ∧
          (row.live = false → regsBut s t [r] ∧ t = { s with regs := t.regs }) ∧
          (row.live = true → regsBut s t [r, rGLB_EPOCH] ∧ epochMoved s t 3 ∧
            t = { s with regs := t.regs, epochAt := t.epochAt, epochCause := t.epochCause })))

/-- R442: a 1 PPS edge counts under source 1 only: an offset beyond 1 ms steps Global Time, another is left to be slewed. A change of the inputs that changes
the source follows the order TIME_REF with 1 PPS, PTP, free running, acts likewise, and gives the Sampler one record; one that leaves the source as it is only
stores the inputs. R444: a Read Word of a code that exists answers the word and a PEC, a Block Read of 0x20 its byte count, 32 bytes and a PEC, of which the
last 8 data bytes are free values (log entry 11); any other address or code is not acknowledged. An Alert Response answers while SMB_ALERT_N is asserted,
which then stays asserted only while its cause does. -/
def Obligations.TimeAndTelemetry : Prop :=
  (∀ (s : State) (off : Int) (ref pps ptp : Bool),
    let n := if ref && pps then 1 else if ptp then 2 else 3
    let moves := fun (t : State) =>
      (1000000 < off.natAbs → t.gt = ((s.gt : Int) - off).toNat ∧ t.time.slew = 0) ∧
      (off.natAbs ≤ 1000000 → t.gt = s.gt ∧ t.time.slew = -off)
    (s.time.source ≠ 1 → runsTo (.time1ppsEdge off) s fun t => t = s) ∧
    (s.time.source = 1 → runsTo (.time1ppsEdge off) s fun t =>
      moves t ∧ t.time.isSet = true ∧ rgf t rGLB_CONFIG 28 27 = 1 ∧ regsBut s t [rGLB_CONFIG] ∧ t = { s with gt := t.gt, time := t.time, regs := t.regs }) ∧
    (n = s.time.source → runsTo (.timeSourceChange ref pps ptp off) s fun t =>
      t = { s with time := { s.time with ref := ref, pps := pps, ptp := ptp } }) ∧
    (n ≠ s.time.source → runsTo (.timeSourceChange ref pps ptp off) s fun t =>
      t.time.source = n ∧ t.time.ref = ref ∧ t.time.pps = pps ∧ t.time.ptp = ptp ∧ (n ≠ 3 → moves t ∧ rgf t rGLB_CONFIG 28 27 = n) ∧
      (n = 3 → t.gt = s.gt ∧ t.time.slew = 0) ∧ t.smpIn.length = s.smpIn.length + 1 ∧ regsBut s t [rGLB_CONFIG] ∧ t.mem = s.mem ∧ t.ctxs = s.ctxs)) ∧
  (∀ (s : State) (addr code : Nat),
    let mine := s.boot.aon && addr == smbTarget s
    let silent := fun (t : State) => t = { s with reply := [] }
    let sealed := fun (d : Bytes) => d ++ [pec (leBytes 1 (2 * smbTarget s) ++ leBytes 1 code ++ leBytes 1 (2 * smbTarget s + 1) ++ d)]
    (∀ w, mine = true → smbWord s code = some w → runsTo (.smbusReadWord addr code) s fun t => t = { s with reply := sealed (leBytes 2 w) }) ∧
    ((mine = false ∨ smbWord s code = none) → runsTo (.smbusReadWord addr code) s silent) ∧
    (mine = true → code = 0x20 → runsTo (.smbusBlockRead addr code) s fun t =>
      (∃ free : Bytes, free.length = 8 ∧ t.reply = sealed (leBytes 1 32 ++ smbBlock s ++ free)) ∧ t = { s with reply := t.reply, freeCtr := s.freeCtr + 1 }) ∧
    ((mine = false ∨ code ≠ 0x20) → runsTo (.smbusBlockRead addr code) s silent) ∧
    ((s.boot.aon = false ∨ smbAlert s = false) → runsTo .smbusAlertResponse s silent) ∧
    (s.boot.aon = true → smbAlert s = true → runsTo .smbusAlertResponse s fun t =>
      t.reply.length = 2 ∧ byteAt t.reply 0 / 2 = smbTarget s ∧ t.hp = { s.hp with alert := smbCause s } ∧
      t = { s with reply := t.reply, hp := t.hp, freeCtr := s.freeCtr + 1 }))

/-- Every command of the table completes in every state: exec answers a next state, never a fault or a refusal. For every command c and every state with c at the front of its queue, a step is exec of c on the state with the rest of the queue. On an empty queue a step
completes and one nanosecond passes: Global Time counts one when no slew is due, nothing happens while VDD_AON is off, no command joins the queue, and where
no engine, bank, stamp or failed site has work that waits, memory, contexts and report queues stay (the model's own choice, log entries 1 and 141). -/
def Obligations.StepRunsFrontCommand : Prop :=
  (∀ (c : Instr) (s : State), ∃ t, exec c s = .next t ∧ step { s with pending := c :: s.pending } = .next t) ∧
  (∀ (c : Instr) (s : State) (rest : List Instr), step { s with pending := c :: rest } = exec c { s with pending := rest }) ∧
  (∀ s : State, s.pending = [] → ∃ t, step s = .next t ∧ t.pending = [] ∧ (s.boot.aon = false → t = s) ∧
    (s.boot.aon = true → s.time.slew = 0 → t.gt = s.gt + 1) ∧
    ((∀ e ∈ s.tiles, waiting (sbUsed s e.1) = []) → s.bank.held = [] → s.flt.siteOut = [] → stampsRead s = s →
      t.mem = s.mem ∧ t.xbuf = s.xbuf ∧ t.ctxs = s.ctxs ∧ t.rq = s.rq ∧ regsBut s t [rPWR_TOKEN_WAIT, rOBS_TRC_STALL]))

/-- The state at power-on meets the invariant and holds what the field maps give: the start in stage 0x01 with no failed start, the epoch 0, no ALERT_N cause
enabled, the host port with CRC on and a latency of 64 cycles, captures before resets on, FLT_HANG.CMD 50 ms, the energy costs of the classes, every report
queue enabled with ALERT_PRIO 6, no reservation and 8,192 cells, every context FREE and every slot EMPTY, no counter counted, no command waiting. -/
def Obligations.ResetState : Prop :=
  Inv State.reset ∧ State.reset.pending = [] ∧ State.reset.mbox.queue = [] ∧ State.reset.mbox.done = [] ∧
  (regRead State.reset (hpA 0x008)).1 = 0x01000000 ∧ rg State.reset rGLB_EPOCH = 0 ∧ rg State.reset rHP_CFG = 0x80000040 ∧ rg State.reset rHP_IE = 0 ∧
  rg State.reset rGLB_INT_EN = 0x19 ∧ rg State.reset rFLT_CFG = 0x80000 ∧ rgf State.reset rFLT_HANG 31 16 = 50 ∧
  ((List.range 8).map fun k => ecost State.reset k) = [0, 16, 32, 224, 448, 1024, 4096, 16384] ∧
  (∀ q, (rqGet State.reset q).min = 0 ∧ (rqGet State.reset q).limit = 8192 ∧ rqEnabled (rqGet State.reset q) = true ∧ bits (rqGet State.reset q).cfg.toNat 26 24 = 6) ∧
  (∀ c, (ctxGet State.reset c).state = 0 ∧ ∀ k, (mslotGet State.reset c k).state = 0) ∧ (∀ i, tget 0 State.reset.obs.cnt i = 0)

/-- From every state a step answers a next state, whatever command is in front; the queue loses exactly its front command; if device memory, the exchange
buffer and the register file are in canonical form and the start status is a code of Table STA-1, they are so after the step; and no fuse is ever unburned:
FW_SVN_MIN, ENROL_EPOCH and LIFECYCLE never go back. -/
def Obligations.StepKeepsInvariant : Prop :=
  ∀ s : State, ∃ t, step s = .next t ∧ t.pending = s.pending.tail ∧ fusesKept s t ∧ (Inv s → Inv t)
end

