-- ==== Sys2Proof/Laws/Bytes.lean ====
section
/-! SUPPORT. Laws of byte strings: fields and the bytes of numbers. -/

namespace Sys2Proof.Machine

@[simp] theorem leBytes_length (n v : Nat) : (leBytes n v).length = n := by
  induction n generalizing v with
  | zero => rfl
  | succ n ih => simp [leBytes, ih]

theorem leNat_leBytes (n v : Nat) : leNat (leBytes n v) = v % 256 ^ n := by
  induction n generalizing v with
  | zero => simp [leBytes, leNat, Nat.mod_one]
  | succ n ih =>
    rw [leBytes, leNat, ih, pow_succ', Nat.mod_mul, BitVec.toNat_ofNat]

@[simp] theorem slice_length (l : Bytes) (i n : Nat) : (slice l i n).length = n := by
  simp only [slice, List.length_append, List.length_take, List.length_replicate]; omega

/-- A byte of a field; zero past the end of the string. -/
theorem slice_getElem (l : Bytes) (i n j : Nat) (h : j < (slice l i n).length) : (slice l i n)[j] = l.getD (i + j) 0 := by
  have hj : j < n := by simpa using h
  simp only [slice]
  by_cases c : i + j < l.length
  · rw [List.getElem_append_left (by simp; omega)]
    simp [c]
  · rw [List.getElem_append_right (by simp; omega)]
    simp [c]

/-- A whole string as a field. -/
theorem slice_self (l : Bytes) (n : Nat) (h : l.length = n) : slice l 0 n = l :=
  List.ext_getElem (by simp [h]) fun j h1 h2 => by rw [slice_getElem]; simp [h2]

/-- A field of a field. -/
theorem slice_slice (l : Bytes) (i n j m : Nat) (h : j + m ≤ n) : slice (slice l i n) j m = slice l (i + j) m :=
  List.ext_getElem (by simp) fun k h1 h2 => by
    have hk : k < m := by simpa using h1
    rw [slice_getElem, slice_getElem, List.getD_eq_getElem _ _ (by simp; omega), slice_getElem, Nat.add_assoc]

/-- Two fields that follow each other. -/
theorem slice_append (l : Bytes) (i n m : Nat) : slice l i n ++ slice l (i + n) m = slice l i (n + m) :=
  List.ext_getElem (by simp) fun k h1 h2 => by
    have hk : k < n + m := by simpa using h2
    rw [slice_getElem]
    by_cases c : k < n
    · rw [List.getElem_append_left (by simpa using c), slice_getElem]
    · rw [List.getElem_append_right (by simp; omega), slice_getElem]; simp only [slice_length]; congr 1; omega

/-- The first part of a string that is padded. -/
theorem slice_take (l : Bytes) (n : Nat) (h : l.length ≤ n) : (slice l 0 n).take l.length = l :=
  List.ext_getElem (by simp; omega) fun k h1 h2 => by
    rw [List.getElem_take, slice_getElem]; simp [h2]

/-- The field where a part of a string stands. -/
theorem slice_mid (a b c : Bytes) (i n : Nat) (hi : a.length = i) (hn : b.length = n) : slice (a ++ b ++ c) i n = b :=
  List.ext_getElem (by simp [hn]) fun k h1 h2 => by
    rw [slice_getElem, List.getD_eq_getElem _ _ (by simp; omega), List.getElem_append_left (by simp; omega),
      List.getElem_append_right (by omega)]
    congr 1; omega

/-- Consecutive fields of one size make one field. -/
theorem slice_chunks (l : Bytes) (z n : Nat) : (List.range n).flatMap (fun i => slice l (z * i) z) = slice l 0 (z * n) := by
  induction n with
  | zero => simp [slice]
  | succ n ih => rw [List.range_succ, List.flatMap_append, ih]; simpa [Nat.mul_succ] using slice_append l 0 (z * n) z

theorem kSqueeze_length (n : Nat) (a : List Dword) : (kSqueeze n a).length = 136 * n := by
  induction n generalizing a with
  | zero => rfl
  | succ n ih => rw [kSqueeze, List.length_append, ih]; simp [List.length_flatMap]; omega

@[simp] theorem digest64_length (b : Bytes) : (digest64 b).length = 64 := by
  simp [digest64, shake256, kSqueeze_length]

end Sys2Proof.Machine
end

