-- ==== Sys2Proof/Laws/Tab.lean ====
section
/-! SUPPORT. Laws of sparse tables and byte memories: a read after a write, the canonical form kept. -/

namespace Sys2Proof.Machine

variable {α : Type}

@[simp] theorem tget_nil (d : α) (k : Nat) : tget d [] k = d := rfl

theorem tget_tput (d : α) (m : Tab α) (k j : Nat) (v : α) : tget d (tput m k v) j = if k = j then v else tget d m j := by
  induction m with
  | nil => simp [tput, tget]
  | cons e r ih =>
    obtain ⟨i, w⟩ := e
    simp only [tput]
    split
    · simp only [tget]
    · split
      · subst_vars; simp only [tget]; split <;> rfl
      · simp only [tget, ih]
        split
        · split
          · omega
          · rfl
        · rfl

theorem tget_tdel (d : α) (m : Tab α) (k j : Nat) : tget d (tdel m k) j = if k = j then d else tget d m j := by
  induction m with
  | nil => simp [tdel, tget]
  | cons e r ih =>
    obtain ⟨i, w⟩ := e
    simp only [tdel]
    split
    · subst_vars; rw [ih]; simp only [tget]; split <;> rfl
    · simp only [tget, ih]
      split
      · split
        · omega
        · rfl
      · rfl

variable [DecidableEq α]

/-- A read after a write. -/
theorem tget_tset (d : α) (m : Tab α) (k j : Nat) (v : α) : tget d (tset d m k v) j = if k = j then v else tget d m j := by
  simp only [tset]
  split
  · subst_vars; exact tget_tdel _ _ _ _
  · exact tget_tput _ _ _ _ _

@[simp] theorem tget_tset_same (d : α) (m : Tab α) (k : Nat) (v : α) : tget d (tset d m k v) k = v := by simp [tget_tset]

theorem tget_tset_other (d : α) (m : Tab α) {k j : Nat} (v : α) (h : k ≠ j) : tget d (tset d m k v) j = tget d m j := by
  simp [tget_tset, h]

omit [DecidableEq α] in
theorem tabove_mono {k j : Nat} {m : Tab α} (h : tabove k m = true) (hj : j ≤ k) : tabove j m = true := by
  simp only [tabove, List.all_eq_true, decide_eq_true_eq] at *
  intro e he; have := h e he; omega

omit [DecidableEq α] in
theorem tabove_tput {j k : Nat} {m : Tab α} {v : α} (h : tabove j m = true) (hk : j < k) : tabove j (tput m k v) = true := by
  induction m with
  | nil => simp [tput, tabove, hk]
  | cons e r ih =>
    obtain ⟨i, w⟩ := e
    simp only [tabove, List.all_cons, Bool.and_eq_true, decide_eq_true_eq] at h ih ⊢
    simp only [tput]
    split
    · simp only [List.all_cons, Bool.and_eq_true, decide_eq_true_eq]; exact ⟨hk, h⟩
    · split
      · simp only [List.all_cons, Bool.and_eq_true, decide_eq_true_eq]; exact ⟨hk, h.2⟩
      · simp only [List.all_cons, Bool.and_eq_true, decide_eq_true_eq]; exact ⟨h.1, ih h.2⟩

omit [DecidableEq α] in
theorem tabove_tdel {j k : Nat} {m : Tab α} (h : tabove j m = true) : tabove j (tdel m k) = true := by
  induction m with
  | nil => exact h
  | cons e r ih =>
    obtain ⟨i, w⟩ := e
    simp only [tabove, List.all_cons, Bool.and_eq_true, decide_eq_true_eq] at h ih ⊢
    simp only [tdel]
    split
    · exact ih h.2
    · simp only [List.all_cons, Bool.and_eq_true, decide_eq_true_eq]; exact ⟨h.1, ih h.2⟩

theorem twf_tput {d : α} {m : Tab α} {k : Nat} {v : α} (h : twf d m = true) (hv : v ≠ d) : twf d (tput m k v) = true := by
  induction m with
  | nil => simp [tput, twf, tabove, hv]
  | cons e r ih =>
    obtain ⟨i, w⟩ := e
    simp only [twf, Bool.and_eq_true, decide_eq_true_eq] at h
    simp only [tput]
    split
    · simp only [twf, Bool.and_eq_true, decide_eq_true_eq]
      refine ⟨⟨?_, hv⟩, h⟩
      have : tabove k r = true := tabove_mono h.1.1 (by omega)
      simp only [tabove, List.all_cons, Bool.and_eq_true, decide_eq_true_eq] at this ⊢
      exact ⟨by assumption, this⟩
    · split
      · subst_vars; simp only [twf, Bool.and_eq_true, decide_eq_true_eq]; exact ⟨⟨h.1.1, hv⟩, h.2⟩
      · simp only [twf, Bool.and_eq_true, decide_eq_true_eq]
        exact ⟨⟨tabove_tput h.1.1 (by omega), h.1.2⟩, ih h.2⟩

theorem twf_tdel {d : α} {m : Tab α} {k : Nat} (h : twf d m = true) : twf d (tdel m k) = true := by
  induction m with
  | nil => rfl
  | cons e r ih =>
    obtain ⟨i, w⟩ := e
    simp only [twf, Bool.and_eq_true, decide_eq_true_eq] at h
    simp only [tdel]
    split
    · exact ih h.2
    · simp only [twf, Bool.and_eq_true, decide_eq_true_eq]
      exact ⟨⟨tabove_tdel h.1.1, h.1.2⟩, ih h.2⟩

/-- A write keeps the canonical form. -/
theorem twf_tset {d : α} {m : Tab α} {k : Nat} {v : α} (h : twf d m = true) : twf d (tset d m k v) = true := by
  simp only [tset]
  split
  · exact twf_tdel h
  · rename_i hv; exact twf_tput h hv

/-- Dropping entries keeps the canonical form. -/
theorem twf_filter {d : α} {m : Tab α} (p : Nat × α → Bool) (h : twf d m = true) : twf d (m.filter p) = true := by
  induction m with
  | nil => rfl
  | cons e r ih =>
    obtain ⟨i, w⟩ := e
    simp only [twf, Bool.and_eq_true, decide_eq_true_eq] at h
    simp only [List.filter_cons]
    split
    · simp only [twf, Bool.and_eq_true, decide_eq_true_eq]
      refine ⟨⟨?_, h.1.2⟩, ih h.2⟩
      have := h.1.1
      simp only [tabove, List.all_eq_true, decide_eq_true_eq, List.mem_filter] at this ⊢
      exact fun e he => this e he.1
    · exact ih h.2

/-! ### Bytes -/

/-- Storing bytes keeps the canonical form. -/
theorem twf_twrite {m : Tab Byte} {a : Nat} {l : Bytes} (h : twf 0 m = true) : twf 0 (twrite m a l) = true := by
  induction l generalizing m a with
  | nil => exact h
  | cons b r ih => exact ih (twf_tset h)

/-- A byte outside the stored ones reads as before. -/
theorem tget_twrite_out (m : Tab Byte) (a x : Nat) (l : Bytes) (h : x < a ∨ a + l.length ≤ x) :
    tget 0 (twrite m a l) x = tget 0 m x := by
  induction l generalizing m a with
  | nil => rfl
  | cons b r ih =>
    simp only [List.length_cons] at h
    rw [twrite, ih _ _ (by omega), tget_tset_other _ _ _ (by omega)]

/-- A stored byte reads back. -/
theorem tget_twrite_in (m : Tab Byte) (a i : Nat) (l : Bytes) (h : i < l.length) : tget 0 (twrite m a l) (a + i) = l[i] := by
  induction l generalizing m a i with
  | nil => simp at h
  | cons b r ih =>
    rw [twrite]
    cases i with
    | zero => rw [tget_twrite_out _ _ _ _ (by omega)]; simp
    | succ j =>
      have := ih (tset 0 m a b) (a + 1) j (by simpa using h)
      rw [show a + (j + 1) = a + 1 + j by omega, this]; rfl

@[simp] theorem tread_length (m : Tab Byte) (a n : Nat) : (tread m a n).length = n := by
  induction n generalizing a with
  | zero => rfl
  | succ n ih => simp [tread, ih]

/-- Bytes stored read back. -/
theorem tread_twrite (m : Tab Byte) (a : Nat) (l : Bytes) : tread (twrite m a l) a l.length = l := by
  have : ∀ (k : Nat) (l : Bytes) (m : Tab Byte) (a : Nat), l.length = k → tread (twrite m a l) a k = l := by
    intro k
    induction k with
    | zero => intro l m a h; simp at h; subst h; rfl
    | succ k ih =>
      intro l m a h
      cases l with
      | nil => simp at h
      | cons b r =>
        simp only [tread]
        rw [twrite, tget_twrite_out _ _ _ _ (by omega), tget_tset_same, ih r _ _ (by simpa using h)]
  exact this _ _ _ _ rfl

end Sys2Proof.Machine
end

