-- ==== Sys2Proof/Laws/Flash.lean ====
section
/-! SUPPORT. A commit unit that is written reads back, whatever the scrambling sequence and the parity are (R335, R341). -/

namespace Sys2Proof.Machine

@[simp] theorem scramble_length (a off : Nat) (d : Bytes) : (scramble a off d).length = d.length := by simp [scramble]

/-- Scrambling twice restores the data. -/
theorem scramble_scramble (a off : Nat) (d : Bytes) : scramble a off (scramble a off d) = d :=
  List.ext_getElem (by simp) fun k h1 h2 => by
    simp only [scramble, List.getElem_map, List.getElem_zip, List.getElem_range, BitVec.xor_assoc, BitVec.xor_self, BitVec.xor_zero]

/-- The data of a codeword that was encoded. -/
theorem cwData_encode (a k : Nat) (data info : Bytes) : cwData a k (cwEncode a k data info) = slice data 0 4096 := by
  have h : slice (cwEncode a k data info) 0 4096 = scramble a (4096 * k) (slice data 0 4096) := by
    simp only [cwEncode, List.append_assoc]
    exact slice_mid [] _ _ 0 4096 rfl (by simp)
  rw [cwData, h, scramble_scramble]

/-- The data of a page that was programmed. -/
theorem pageRead_make (a : Nat) (info data : Bytes) : pageRead a (pageMake a info data) = some (slice data 0 16384) := by
  have h : ∀ k ∈ List.range 4, cwData a k ((pageMake a info data).cws.getD k []) = slice data (4096 * k) 4096 := by
    intro k hk
    have hk := List.mem_range.1 hk
    rw [show (pageMake a info data).cws.getD k [] = cwEncode a k (slice data (4096 * k) 4096) (if k = 0 then info else []) by
      simp [pageMake, hk], cwData_encode, slice_slice _ _ _ _ _ (by omega), Nat.add_zero]
  have hs := List.flatMap_congr h
  rw [pageRead, hs, slice_chunks]
  simp [pageMake]

/-- The page at a key, after pages with other keys and one with this. -/
theorem pages_put (l : List (Nat × FPage)) (t : Tab FPage) (hd : (l.map fun e => e.1).Nodup) {k : Nat} {p : FPage} (h : (k, p) ∈ l) :
    tget fpage0 (l.foldl (fun t e => tset fpage0 t e.1 e.2) t) k = p := by
  have hother : ∀ (l : List (Nat × FPage)) (t : Tab FPage), k ∉ l.map (fun e => e.1) →
      tget fpage0 (l.foldl (fun t e => tset fpage0 t e.1 e.2) t) k = tget fpage0 t k := by
    intro l
    induction l with
    | nil => intro t _; rfl
    | cons e l ih =>
      intro t hn
      simp only [List.map_cons, List.mem_cons, not_or] at hn
      rw [List.foldl_cons, ih _ hn.2, tget_tset_other _ _ _ (Ne.symm hn.1)]
  induction l generalizing t with
  | nil => cases h
  | cons e l ih =>
    simp only [List.map_cons, List.nodup_cons] at hd
    rcases List.mem_cons.1 h with rfl | h
    · rw [List.foldl_cons, hother _ _ hd.1, tget_tset_same]
    · exact ih _ hd.2 h

/-- The pages of a unit have different keys. -/
theorem fUnitImage_nodup (gt : Nat) (u : FUnit) (body : Bytes) : ((fUnitImage gt u body).map fun e => e.1).Nodup := by
  have h : ((fUnitImage gt u body).map fun e => e.1) = (List.range (u.pages + 1)).map (pgKey u.blk) := by
    simp [fUnitImage, List.range_succ, Function.comp_def]
  rw [h]
  exact List.Nodup.map (fun i j hij => by simpa [pgKey] using hij) List.nodup_range

/-- Reading a unit depends on the pages alone. -/
theorem fUnitRead_congr {s t : State} (h : t.flash.pages = s.flash.pages) (u : FUnit) : fUnitRead t u = fUnitRead s u := by
  simp only [fUnitRead, pageGet, h]

/-- A field of the mark trailer, as the mark page gives it back. -/
theorem mark_field (a b c : Bytes) (i n : Nat) (hi : a.length = i) (hn : b.length = n) (h : i + n ≤ 16384) :
    slice (slice (a ++ b ++ c) 0 16384) i n = b := by
  rw [slice_slice _ _ _ _ _ h, Nat.zero_add, slice_mid _ _ _ _ _ hi hn]

/-- What a unit's block holds after it was written reads back as its SEQ and body. -/
theorem fUnitRead_write (s : State) (u : FUnit) (body : Bytes) (hp : u.pages = fUnitPages body) (hn : u.pages < 65536) (hq : u.seq < 2 ^ 64)
    (hl : body.length < 2 ^ 64) : fUnitRead (fUnitWrite s u body) u = some (u.seq, body) := by
  obtain ⟨g, t, hpages⟩ : ∃ g t, (fUnitWrite s u body).flash.pages = (fUnitImage g u body).foldl (fun t e => tset fpage0 t e.1 e.2) t := by
    unfold fUnitWrite; exact ⟨_, _, rfl⟩
  have hget : ∀ k p, (k, p) ∈ fUnitImage g u body → pageGet (fUnitWrite s u body) k = p := by
    intro k p h; rw [pageGet, hpages]; exact pages_put _ _ (fUnitImage_nodup _ _ _) h
  have hm := hget (pgKey u.blk u.pages) _ (List.mem_append_right _ (List.mem_singleton.2 rfl))
  have hd : ∀ i ∈ List.range u.pages, pageRead (pgKey u.blk i) (pageGet (fUnitWrite s u body) (pgKey u.blk i)) = some (slice body (16384 * i) 16384) := by
    intro i hi
    rw [hget _ _ (List.mem_append_left _ (List.mem_map.2 ⟨i, hi, rfl⟩)), pageRead_make, slice_slice _ _ _ _ _ (by omega), Nat.add_zero]
  have hds : (List.range u.pages).mapM (fun i => pageRead (pgKey u.blk i) (pageGet (fUnitWrite s u body) (pgKey u.blk i))) =
      some ((List.range u.pages).map fun i => slice body (16384 * i) 16384) := by
    have : ∀ l : List Nat, (∀ i ∈ l, i ∈ List.range u.pages) →
        l.mapM (fun i => pageRead (pgKey u.blk i) (pageGet (fUnitWrite s u body) (pgKey u.blk i))) = some (l.map fun i => slice body (16384 * i) 16384) := by
      intro l
      induction l with
      | nil => intro _; rfl
      | cons i l ih =>
        intro h
        rw [List.mapM_cons, hd i (h i (by simp)), ih fun j hj => h j (by simp [hj])]; rfl
    exact this _ fun _ h => h
  have hbody : (((List.range u.pages).map fun i => slice body (16384 * i) 16384).flatten).take body.length = body := by
    rw [← List.flatMap_def, slice_chunks]
    refine slice_take _ _ ?_
    rw [hp, fUnitPages, cdiv]
    have := Nat.div_add_mod (body.length + 16384 - 1) 16384
    have := Nat.mod_lt (body.length + 16384 - 1) (show 0 < 16384 by omega)
    have := Nat.le_max_right 1 ((body.length + 16384 - 1) / 16384)
    have h4 := Nat.mul_le_mul_left 16384 this
    omega
  have e0 : leAt (slice (fUnitMark g u body) 0 16384) 0 4 = 0x4B52414D := by
    have h := mark_field [] (leBytes 4 0x4B52414D) (leBytes 1 u.kind ++ leBytes 1 u.copy ++ leBytes 2 u.pages ++ leBytes 8 u.seq ++
      leBytes 8 body.length ++ leBytes 8 g ++ digest64 body ++ leBytes 32 0) 0 4 rfl (by simp) (by omega)
    simp only [leAt, fUnitMark, List.append_assoc, List.nil_append] at h ⊢
    rw [h]; rfl
  have e1 : leAt (slice (fUnitMark g u body) 0 16384) 6 2 = u.pages := by
    have h := mark_field (leBytes 4 0x4B52414D ++ leBytes 1 u.kind ++ leBytes 1 u.copy) (leBytes 2 u.pages) (leBytes 8 u.seq ++
      leBytes 8 body.length ++ leBytes 8 g ++ digest64 body ++ leBytes 32 0) 6 2 (by simp) (by simp) (by omega)
    simp only [leAt, fUnitMark, List.append_assoc] at h ⊢
    rw [h, leNat_leBytes, Nat.mod_eq_of_lt (by omega)]
  have e2 : leAt (slice (fUnitMark g u body) 0 16384) 8 8 = u.seq := by
    have h := mark_field (leBytes 4 0x4B52414D ++ leBytes 1 u.kind ++ leBytes 1 u.copy ++ leBytes 2 u.pages) (leBytes 8 u.seq) (
      leBytes 8 body.length ++ leBytes 8 g ++ digest64 body ++ leBytes 32 0) 8 8 (by simp) (by simp) (by omega)
    simp only [leAt, fUnitMark, List.append_assoc] at h ⊢
    rw [h, leNat_leBytes, Nat.mod_eq_of_lt (by omega)]
  have e3 : leAt (slice (fUnitMark g u body) 0 16384) 16 8 = body.length := by
    have h := mark_field (leBytes 4 0x4B52414D ++ leBytes 1 u.kind ++ leBytes 1 u.copy ++ leBytes 2 u.pages ++ leBytes 8 u.seq) (leBytes 8 body.length)
      (leBytes 8 g ++ digest64 body ++ leBytes 32 0) 16 8 (by simp) (by simp) (by omega)
    simp only [leAt, fUnitMark, List.append_assoc] at h ⊢
    rw [h, leNat_leBytes, Nat.mod_eq_of_lt (by omega)]
  have e4 : slice (slice (fUnitMark g u body) 0 16384) 32 64 = digest64 body := by
    have h := mark_field (leBytes 4 0x4B52414D ++ leBytes 1 u.kind ++ leBytes 1 u.copy ++ leBytes 2 u.pages ++ leBytes 8 u.seq ++ leBytes 8 body.length ++
      leBytes 8 g) (digest64 body) (leBytes 32 0) 32 64 (by simp) (by simp) (by omega)
    simp only [fUnitMark, List.append_assoc] at h ⊢
    exact h
  simp only [fUnitRead, hm, pageRead_make, hds, e0, e1, e2, e3, e4, hbody, ne_eq, not_true_eq_false, or_self, if_false, if_true]

end Sys2Proof.Machine
end

