-- ==== Sys2Proof/Laws/State.lean ====
section
/-! SUPPORT. What each elementary update leaves: one lemma per field, so that no later proof unfolds a record update. -/

namespace Sys2Proof.Machine

variable (s : State)

/-! ### rgw -/

@[simp] theorem rgw_pending (a v : Nat) : (rgw s a v).pending = s.pending := rfl
@[simp] theorem rgw_freeCtr (a v : Nat) : (rgw s a v).freeCtr = s.freeCtr := rfl
@[simp] theorem rgw_gt (a v : Nat) : (rgw s a v).gt = s.gt := rfl
@[simp] theorem rgw_reply (a v : Nat) : (rgw s a v).reply = s.reply := rfl
@[simp] theorem rgw_mem (a v : Nat) : (rgw s a v).mem = s.mem := rfl
@[simp] theorem rgw_xbuf (a v : Nat) : (rgw s a v).xbuf = s.xbuf := rfl
@[simp] theorem rgw_frac (a v : Nat) : (rgw s a v).frac = s.frac := rfl
@[simp] theorem rgw_rq (a v : Nat) : (rgw s a v).rq = s.rq := rfl
@[simp] theorem rgw_obs (a v : Nat) : (rgw s a v).obs = s.obs := rfl
@[simp] theorem rgw_smpIn (a v : Nat) : (rgw s a v).smpIn = s.smpIn := rfl
@[simp] theorem rgw_frames (a v : Nat) : (rgw s a v).frames = s.frames := rfl
@[simp] theorem rgw_pipes (a v : Nat) : (rgw s a v).pipes = s.pipes := rfl
@[simp] theorem rgw_subs (a v : Nat) : (rgw s a v).subs = s.subs := rfl
@[simp] theorem rgw_stamps (a v : Nat) : (rgw s a v).stamps = s.stamps := rfl
@[simp] theorem rgw_arrivals (a v : Nat) : (rgw s a v).arrivals = s.arrivals := rfl
@[simp] theorem rgw_weave (a v : Nat) : (rgw s a v).weave = s.weave := rfl
@[simp] theorem rgw_shares (a v : Nat) : (rgw s a v).shares = s.shares := rfl
@[simp] theorem rgw_uids (a v : Nat) : (rgw s a v).uids = s.uids := rfl
@[simp] theorem rgw_vds (a v : Nat) : (rgw s a v).vds = s.vds := rfl
@[simp] theorem rgw_tms (a v : Nat) : (rgw s a v).tms = s.tms := rfl
@[simp] theorem rgw_jrnl (a v : Nat) : (rgw s a v).jrnl = s.jrnl := rfl
@[simp] theorem rgw_jorder (a v : Nat) : (rgw s a v).jorder = s.jorder := rfl
@[simp] theorem rgw_pl (a v : Nat) : (rgw s a v).pl = s.pl := rfl
@[simp] theorem rgw_tiles (a v : Nat) : (rgw s a v).tiles = s.tiles := rfl
@[simp] theorem rgw_ctxs (a v : Nat) : (rgw s a v).ctxs = s.ctxs := rfl
@[simp] theorem rgw_knots (a v : Nat) : (rgw s a v).knots = s.knots := rfl
@[simp] theorem rgw_latches (a v : Nat) : (rgw s a v).latches = s.latches := rfl
@[simp] theorem rgw_faults (a v : Nat) : (rgw s a v).faults = s.faults := rfl
@[simp] theorem rgw_sites (a v : Nat) : (rgw s a v).sites = s.sites := rfl
@[simp] theorem rgw_flt (a v : Nat) : (rgw s a v).flt = s.flt := rfl
@[simp] theorem rgw_spares (a v : Nat) : (rgw s a v).spares = s.spares := rfl
@[simp] theorem rgw_sessions (a v : Nat) : (rgw s a v).sessions = s.sessions := rfl
@[simp] theorem rgw_slots (a v : Nat) : (rgw s a v).slots = s.slots := rfl
@[simp] theorem rgw_bad (a v : Nat) : (rgw s a v).bad = s.bad := rfl
@[simp] theorem rgw_carried (a v : Nat) : (rgw s a v).carried = s.carried := rfl
@[simp] theorem rgw_pwr (a v : Nat) : (rgw s a v).pwr = s.pwr := rfl
@[simp] theorem rgw_bank (a v : Nat) : (rgw s a v).bank = s.bank := rfl
@[simp] theorem rgw_gens (a v : Nat) : (rgw s a v).gens = s.gens := rfl
@[simp] theorem rgw_mbox (a v : Nat) : (rgw s a v).mbox = s.mbox := rfl
@[simp] theorem rgw_boot (a v : Nat) : (rgw s a v).boot = s.boot := rfl
@[simp] theorem rgw_wv (a v : Nat) : (rgw s a v).wv = s.wv := rfl
@[simp] theorem rgw_flash (a v : Nat) : (rgw s a v).flash = s.flash := rfl
@[simp] theorem rgw_smp (a v : Nat) : (rgw s a v).smp = s.smp := rfl
@[simp] theorem rgw_life (a v : Nat) : (rgw s a v).life = s.life := rfl
@[simp] theorem rgw_hp (a v : Nat) : (rgw s a v).hp = s.hp := rfl
@[simp] theorem rgw_lp (a v : Nat) : (rgw s a v).lp = s.lp := rfl
@[simp] theorem rgw_time (a v : Nat) : (rgw s a v).time = s.time := rfl
@[simp] theorem rgw_epochAt (a v : Nat) : (rgw s a v).epochAt = s.epochAt := rfl
@[simp] theorem rgw_epochCause (a v : Nat) : (rgw s a v).epochCause = s.epochCause := rfl

/-! ### rgwf -/

@[simp] theorem rgwf_pending (a hi lo v : Nat) : (rgwf s a hi lo v).pending = s.pending := rfl
@[simp] theorem rgwf_freeCtr (a hi lo v : Nat) : (rgwf s a hi lo v).freeCtr = s.freeCtr := rfl
@[simp] theorem rgwf_gt (a hi lo v : Nat) : (rgwf s a hi lo v).gt = s.gt := rfl
@[simp] theorem rgwf_reply (a hi lo v : Nat) : (rgwf s a hi lo v).reply = s.reply := rfl
@[simp] theorem rgwf_mem (a hi lo v : Nat) : (rgwf s a hi lo v).mem = s.mem := rfl
@[simp] theorem rgwf_xbuf (a hi lo v : Nat) : (rgwf s a hi lo v).xbuf = s.xbuf := rfl
@[simp] theorem rgwf_frac (a hi lo v : Nat) : (rgwf s a hi lo v).frac = s.frac := rfl
@[simp] theorem rgwf_rq (a hi lo v : Nat) : (rgwf s a hi lo v).rq = s.rq := rfl
@[simp] theorem rgwf_obs (a hi lo v : Nat) : (rgwf s a hi lo v).obs = s.obs := rfl
@[simp] theorem rgwf_smpIn (a hi lo v : Nat) : (rgwf s a hi lo v).smpIn = s.smpIn := rfl
@[simp] theorem rgwf_frames (a hi lo v : Nat) : (rgwf s a hi lo v).frames = s.frames := rfl
@[simp] theorem rgwf_pipes (a hi lo v : Nat) : (rgwf s a hi lo v).pipes = s.pipes := rfl
@[simp] theorem rgwf_subs (a hi lo v : Nat) : (rgwf s a hi lo v).subs = s.subs := rfl
@[simp] theorem rgwf_stamps (a hi lo v : Nat) : (rgwf s a hi lo v).stamps = s.stamps := rfl
@[simp] theorem rgwf_arrivals (a hi lo v : Nat) : (rgwf s a hi lo v).arrivals = s.arrivals := rfl
@[simp] theorem rgwf_weave (a hi lo v : Nat) : (rgwf s a hi lo v).weave = s.weave := rfl
@[simp] theorem rgwf_shares (a hi lo v : Nat) : (rgwf s a hi lo v).shares = s.shares := rfl
@[simp] theorem rgwf_uids (a hi lo v : Nat) : (rgwf s a hi lo v).uids = s.uids := rfl
@[simp] theorem rgwf_vds (a hi lo v : Nat) : (rgwf s a hi lo v).vds = s.vds := rfl
@[simp] theorem rgwf_tms (a hi lo v : Nat) : (rgwf s a hi lo v).tms = s.tms := rfl
@[simp] theorem rgwf_jrnl (a hi lo v : Nat) : (rgwf s a hi lo v).jrnl = s.jrnl := rfl
@[simp] theorem rgwf_jorder (a hi lo v : Nat) : (rgwf s a hi lo v).jorder = s.jorder := rfl
@[simp] theorem rgwf_pl (a hi lo v : Nat) : (rgwf s a hi lo v).pl = s.pl := rfl
@[simp] theorem rgwf_tiles (a hi lo v : Nat) : (rgwf s a hi lo v).tiles = s.tiles := rfl
@[simp] theorem rgwf_ctxs (a hi lo v : Nat) : (rgwf s a hi lo v).ctxs = s.ctxs := rfl
@[simp] theorem rgwf_knots (a hi lo v : Nat) : (rgwf s a hi lo v).knots = s.knots := rfl
@[simp] theorem rgwf_latches (a hi lo v : Nat) : (rgwf s a hi lo v).latches = s.latches := rfl
@[simp] theorem rgwf_faults (a hi lo v : Nat) : (rgwf s a hi lo v).faults = s.faults := rfl
@[simp] theorem rgwf_sites (a hi lo v : Nat) : (rgwf s a hi lo v).sites = s.sites := rfl
@[simp] theorem rgwf_flt (a hi lo v : Nat) : (rgwf s a hi lo v).flt = s.flt := rfl
@[simp] theorem rgwf_spares (a hi lo v : Nat) : (rgwf s a hi lo v).spares = s.spares := rfl
@[simp] theorem rgwf_sessions (a hi lo v : Nat) : (rgwf s a hi lo v).sessions = s.sessions := rfl
@[simp] theorem rgwf_slots (a hi lo v : Nat) : (rgwf s a hi lo v).slots = s.slots := rfl
@[simp] theorem rgwf_bad (a hi lo v : Nat) : (rgwf s a hi lo v).bad = s.bad := rfl
@[simp] theorem rgwf_carried (a hi lo v : Nat) : (rgwf s a hi lo v).carried = s.carried := rfl
@[simp] theorem rgwf_pwr (a hi lo v : Nat) : (rgwf s a hi lo v).pwr = s.pwr := rfl
@[simp] theorem rgwf_bank (a hi lo v : Nat) : (rgwf s a hi lo v).bank = s.bank := rfl
@[simp] theorem rgwf_gens (a hi lo v : Nat) : (rgwf s a hi lo v).gens = s.gens := rfl
@[simp] theorem rgwf_mbox (a hi lo v : Nat) : (rgwf s a hi lo v).mbox = s.mbox := rfl
@[simp] theorem rgwf_boot (a hi lo v : Nat) : (rgwf s a hi lo v).boot = s.boot := rfl
@[simp] theorem rgwf_wv (a hi lo v : Nat) : (rgwf s a hi lo v).wv = s.wv := rfl
@[simp] theorem rgwf_flash (a hi lo v : Nat) : (rgwf s a hi lo v).flash = s.flash := rfl
@[simp] theorem rgwf_smp (a hi lo v : Nat) : (rgwf s a hi lo v).smp = s.smp := rfl
@[simp] theorem rgwf_life (a hi lo v : Nat) : (rgwf s a hi lo v).life = s.life := rfl
@[simp] theorem rgwf_hp (a hi lo v : Nat) : (rgwf s a hi lo v).hp = s.hp := rfl
@[simp] theorem rgwf_lp (a hi lo v : Nat) : (rgwf s a hi lo v).lp = s.lp := rfl
@[simp] theorem rgwf_time (a hi lo v : Nat) : (rgwf s a hi lo v).time = s.time := rfl
@[simp] theorem rgwf_epochAt (a hi lo v : Nat) : (rgwf s a hi lo v).epochAt = s.epochAt := rfl
@[simp] theorem rgwf_epochCause (a hi lo v : Nat) : (rgwf s a hi lo v).epochCause = s.epochCause := rfl

/-! ### rgwb -/

@[simp] theorem rgwb_pending (a i : Nat) (v : Bool) : (rgwb s a i v).pending = s.pending := rfl
@[simp] theorem rgwb_freeCtr (a i : Nat) (v : Bool) : (rgwb s a i v).freeCtr = s.freeCtr := rfl
@[simp] theorem rgwb_gt (a i : Nat) (v : Bool) : (rgwb s a i v).gt = s.gt := rfl
@[simp] theorem rgwb_reply (a i : Nat) (v : Bool) : (rgwb s a i v).reply = s.reply := rfl
@[simp] theorem rgwb_mem (a i : Nat) (v : Bool) : (rgwb s a i v).mem = s.mem := rfl
@[simp] theorem rgwb_xbuf (a i : Nat) (v : Bool) : (rgwb s a i v).xbuf = s.xbuf := rfl
@[simp] theorem rgwb_frac (a i : Nat) (v : Bool) : (rgwb s a i v).frac = s.frac := rfl
@[simp] theorem rgwb_rq (a i : Nat) (v : Bool) : (rgwb s a i v).rq = s.rq := rfl
@[simp] theorem rgwb_obs (a i : Nat) (v : Bool) : (rgwb s a i v).obs = s.obs := rfl
@[simp] theorem rgwb_smpIn (a i : Nat) (v : Bool) : (rgwb s a i v).smpIn = s.smpIn := rfl
@[simp] theorem rgwb_frames (a i : Nat) (v : Bool) : (rgwb s a i v).frames = s.frames := rfl
@[simp] theorem rgwb_pipes (a i : Nat) (v : Bool) : (rgwb s a i v).pipes = s.pipes := rfl
@[simp] theorem rgwb_subs (a i : Nat) (v : Bool) : (rgwb s a i v).subs = s.subs := rfl
@[simp] theorem rgwb_stamps (a i : Nat) (v : Bool) : (rgwb s a i v).stamps = s.stamps := rfl
@[simp] theorem rgwb_arrivals (a i : Nat) (v : Bool) : (rgwb s a i v).arrivals = s.arrivals := rfl
@[simp] theorem rgwb_weave (a i : Nat) (v : Bool) : (rgwb s a i v).weave = s.weave := rfl
@[simp] theorem rgwb_shares (a i : Nat) (v : Bool) : (rgwb s a i v).shares = s.shares := rfl
@[simp] theorem rgwb_uids (a i : Nat) (v : Bool) : (rgwb s a i v).uids = s.uids := rfl
@[simp] theorem rgwb_vds (a i : Nat) (v : Bool) : (rgwb s a i v).vds = s.vds := rfl
@[simp] theorem rgwb_tms (a i : Nat) (v : Bool) : (rgwb s a i v).tms = s.tms := rfl
@[simp] theorem rgwb_jrnl (a i : Nat) (v : Bool) : (rgwb s a i v).jrnl = s.jrnl := rfl
@[simp] theorem rgwb_jorder (a i : Nat) (v : Bool) : (rgwb s a i v).jorder = s.jorder := rfl
@[simp] theorem rgwb_pl (a i : Nat) (v : Bool) : (rgwb s a i v).pl = s.pl := rfl
@[simp] theorem rgwb_tiles (a i : Nat) (v : Bool) : (rgwb s a i v).tiles = s.tiles := rfl
@[simp] theorem rgwb_ctxs (a i : Nat) (v : Bool) : (rgwb s a i v).ctxs = s.ctxs := rfl
@[simp] theorem rgwb_knots (a i : Nat) (v : Bool) : (rgwb s a i v).knots = s.knots := rfl
@[simp] theorem rgwb_latches (a i : Nat) (v : Bool) : (rgwb s a i v).latches = s.latches := rfl
@[simp] theorem rgwb_faults (a i : Nat) (v : Bool) : (rgwb s a i v).faults = s.faults := rfl
@[simp] theorem rgwb_sites (a i : Nat) (v : Bool) : (rgwb s a i v).sites = s.sites := rfl
@[simp] theorem rgwb_flt (a i : Nat) (v : Bool) : (rgwb s a i v).flt = s.flt := rfl
@[simp] theorem rgwb_spares (a i : Nat) (v : Bool) : (rgwb s a i v).spares = s.spares := rfl
@[simp] theorem rgwb_sessions (a i : Nat) (v : Bool) : (rgwb s a i v).sessions = s.sessions := rfl
@[simp] theorem rgwb_slots (a i : Nat) (v : Bool) : (rgwb s a i v).slots = s.slots := rfl
@[simp] theorem rgwb_bad (a i : Nat) (v : Bool) : (rgwb s a i v).bad = s.bad := rfl
@[simp] theorem rgwb_carried (a i : Nat) (v : Bool) : (rgwb s a i v).carried = s.carried := rfl
@[simp] theorem rgwb_pwr (a i : Nat) (v : Bool) : (rgwb s a i v).pwr = s.pwr := rfl
@[simp] theorem rgwb_bank (a i : Nat) (v : Bool) : (rgwb s a i v).bank = s.bank := rfl
@[simp] theorem rgwb_gens (a i : Nat) (v : Bool) : (rgwb s a i v).gens = s.gens := rfl
@[simp] theorem rgwb_mbox (a i : Nat) (v : Bool) : (rgwb s a i v).mbox = s.mbox := rfl
@[simp] theorem rgwb_boot (a i : Nat) (v : Bool) : (rgwb s a i v).boot = s.boot := rfl
@[simp] theorem rgwb_wv (a i : Nat) (v : Bool) : (rgwb s a i v).wv = s.wv := rfl
@[simp] theorem rgwb_flash (a i : Nat) (v : Bool) : (rgwb s a i v).flash = s.flash := rfl
@[simp] theorem rgwb_smp (a i : Nat) (v : Bool) : (rgwb s a i v).smp = s.smp := rfl
@[simp] theorem rgwb_life (a i : Nat) (v : Bool) : (rgwb s a i v).life = s.life := rfl
@[simp] theorem rgwb_hp (a i : Nat) (v : Bool) : (rgwb s a i v).hp = s.hp := rfl
@[simp] theorem rgwb_lp (a i : Nat) (v : Bool) : (rgwb s a i v).lp = s.lp := rfl
@[simp] theorem rgwb_time (a i : Nat) (v : Bool) : (rgwb s a i v).time = s.time := rfl
@[simp] theorem rgwb_epochAt (a i : Nat) (v : Bool) : (rgwb s a i v).epochAt = s.epochAt := rfl
@[simp] theorem rgwb_epochCause (a i : Nat) (v : Bool) : (rgwb s a i v).epochCause = s.epochCause := rfl

/-! ### bumpN -/

@[simp] theorem bumpN_pending (a n : Nat) : (bumpN s a n).pending = s.pending := rfl
@[simp] theorem bumpN_freeCtr (a n : Nat) : (bumpN s a n).freeCtr = s.freeCtr := rfl
@[simp] theorem bumpN_gt (a n : Nat) : (bumpN s a n).gt = s.gt := rfl
@[simp] theorem bumpN_reply (a n : Nat) : (bumpN s a n).reply = s.reply := rfl
@[simp] theorem bumpN_mem (a n : Nat) : (bumpN s a n).mem = s.mem := rfl
@[simp] theorem bumpN_xbuf (a n : Nat) : (bumpN s a n).xbuf = s.xbuf := rfl
@[simp] theorem bumpN_frac (a n : Nat) : (bumpN s a n).frac = s.frac := rfl
@[simp] theorem bumpN_rq (a n : Nat) : (bumpN s a n).rq = s.rq := rfl
@[simp] theorem bumpN_obs (a n : Nat) : (bumpN s a n).obs = s.obs := rfl
@[simp] theorem bumpN_smpIn (a n : Nat) : (bumpN s a n).smpIn = s.smpIn := rfl
@[simp] theorem bumpN_frames (a n : Nat) : (bumpN s a n).frames = s.frames := rfl
@[simp] theorem bumpN_pipes (a n : Nat) : (bumpN s a n).pipes = s.pipes := rfl
@[simp] theorem bumpN_subs (a n : Nat) : (bumpN s a n).subs = s.subs := rfl
@[simp] theorem bumpN_stamps (a n : Nat) : (bumpN s a n).stamps = s.stamps := rfl
@[simp] theorem bumpN_arrivals (a n : Nat) : (bumpN s a n).arrivals = s.arrivals := rfl
@[simp] theorem bumpN_weave (a n : Nat) : (bumpN s a n).weave = s.weave := rfl
@[simp] theorem bumpN_shares (a n : Nat) : (bumpN s a n).shares = s.shares := rfl
@[simp] theorem bumpN_uids (a n : Nat) : (bumpN s a n).uids = s.uids := rfl
@[simp] theorem bumpN_vds (a n : Nat) : (bumpN s a n).vds = s.vds := rfl
@[simp] theorem bumpN_tms (a n : Nat) : (bumpN s a n).tms = s.tms := rfl
@[simp] theorem bumpN_jrnl (a n : Nat) : (bumpN s a n).jrnl = s.jrnl := rfl
@[simp] theorem bumpN_jorder (a n : Nat) : (bumpN s a n).jorder = s.jorder := rfl
@[simp] theorem bumpN_pl (a n : Nat) : (bumpN s a n).pl = s.pl := rfl
@[simp] theorem bumpN_tiles (a n : Nat) : (bumpN s a n).tiles = s.tiles := rfl
@[simp] theorem bumpN_ctxs (a n : Nat) : (bumpN s a n).ctxs = s.ctxs := rfl
@[simp] theorem bumpN_knots (a n : Nat) : (bumpN s a n).knots = s.knots := rfl
@[simp] theorem bumpN_latches (a n : Nat) : (bumpN s a n).latches = s.latches := rfl
@[simp] theorem bumpN_faults (a n : Nat) : (bumpN s a n).faults = s.faults := rfl
@[simp] theorem bumpN_sites (a n : Nat) : (bumpN s a n).sites = s.sites := rfl
@[simp] theorem bumpN_flt (a n : Nat) : (bumpN s a n).flt = s.flt := rfl
@[simp] theorem bumpN_spares (a n : Nat) : (bumpN s a n).spares = s.spares := rfl
@[simp] theorem bumpN_sessions (a n : Nat) : (bumpN s a n).sessions = s.sessions := rfl
@[simp] theorem bumpN_slots (a n : Nat) : (bumpN s a n).slots = s.slots := rfl
@[simp] theorem bumpN_bad (a n : Nat) : (bumpN s a n).bad = s.bad := rfl
@[simp] theorem bumpN_carried (a n : Nat) : (bumpN s a n).carried = s.carried := rfl
@[simp] theorem bumpN_pwr (a n : Nat) : (bumpN s a n).pwr = s.pwr := rfl
@[simp] theorem bumpN_bank (a n : Nat) : (bumpN s a n).bank = s.bank := rfl
@[simp] theorem bumpN_gens (a n : Nat) : (bumpN s a n).gens = s.gens := rfl
@[simp] theorem bumpN_mbox (a n : Nat) : (bumpN s a n).mbox = s.mbox := rfl
@[simp] theorem bumpN_boot (a n : Nat) : (bumpN s a n).boot = s.boot := rfl
@[simp] theorem bumpN_wv (a n : Nat) : (bumpN s a n).wv = s.wv := rfl
@[simp] theorem bumpN_flash (a n : Nat) : (bumpN s a n).flash = s.flash := rfl
@[simp] theorem bumpN_smp (a n : Nat) : (bumpN s a n).smp = s.smp := rfl
@[simp] theorem bumpN_life (a n : Nat) : (bumpN s a n).life = s.life := rfl
@[simp] theorem bumpN_hp (a n : Nat) : (bumpN s a n).hp = s.hp := rfl
@[simp] theorem bumpN_lp (a n : Nat) : (bumpN s a n).lp = s.lp := rfl
@[simp] theorem bumpN_time (a n : Nat) : (bumpN s a n).time = s.time := rfl
@[simp] theorem bumpN_epochAt (a n : Nat) : (bumpN s a n).epochAt = s.epochAt := rfl
@[simp] theorem bumpN_epochCause (a n : Nat) : (bumpN s a n).epochCause = s.epochCause := rfl

/-! ### bump -/

@[simp] theorem bump_pending (a : Nat) : (bump s a).pending = s.pending := rfl
@[simp] theorem bump_freeCtr (a : Nat) : (bump s a).freeCtr = s.freeCtr := rfl
@[simp] theorem bump_gt (a : Nat) : (bump s a).gt = s.gt := rfl
@[simp] theorem bump_reply (a : Nat) : (bump s a).reply = s.reply := rfl
@[simp] theorem bump_mem (a : Nat) : (bump s a).mem = s.mem := rfl
@[simp] theorem bump_xbuf (a : Nat) : (bump s a).xbuf = s.xbuf := rfl
@[simp] theorem bump_frac (a : Nat) : (bump s a).frac = s.frac := rfl
@[simp] theorem bump_rq (a : Nat) : (bump s a).rq = s.rq := rfl
@[simp] theorem bump_obs (a : Nat) : (bump s a).obs = s.obs := rfl
@[simp] theorem bump_smpIn (a : Nat) : (bump s a).smpIn = s.smpIn := rfl
@[simp] theorem bump_frames (a : Nat) : (bump s a).frames = s.frames := rfl
@[simp] theorem bump_pipes (a : Nat) : (bump s a).pipes = s.pipes := rfl
@[simp] theorem bump_subs (a : Nat) : (bump s a).subs = s.subs := rfl
@[simp] theorem bump_stamps (a : Nat) : (bump s a).stamps = s.stamps := rfl
@[simp] theorem bump_arrivals (a : Nat) : (bump s a).arrivals = s.arrivals := rfl
@[simp] theorem bump_weave (a : Nat) : (bump s a).weave = s.weave := rfl
@[simp] theorem bump_shares (a : Nat) : (bump s a).shares = s.shares := rfl
@[simp] theorem bump_uids (a : Nat) : (bump s a).uids = s.uids := rfl
@[simp] theorem bump_vds (a : Nat) : (bump s a).vds = s.vds := rfl
@[simp] theorem bump_tms (a : Nat) : (bump s a).tms = s.tms := rfl
@[simp] theorem bump_jrnl (a : Nat) : (bump s a).jrnl = s.jrnl := rfl
@[simp] theorem bump_jorder (a : Nat) : (bump s a).jorder = s.jorder := rfl
@[simp] theorem bump_pl (a : Nat) : (bump s a).pl = s.pl := rfl
@[simp] theorem bump_tiles (a : Nat) : (bump s a).tiles = s.tiles := rfl
@[simp] theorem bump_ctxs (a : Nat) : (bump s a).ctxs = s.ctxs := rfl
@[simp] theorem bump_knots (a : Nat) : (bump s a).knots = s.knots := rfl
@[simp] theorem bump_latches (a : Nat) : (bump s a).latches = s.latches := rfl
@[simp] theorem bump_faults (a : Nat) : (bump s a).faults = s.faults := rfl
@[simp] theorem bump_sites (a : Nat) : (bump s a).sites = s.sites := rfl
@[simp] theorem bump_flt (a : Nat) : (bump s a).flt = s.flt := rfl
@[simp] theorem bump_spares (a : Nat) : (bump s a).spares = s.spares := rfl
@[simp] theorem bump_sessions (a : Nat) : (bump s a).sessions = s.sessions := rfl
@[simp] theorem bump_slots (a : Nat) : (bump s a).slots = s.slots := rfl
@[simp] theorem bump_bad (a : Nat) : (bump s a).bad = s.bad := rfl
@[simp] theorem bump_carried (a : Nat) : (bump s a).carried = s.carried := rfl
@[simp] theorem bump_pwr (a : Nat) : (bump s a).pwr = s.pwr := rfl
@[simp] theorem bump_bank (a : Nat) : (bump s a).bank = s.bank := rfl
@[simp] theorem bump_gens (a : Nat) : (bump s a).gens = s.gens := rfl
@[simp] theorem bump_mbox (a : Nat) : (bump s a).mbox = s.mbox := rfl
@[simp] theorem bump_boot (a : Nat) : (bump s a).boot = s.boot := rfl
@[simp] theorem bump_wv (a : Nat) : (bump s a).wv = s.wv := rfl
@[simp] theorem bump_flash (a : Nat) : (bump s a).flash = s.flash := rfl
@[simp] theorem bump_smp (a : Nat) : (bump s a).smp = s.smp := rfl
@[simp] theorem bump_life (a : Nat) : (bump s a).life = s.life := rfl
@[simp] theorem bump_hp (a : Nat) : (bump s a).hp = s.hp := rfl
@[simp] theorem bump_lp (a : Nat) : (bump s a).lp = s.lp := rfl
@[simp] theorem bump_time (a : Nat) : (bump s a).time = s.time := rfl
@[simp] theorem bump_epochAt (a : Nat) : (bump s a).epochAt = s.epochAt := rfl
@[simp] theorem bump_epochCause (a : Nat) : (bump s a).epochCause = s.epochCause := rfl

/-! ### cinc -/

@[simp] theorem cinc_pending (i n : Nat) : (cinc s i n).pending = s.pending := rfl
@[simp] theorem cinc_freeCtr (i n : Nat) : (cinc s i n).freeCtr = s.freeCtr := rfl
@[simp] theorem cinc_gt (i n : Nat) : (cinc s i n).gt = s.gt := rfl
@[simp] theorem cinc_reply (i n : Nat) : (cinc s i n).reply = s.reply := rfl
@[simp] theorem cinc_regs (i n : Nat) : (cinc s i n).regs = s.regs := rfl
@[simp] theorem cinc_mem (i n : Nat) : (cinc s i n).mem = s.mem := rfl
@[simp] theorem cinc_xbuf (i n : Nat) : (cinc s i n).xbuf = s.xbuf := rfl
@[simp] theorem cinc_frac (i n : Nat) : (cinc s i n).frac = s.frac := rfl
@[simp] theorem cinc_rq (i n : Nat) : (cinc s i n).rq = s.rq := rfl
@[simp] theorem cinc_smpIn (i n : Nat) : (cinc s i n).smpIn = s.smpIn := rfl
@[simp] theorem cinc_frames (i n : Nat) : (cinc s i n).frames = s.frames := rfl
@[simp] theorem cinc_pipes (i n : Nat) : (cinc s i n).pipes = s.pipes := rfl
@[simp] theorem cinc_subs (i n : Nat) : (cinc s i n).subs = s.subs := rfl
@[simp] theorem cinc_stamps (i n : Nat) : (cinc s i n).stamps = s.stamps := rfl
@[simp] theorem cinc_arrivals (i n : Nat) : (cinc s i n).arrivals = s.arrivals := rfl
@[simp] theorem cinc_weave (i n : Nat) : (cinc s i n).weave = s.weave := rfl
@[simp] theorem cinc_shares (i n : Nat) : (cinc s i n).shares = s.shares := rfl
@[simp] theorem cinc_uids (i n : Nat) : (cinc s i n).uids = s.uids := rfl
@[simp] theorem cinc_vds (i n : Nat) : (cinc s i n).vds = s.vds := rfl
@[simp] theorem cinc_tms (i n : Nat) : (cinc s i n).tms = s.tms := rfl
@[simp] theorem cinc_jrnl (i n : Nat) : (cinc s i n).jrnl = s.jrnl := rfl
@[simp] theorem cinc_jorder (i n : Nat) : (cinc s i n).jorder = s.jorder := rfl
@[simp] theorem cinc_pl (i n : Nat) : (cinc s i n).pl = s.pl := rfl
@[simp] theorem cinc_tiles (i n : Nat) : (cinc s i n).tiles = s.tiles := rfl
@[simp] theorem cinc_ctxs (i n : Nat) : (cinc s i n).ctxs = s.ctxs := rfl
@[simp] theorem cinc_knots (i n : Nat) : (cinc s i n).knots = s.knots := rfl
@[simp] theorem cinc_latches (i n : Nat) : (cinc s i n).latches = s.latches := rfl
@[simp] theorem cinc_faults (i n : Nat) : (cinc s i n).faults = s.faults := rfl
@[simp] theorem cinc_sites (i n : Nat) : (cinc s i n).sites = s.sites := rfl
@[simp] theorem cinc_flt (i n : Nat) : (cinc s i n).flt = s.flt := rfl
@[simp] theorem cinc_spares (i n : Nat) : (cinc s i n).spares = s.spares := rfl
@[simp] theorem cinc_sessions (i n : Nat) : (cinc s i n).sessions = s.sessions := rfl
@[simp] theorem cinc_slots (i n : Nat) : (cinc s i n).slots = s.slots := rfl
@[simp] theorem cinc_bad (i n : Nat) : (cinc s i n).bad = s.bad := rfl
@[simp] theorem cinc_carried (i n : Nat) : (cinc s i n).carried = s.carried := rfl
@[simp] theorem cinc_pwr (i n : Nat) : (cinc s i n).pwr = s.pwr := rfl
@[simp] theorem cinc_bank (i n : Nat) : (cinc s i n).bank = s.bank := rfl
@[simp] theorem cinc_gens (i n : Nat) : (cinc s i n).gens = s.gens := rfl
@[simp] theorem cinc_mbox (i n : Nat) : (cinc s i n).mbox = s.mbox := rfl
@[simp] theorem cinc_boot (i n : Nat) : (cinc s i n).boot = s.boot := rfl
@[simp] theorem cinc_wv (i n : Nat) : (cinc s i n).wv = s.wv := rfl
@[simp] theorem cinc_flash (i n : Nat) : (cinc s i n).flash = s.flash := rfl
@[simp] theorem cinc_smp (i n : Nat) : (cinc s i n).smp = s.smp := rfl
@[simp] theorem cinc_life (i n : Nat) : (cinc s i n).life = s.life := rfl
@[simp] theorem cinc_hp (i n : Nat) : (cinc s i n).hp = s.hp := rfl
@[simp] theorem cinc_lp (i n : Nat) : (cinc s i n).lp = s.lp := rfl
@[simp] theorem cinc_time (i n : Nat) : (cinc s i n).time = s.time := rfl
@[simp] theorem cinc_epochAt (i n : Nat) : (cinc s i n).epochAt = s.epochAt := rfl
@[simp] theorem cinc_epochCause (i n : Nat) : (cinc s i n).epochCause = s.epochCause := rfl

/-! ### rqPut -/

@[simp] theorem rqPut_pending (q : Nat) (v : RqQueue) : (rqPut s q v).pending = s.pending := rfl
@[simp] theorem rqPut_freeCtr (q : Nat) (v : RqQueue) : (rqPut s q v).freeCtr = s.freeCtr := rfl
@[simp] theorem rqPut_gt (q : Nat) (v : RqQueue) : (rqPut s q v).gt = s.gt := rfl
@[simp] theorem rqPut_reply (q : Nat) (v : RqQueue) : (rqPut s q v).reply = s.reply := rfl
@[simp] theorem rqPut_regs (q : Nat) (v : RqQueue) : (rqPut s q v).regs = s.regs := rfl
@[simp] theorem rqPut_mem (q : Nat) (v : RqQueue) : (rqPut s q v).mem = s.mem := rfl
@[simp] theorem rqPut_xbuf (q : Nat) (v : RqQueue) : (rqPut s q v).xbuf = s.xbuf := rfl
@[simp] theorem rqPut_frac (q : Nat) (v : RqQueue) : (rqPut s q v).frac = s.frac := rfl
@[simp] theorem rqPut_obs (q : Nat) (v : RqQueue) : (rqPut s q v).obs = s.obs := rfl
@[simp] theorem rqPut_smpIn (q : Nat) (v : RqQueue) : (rqPut s q v).smpIn = s.smpIn := rfl
@[simp] theorem rqPut_frames (q : Nat) (v : RqQueue) : (rqPut s q v).frames = s.frames := rfl
@[simp] theorem rqPut_pipes (q : Nat) (v : RqQueue) : (rqPut s q v).pipes = s.pipes := rfl
@[simp] theorem rqPut_subs (q : Nat) (v : RqQueue) : (rqPut s q v).subs = s.subs := rfl
@[simp] theorem rqPut_stamps (q : Nat) (v : RqQueue) : (rqPut s q v).stamps = s.stamps := rfl
@[simp] theorem rqPut_arrivals (q : Nat) (v : RqQueue) : (rqPut s q v).arrivals = s.arrivals := rfl
@[simp] theorem rqPut_weave (q : Nat) (v : RqQueue) : (rqPut s q v).weave = s.weave := rfl
@[simp] theorem rqPut_shares (q : Nat) (v : RqQueue) : (rqPut s q v).shares = s.shares := rfl
@[simp] theorem rqPut_uids (q : Nat) (v : RqQueue) : (rqPut s q v).uids = s.uids := rfl
@[simp] theorem rqPut_vds (q : Nat) (v : RqQueue) : (rqPut s q v).vds = s.vds := rfl
@[simp] theorem rqPut_tms (q : Nat) (v : RqQueue) : (rqPut s q v).tms = s.tms := rfl
@[simp] theorem rqPut_jrnl (q : Nat) (v : RqQueue) : (rqPut s q v).jrnl = s.jrnl := rfl
@[simp] theorem rqPut_jorder (q : Nat) (v : RqQueue) : (rqPut s q v).jorder = s.jorder := rfl
@[simp] theorem rqPut_pl (q : Nat) (v : RqQueue) : (rqPut s q v).pl = s.pl := rfl
@[simp] theorem rqPut_tiles (q : Nat) (v : RqQueue) : (rqPut s q v).tiles = s.tiles := rfl
@[simp] theorem rqPut_ctxs (q : Nat) (v : RqQueue) : (rqPut s q v).ctxs = s.ctxs := rfl
@[simp] theorem rqPut_knots (q : Nat) (v : RqQueue) : (rqPut s q v).knots = s.knots := rfl
@[simp] theorem rqPut_latches (q : Nat) (v : RqQueue) : (rqPut s q v).latches = s.latches := rfl
@[simp] theorem rqPut_faults (q : Nat) (v : RqQueue) : (rqPut s q v).faults = s.faults := rfl
@[simp] theorem rqPut_sites (q : Nat) (v : RqQueue) : (rqPut s q v).sites = s.sites := rfl
@[simp] theorem rqPut_flt (q : Nat) (v : RqQueue) : (rqPut s q v).flt = s.flt := rfl
@[simp] theorem rqPut_spares (q : Nat) (v : RqQueue) : (rqPut s q v).spares = s.spares := rfl
@[simp] theorem rqPut_sessions (q : Nat) (v : RqQueue) : (rqPut s q v).sessions = s.sessions := rfl
@[simp] theorem rqPut_slots (q : Nat) (v : RqQueue) : (rqPut s q v).slots = s.slots := rfl
@[simp] theorem rqPut_bad (q : Nat) (v : RqQueue) : (rqPut s q v).bad = s.bad := rfl
@[simp] theorem rqPut_carried (q : Nat) (v : RqQueue) : (rqPut s q v).carried = s.carried := rfl
@[simp] theorem rqPut_pwr (q : Nat) (v : RqQueue) : (rqPut s q v).pwr = s.pwr := rfl
@[simp] theorem rqPut_bank (q : Nat) (v : RqQueue) : (rqPut s q v).bank = s.bank := rfl
@[simp] theorem rqPut_gens (q : Nat) (v : RqQueue) : (rqPut s q v).gens = s.gens := rfl
@[simp] theorem rqPut_mbox (q : Nat) (v : RqQueue) : (rqPut s q v).mbox = s.mbox := rfl
@[simp] theorem rqPut_boot (q : Nat) (v : RqQueue) : (rqPut s q v).boot = s.boot := rfl
@[simp] theorem rqPut_wv (q : Nat) (v : RqQueue) : (rqPut s q v).wv = s.wv := rfl
@[simp] theorem rqPut_flash (q : Nat) (v : RqQueue) : (rqPut s q v).flash = s.flash := rfl
@[simp] theorem rqPut_smp (q : Nat) (v : RqQueue) : (rqPut s q v).smp = s.smp := rfl
@[simp] theorem rqPut_life (q : Nat) (v : RqQueue) : (rqPut s q v).life = s.life := rfl
@[simp] theorem rqPut_hp (q : Nat) (v : RqQueue) : (rqPut s q v).hp = s.hp := rfl
@[simp] theorem rqPut_lp (q : Nat) (v : RqQueue) : (rqPut s q v).lp = s.lp := rfl
@[simp] theorem rqPut_time (q : Nat) (v : RqQueue) : (rqPut s q v).time = s.time := rfl
@[simp] theorem rqPut_epochAt (q : Nat) (v : RqQueue) : (rqPut s q v).epochAt = s.epochAt := rfl
@[simp] theorem rqPut_epochCause (q : Nat) (v : RqQueue) : (rqPut s q v).epochCause = s.epochCause := rfl

/-! ### mboxDone -/

@[simp] theorem mboxDone_pending (op status tag : Nat) : (mboxDone s op status tag).pending = s.pending := rfl
@[simp] theorem mboxDone_freeCtr (op status tag : Nat) : (mboxDone s op status tag).freeCtr = s.freeCtr := rfl
@[simp] theorem mboxDone_gt (op status tag : Nat) : (mboxDone s op status tag).gt = s.gt := rfl
@[simp] theorem mboxDone_reply (op status tag : Nat) : (mboxDone s op status tag).reply = s.reply := rfl
@[simp] theorem mboxDone_regs (op status tag : Nat) : (mboxDone s op status tag).regs = s.regs := rfl
@[simp] theorem mboxDone_mem (op status tag : Nat) : (mboxDone s op status tag).mem = s.mem := rfl
@[simp] theorem mboxDone_xbuf (op status tag : Nat) : (mboxDone s op status tag).xbuf = s.xbuf := rfl
@[simp] theorem mboxDone_frac (op status tag : Nat) : (mboxDone s op status tag).frac = s.frac := rfl
@[simp] theorem mboxDone_rq (op status tag : Nat) : (mboxDone s op status tag).rq = s.rq := rfl
@[simp] theorem mboxDone_obs (op status tag : Nat) : (mboxDone s op status tag).obs = s.obs := rfl
@[simp] theorem mboxDone_smpIn (op status tag : Nat) : (mboxDone s op status tag).smpIn = s.smpIn := rfl
@[simp] theorem mboxDone_frames (op status tag : Nat) : (mboxDone s op status tag).frames = s.frames := rfl
@[simp] theorem mboxDone_pipes (op status tag : Nat) : (mboxDone s op status tag).pipes = s.pipes := rfl
@[simp] theorem mboxDone_subs (op status tag : Nat) : (mboxDone s op status tag).subs = s.subs := rfl
@[simp] theorem mboxDone_stamps (op status tag : Nat) : (mboxDone s op status tag).stamps = s.stamps := rfl
@[simp] theorem mboxDone_arrivals (op status tag : Nat) : (mboxDone s op status tag).arrivals = s.arrivals := rfl
@[simp] theorem mboxDone_weave (op status tag : Nat) : (mboxDone s op status tag).weave = s.weave := rfl
@[simp] theorem mboxDone_shares (op status tag : Nat) : (mboxDone s op status tag).shares = s.shares := rfl
@[simp] theorem mboxDone_uids (op status tag : Nat) : (mboxDone s op status tag).uids = s.uids := rfl
@[simp] theorem mboxDone_vds (op status tag : Nat) : (mboxDone s op status tag).vds = s.vds := rfl
@[simp] theorem mboxDone_tms (op status tag : Nat) : (mboxDone s op status tag).tms = s.tms := rfl
@[simp] theorem mboxDone_jrnl (op status tag : Nat) : (mboxDone s op status tag).jrnl = s.jrnl := rfl
@[simp] theorem mboxDone_jorder (op status tag : Nat) : (mboxDone s op status tag).jorder = s.jorder := rfl
@[simp] theorem mboxDone_pl (op status tag : Nat) : (mboxDone s op status tag).pl = s.pl := rfl
@[simp] theorem mboxDone_tiles (op status tag : Nat) : (mboxDone s op status tag).tiles = s.tiles := rfl
@[simp] theorem mboxDone_ctxs (op status tag : Nat) : (mboxDone s op status tag).ctxs = s.ctxs := rfl
@[simp] theorem mboxDone_knots (op status tag : Nat) : (mboxDone s op status tag).knots = s.knots := rfl
@[simp] theorem mboxDone_latches (op status tag : Nat) : (mboxDone s op status tag).latches = s.latches := rfl
@[simp] theorem mboxDone_faults (op status tag : Nat) : (mboxDone s op status tag).faults = s.faults := rfl
@[simp] theorem mboxDone_sites (op status tag : Nat) : (mboxDone s op status tag).sites = s.sites := rfl
@[simp] theorem mboxDone_flt (op status tag : Nat) : (mboxDone s op status tag).flt = s.flt := rfl
@[simp] theorem mboxDone_spares (op status tag : Nat) : (mboxDone s op status tag).spares = s.spares := rfl
@[simp] theorem mboxDone_sessions (op status tag : Nat) : (mboxDone s op status tag).sessions = s.sessions := rfl
@[simp] theorem mboxDone_slots (op status tag : Nat) : (mboxDone s op status tag).slots = s.slots := rfl
@[simp] theorem mboxDone_bad (op status tag : Nat) : (mboxDone s op status tag).bad = s.bad := rfl
@[simp] theorem mboxDone_carried (op status tag : Nat) : (mboxDone s op status tag).carried = s.carried := rfl
@[simp] theorem mboxDone_pwr (op status tag : Nat) : (mboxDone s op status tag).pwr = s.pwr := rfl
@[simp] theorem mboxDone_bank (op status tag : Nat) : (mboxDone s op status tag).bank = s.bank := rfl
@[simp] theorem mboxDone_gens (op status tag : Nat) : (mboxDone s op status tag).gens = s.gens := rfl
@[simp] theorem mboxDone_boot (op status tag : Nat) : (mboxDone s op status tag).boot = s.boot := rfl
@[simp] theorem mboxDone_wv (op status tag : Nat) : (mboxDone s op status tag).wv = s.wv := rfl
@[simp] theorem mboxDone_flash (op status tag : Nat) : (mboxDone s op status tag).flash = s.flash := rfl
@[simp] theorem mboxDone_smp (op status tag : Nat) : (mboxDone s op status tag).smp = s.smp := rfl
@[simp] theorem mboxDone_life (op status tag : Nat) : (mboxDone s op status tag).life = s.life := rfl
@[simp] theorem mboxDone_hp (op status tag : Nat) : (mboxDone s op status tag).hp = s.hp := rfl
@[simp] theorem mboxDone_lp (op status tag : Nat) : (mboxDone s op status tag).lp = s.lp := rfl
@[simp] theorem mboxDone_time (op status tag : Nat) : (mboxDone s op status tag).time = s.time := rfl
@[simp] theorem mboxDone_epochAt (op status tag : Nat) : (mboxDone s op status tag).epochAt = s.epochAt := rfl
@[simp] theorem mboxDone_epochCause (op status tag : Nat) : (mboxDone s op status tag).epochCause = s.epochCause := rfl

/-! ### smpEvent -/

@[simp] theorem smpEvent_pending (type : Nat) (body : Bytes) : (smpEvent s type body).pending = s.pending := rfl
@[simp] theorem smpEvent_freeCtr (type : Nat) (body : Bytes) : (smpEvent s type body).freeCtr = s.freeCtr := rfl
@[simp] theorem smpEvent_gt (type : Nat) (body : Bytes) : (smpEvent s type body).gt = s.gt := rfl
@[simp] theorem smpEvent_reply (type : Nat) (body : Bytes) : (smpEvent s type body).reply = s.reply := rfl
@[simp] theorem smpEvent_regs (type : Nat) (body : Bytes) : (smpEvent s type body).regs = s.regs := rfl
@[simp] theorem smpEvent_mem (type : Nat) (body : Bytes) : (smpEvent s type body).mem = s.mem := rfl
@[simp] theorem smpEvent_xbuf (type : Nat) (body : Bytes) : (smpEvent s type body).xbuf = s.xbuf := rfl
@[simp] theorem smpEvent_frac (type : Nat) (body : Bytes) : (smpEvent s type body).frac = s.frac := rfl
@[simp] theorem smpEvent_rq (type : Nat) (body : Bytes) : (smpEvent s type body).rq = s.rq := rfl
@[simp] theorem smpEvent_obs (type : Nat) (body : Bytes) : (smpEvent s type body).obs = s.obs := rfl
@[simp] theorem smpEvent_frames (type : Nat) (body : Bytes) : (smpEvent s type body).frames = s.frames := rfl
@[simp] theorem smpEvent_pipes (type : Nat) (body : Bytes) : (smpEvent s type body).pipes = s.pipes := rfl
@[simp] theorem smpEvent_subs (type : Nat) (body : Bytes) : (smpEvent s type body).subs = s.subs := rfl
@[simp] theorem smpEvent_stamps (type : Nat) (body : Bytes) : (smpEvent s type body).stamps = s.stamps := rfl
@[simp] theorem smpEvent_arrivals (type : Nat) (body : Bytes) : (smpEvent s type body).arrivals = s.arrivals := rfl
@[simp] theorem smpEvent_weave (type : Nat) (body : Bytes) : (smpEvent s type body).weave = s.weave := rfl
@[simp] theorem smpEvent_shares (type : Nat) (body : Bytes) : (smpEvent s type body).shares = s.shares := rfl
@[simp] theorem smpEvent_uids (type : Nat) (body : Bytes) : (smpEvent s type body).uids = s.uids := rfl
@[simp] theorem smpEvent_vds (type : Nat) (body : Bytes) : (smpEvent s type body).vds = s.vds := rfl
@[simp] theorem smpEvent_tms (type : Nat) (body : Bytes) : (smpEvent s type body).tms = s.tms := rfl
@[simp] theorem smpEvent_jrnl (type : Nat) (body : Bytes) : (smpEvent s type body).jrnl = s.jrnl := rfl
@[simp] theorem smpEvent_jorder (type : Nat) (body : Bytes) : (smpEvent s type body).jorder = s.jorder := rfl
@[simp] theorem smpEvent_pl (type : Nat) (body : Bytes) : (smpEvent s type body).pl = s.pl := rfl
@[simp] theorem smpEvent_tiles (type : Nat) (body : Bytes) : (smpEvent s type body).tiles = s.tiles := rfl
@[simp] theorem smpEvent_ctxs (type : Nat) (body : Bytes) : (smpEvent s type body).ctxs = s.ctxs := rfl
@[simp] theorem smpEvent_knots (type : Nat) (body : Bytes) : (smpEvent s type body).knots = s.knots := rfl
@[simp] theorem smpEvent_latches (type : Nat) (body : Bytes) : (smpEvent s type body).latches = s.latches := rfl
@[simp] theorem smpEvent_faults (type : Nat) (body : Bytes) : (smpEvent s type body).faults = s.faults := rfl
@[simp] theorem smpEvent_sites (type : Nat) (body : Bytes) : (smpEvent s type body).sites = s.sites := rfl
@[simp] theorem smpEvent_flt (type : Nat) (body : Bytes) : (smpEvent s type body).flt = s.flt := rfl
@[simp] theorem smpEvent_spares (type : Nat) (body : Bytes) : (smpEvent s type body).spares = s.spares := rfl
@[simp] theorem smpEvent_sessions (type : Nat) (body : Bytes) : (smpEvent s type body).sessions = s.sessions := rfl
@[simp] theorem smpEvent_slots (type : Nat) (body : Bytes) : (smpEvent s type body).slots = s.slots := rfl
@[simp] theorem smpEvent_bad (type : Nat) (body : Bytes) : (smpEvent s type body).bad = s.bad := rfl
@[simp] theorem smpEvent_carried (type : Nat) (body : Bytes) : (smpEvent s type body).carried = s.carried := rfl
@[simp] theorem smpEvent_pwr (type : Nat) (body : Bytes) : (smpEvent s type body).pwr = s.pwr := rfl
@[simp] theorem smpEvent_bank (type : Nat) (body : Bytes) : (smpEvent s type body).bank = s.bank := rfl
@[simp] theorem smpEvent_gens (type : Nat) (body : Bytes) : (smpEvent s type body).gens = s.gens := rfl
@[simp] theorem smpEvent_mbox (type : Nat) (body : Bytes) : (smpEvent s type body).mbox = s.mbox := rfl
@[simp] theorem smpEvent_boot (type : Nat) (body : Bytes) : (smpEvent s type body).boot = s.boot := rfl
@[simp] theorem smpEvent_wv (type : Nat) (body : Bytes) : (smpEvent s type body).wv = s.wv := rfl
@[simp] theorem smpEvent_flash (type : Nat) (body : Bytes) : (smpEvent s type body).flash = s.flash := rfl
@[simp] theorem smpEvent_smp (type : Nat) (body : Bytes) : (smpEvent s type body).smp = s.smp := rfl
@[simp] theorem smpEvent_life (type : Nat) (body : Bytes) : (smpEvent s type body).life = s.life := rfl
@[simp] theorem smpEvent_hp (type : Nat) (body : Bytes) : (smpEvent s type body).hp = s.hp := rfl
@[simp] theorem smpEvent_lp (type : Nat) (body : Bytes) : (smpEvent s type body).lp = s.lp := rfl
@[simp] theorem smpEvent_time (type : Nat) (body : Bytes) : (smpEvent s type body).time = s.time := rfl
@[simp] theorem smpEvent_epochAt (type : Nat) (body : Bytes) : (smpEvent s type body).epochAt = s.epochAt := rfl
@[simp] theorem smpEvent_epochCause (type : Nat) (body : Bytes) : (smpEvent s type body).epochCause = s.epochCause := rfl

/-! ### lifeInc -/

@[simp] theorem lifeInc_pending (off : Nat) : (lifeInc s off).pending = s.pending := rfl
@[simp] theorem lifeInc_freeCtr (off : Nat) : (lifeInc s off).freeCtr = s.freeCtr := rfl
@[simp] theorem lifeInc_gt (off : Nat) : (lifeInc s off).gt = s.gt := rfl
@[simp] theorem lifeInc_reply (off : Nat) : (lifeInc s off).reply = s.reply := rfl
@[simp] theorem lifeInc_regs (off : Nat) : (lifeInc s off).regs = s.regs := rfl
@[simp] theorem lifeInc_mem (off : Nat) : (lifeInc s off).mem = s.mem := rfl
@[simp] theorem lifeInc_xbuf (off : Nat) : (lifeInc s off).xbuf = s.xbuf := rfl
@[simp] theorem lifeInc_frac (off : Nat) : (lifeInc s off).frac = s.frac := rfl
@[simp] theorem lifeInc_rq (off : Nat) : (lifeInc s off).rq = s.rq := rfl
@[simp] theorem lifeInc_obs (off : Nat) : (lifeInc s off).obs = s.obs := rfl
@[simp] theorem lifeInc_smpIn (off : Nat) : (lifeInc s off).smpIn = s.smpIn := rfl
@[simp] theorem lifeInc_frames (off : Nat) : (lifeInc s off).frames = s.frames := rfl
@[simp] theorem lifeInc_pipes (off : Nat) : (lifeInc s off).pipes = s.pipes := rfl
@[simp] theorem lifeInc_subs (off : Nat) : (lifeInc s off).subs = s.subs := rfl
@[simp] theorem lifeInc_stamps (off : Nat) : (lifeInc s off).stamps = s.stamps := rfl
@[simp] theorem lifeInc_arrivals (off : Nat) : (lifeInc s off).arrivals = s.arrivals := rfl
@[simp] theorem lifeInc_weave (off : Nat) : (lifeInc s off).weave = s.weave := rfl
@[simp] theorem lifeInc_shares (off : Nat) : (lifeInc s off).shares = s.shares := rfl
@[simp] theorem lifeInc_uids (off : Nat) : (lifeInc s off).uids = s.uids := rfl
@[simp] theorem lifeInc_vds (off : Nat) : (lifeInc s off).vds = s.vds := rfl
@[simp] theorem lifeInc_tms (off : Nat) : (lifeInc s off).tms = s.tms := rfl
@[simp] theorem lifeInc_jrnl (off : Nat) : (lifeInc s off).jrnl = s.jrnl := rfl
@[simp] theorem lifeInc_jorder (off : Nat) : (lifeInc s off).jorder = s.jorder := rfl
@[simp] theorem lifeInc_pl (off : Nat) : (lifeInc s off).pl = s.pl := rfl
@[simp] theorem lifeInc_tiles (off : Nat) : (lifeInc s off).tiles = s.tiles := rfl
@[simp] theorem lifeInc_ctxs (off : Nat) : (lifeInc s off).ctxs = s.ctxs := rfl
@[simp] theorem lifeInc_knots (off : Nat) : (lifeInc s off).knots = s.knots := rfl
@[simp] theorem lifeInc_latches (off : Nat) : (lifeInc s off).latches = s.latches := rfl
@[simp] theorem lifeInc_faults (off : Nat) : (lifeInc s off).faults = s.faults := rfl
@[simp] theorem lifeInc_sites (off : Nat) : (lifeInc s off).sites = s.sites := rfl
@[simp] theorem lifeInc_flt (off : Nat) : (lifeInc s off).flt = s.flt := rfl
@[simp] theorem lifeInc_spares (off : Nat) : (lifeInc s off).spares = s.spares := rfl
@[simp] theorem lifeInc_sessions (off : Nat) : (lifeInc s off).sessions = s.sessions := rfl
@[simp] theorem lifeInc_slots (off : Nat) : (lifeInc s off).slots = s.slots := rfl
@[simp] theorem lifeInc_bad (off : Nat) : (lifeInc s off).bad = s.bad := rfl
@[simp] theorem lifeInc_carried (off : Nat) : (lifeInc s off).carried = s.carried := rfl
@[simp] theorem lifeInc_pwr (off : Nat) : (lifeInc s off).pwr = s.pwr := rfl
@[simp] theorem lifeInc_bank (off : Nat) : (lifeInc s off).bank = s.bank := rfl
@[simp] theorem lifeInc_gens (off : Nat) : (lifeInc s off).gens = s.gens := rfl
@[simp] theorem lifeInc_mbox (off : Nat) : (lifeInc s off).mbox = s.mbox := rfl
@[simp] theorem lifeInc_boot (off : Nat) : (lifeInc s off).boot = s.boot := rfl
@[simp] theorem lifeInc_wv (off : Nat) : (lifeInc s off).wv = s.wv := rfl
@[simp] theorem lifeInc_flash (off : Nat) : (lifeInc s off).flash = s.flash := rfl
@[simp] theorem lifeInc_smp (off : Nat) : (lifeInc s off).smp = s.smp := rfl
@[simp] theorem lifeInc_hp (off : Nat) : (lifeInc s off).hp = s.hp := rfl
@[simp] theorem lifeInc_lp (off : Nat) : (lifeInc s off).lp = s.lp := rfl
@[simp] theorem lifeInc_time (off : Nat) : (lifeInc s off).time = s.time := rfl
@[simp] theorem lifeInc_epochAt (off : Nat) : (lifeInc s off).epochAt = s.epochAt := rfl
@[simp] theorem lifeInc_epochCause (off : Nat) : (lifeInc s off).epochCause = s.epochCause := rfl

/-! ### strike -/

@[simp] theorem strike_pending (a : Nat) : (strike s a).pending = s.pending := rfl
@[simp] theorem strike_freeCtr (a : Nat) : (strike s a).freeCtr = s.freeCtr := rfl
@[simp] theorem strike_gt (a : Nat) : (strike s a).gt = s.gt := rfl
@[simp] theorem strike_reply (a : Nat) : (strike s a).reply = s.reply := rfl
@[simp] theorem strike_regs (a : Nat) : (strike s a).regs = s.regs := rfl
@[simp] theorem strike_mem (a : Nat) : (strike s a).mem = s.mem := rfl
@[simp] theorem strike_xbuf (a : Nat) : (strike s a).xbuf = s.xbuf := rfl
@[simp] theorem strike_frac (a : Nat) : (strike s a).frac = s.frac := rfl
@[simp] theorem strike_rq (a : Nat) : (strike s a).rq = s.rq := rfl
@[simp] theorem strike_obs (a : Nat) : (strike s a).obs = s.obs := rfl
@[simp] theorem strike_smpIn (a : Nat) : (strike s a).smpIn = s.smpIn := rfl
@[simp] theorem strike_frames (a : Nat) : (strike s a).frames = s.frames := rfl
@[simp] theorem strike_pipes (a : Nat) : (strike s a).pipes = s.pipes := rfl
@[simp] theorem strike_subs (a : Nat) : (strike s a).subs = s.subs := rfl
@[simp] theorem strike_stamps (a : Nat) : (strike s a).stamps = s.stamps := rfl
@[simp] theorem strike_arrivals (a : Nat) : (strike s a).arrivals = s.arrivals := rfl
@[simp] theorem strike_weave (a : Nat) : (strike s a).weave = s.weave := rfl
@[simp] theorem strike_shares (a : Nat) : (strike s a).shares = s.shares := rfl
@[simp] theorem strike_uids (a : Nat) : (strike s a).uids = s.uids := rfl
@[simp] theorem strike_vds (a : Nat) : (strike s a).vds = s.vds := rfl
@[simp] theorem strike_tms (a : Nat) : (strike s a).tms = s.tms := rfl
@[simp] theorem strike_jrnl (a : Nat) : (strike s a).jrnl = s.jrnl := rfl
@[simp] theorem strike_jorder (a : Nat) : (strike s a).jorder = s.jorder := rfl
@[simp] theorem strike_pl (a : Nat) : (strike s a).pl = s.pl := rfl
@[simp] theorem strike_tiles (a : Nat) : (strike s a).tiles = s.tiles := rfl
@[simp] theorem strike_ctxs (a : Nat) : (strike s a).ctxs = s.ctxs := rfl
@[simp] theorem strike_knots (a : Nat) : (strike s a).knots = s.knots := rfl
@[simp] theorem strike_latches (a : Nat) : (strike s a).latches = s.latches := rfl
@[simp] theorem strike_faults (a : Nat) : (strike s a).faults = s.faults := rfl
@[simp] theorem strike_sites (a : Nat) : (strike s a).sites = s.sites := rfl
@[simp] theorem strike_flt (a : Nat) : (strike s a).flt = s.flt := rfl
@[simp] theorem strike_spares (a : Nat) : (strike s a).spares = s.spares := rfl
@[simp] theorem strike_sessions (a : Nat) : (strike s a).sessions = s.sessions := rfl
@[simp] theorem strike_slots (a : Nat) : (strike s a).slots = s.slots := rfl
@[simp] theorem strike_carried (a : Nat) : (strike s a).carried = s.carried := rfl
@[simp] theorem strike_pwr (a : Nat) : (strike s a).pwr = s.pwr := rfl
@[simp] theorem strike_bank (a : Nat) : (strike s a).bank = s.bank := rfl
@[simp] theorem strike_gens (a : Nat) : (strike s a).gens = s.gens := rfl
@[simp] theorem strike_mbox (a : Nat) : (strike s a).mbox = s.mbox := rfl
@[simp] theorem strike_boot (a : Nat) : (strike s a).boot = s.boot := rfl
@[simp] theorem strike_wv (a : Nat) : (strike s a).wv = s.wv := rfl
@[simp] theorem strike_flash (a : Nat) : (strike s a).flash = s.flash := rfl
@[simp] theorem strike_smp (a : Nat) : (strike s a).smp = s.smp := rfl
@[simp] theorem strike_life (a : Nat) : (strike s a).life = s.life := rfl
@[simp] theorem strike_hp (a : Nat) : (strike s a).hp = s.hp := rfl
@[simp] theorem strike_lp (a : Nat) : (strike s a).lp = s.lp := rfl
@[simp] theorem strike_time (a : Nat) : (strike s a).time = s.time := rfl
@[simp] theorem strike_epochAt (a : Nat) : (strike s a).epochAt = s.epochAt := rfl
@[simp] theorem strike_epochCause (a : Nat) : (strike s a).epochCause = s.epochCause := rfl

/-! ### drawFree -/

@[simp] theorem drawFree_pending (w : Nat) : (drawFree s w).2.pending = s.pending := rfl
@[simp] theorem drawFree_gt (w : Nat) : (drawFree s w).2.gt = s.gt := rfl
@[simp] theorem drawFree_reply (w : Nat) : (drawFree s w).2.reply = s.reply := rfl
@[simp] theorem drawFree_regs (w : Nat) : (drawFree s w).2.regs = s.regs := rfl
@[simp] theorem drawFree_mem (w : Nat) : (drawFree s w).2.mem = s.mem := rfl
@[simp] theorem drawFree_xbuf (w : Nat) : (drawFree s w).2.xbuf = s.xbuf := rfl
@[simp] theorem drawFree_frac (w : Nat) : (drawFree s w).2.frac = s.frac := rfl
@[simp] theorem drawFree_rq (w : Nat) : (drawFree s w).2.rq = s.rq := rfl
@[simp] theorem drawFree_obs (w : Nat) : (drawFree s w).2.obs = s.obs := rfl
@[simp] theorem drawFree_smpIn (w : Nat) : (drawFree s w).2.smpIn = s.smpIn := rfl
@[simp] theorem drawFree_frames (w : Nat) : (drawFree s w).2.frames = s.frames := rfl
@[simp] theorem drawFree_pipes (w : Nat) : (drawFree s w).2.pipes = s.pipes := rfl
@[simp] theorem drawFree_subs (w : Nat) : (drawFree s w).2.subs = s.subs := rfl
@[simp] theorem drawFree_stamps (w : Nat) : (drawFree s w).2.stamps = s.stamps := rfl
@[simp] theorem drawFree_arrivals (w : Nat) : (drawFree s w).2.arrivals = s.arrivals := rfl
@[simp] theorem drawFree_weave (w : Nat) : (drawFree s w).2.weave = s.weave := rfl
@[simp] theorem drawFree_shares (w : Nat) : (drawFree s w).2.shares = s.shares := rfl
@[simp] theorem drawFree_uids (w : Nat) : (drawFree s w).2.uids = s.uids := rfl
@[simp] theorem drawFree_vds (w : Nat) : (drawFree s w).2.vds = s.vds := rfl
@[simp] theorem drawFree_tms (w : Nat) : (drawFree s w).2.tms = s.tms := rfl
@[simp] theorem drawFree_jrnl (w : Nat) : (drawFree s w).2.jrnl = s.jrnl := rfl
@[simp] theorem drawFree_jorder (w : Nat) : (drawFree s w).2.jorder = s.jorder := rfl
@[simp] theorem drawFree_pl (w : Nat) : (drawFree s w).2.pl = s.pl := rfl
@[simp] theorem drawFree_tiles (w : Nat) : (drawFree s w).2.tiles = s.tiles := rfl
@[simp] theorem drawFree_ctxs (w : Nat) : (drawFree s w).2.ctxs = s.ctxs := rfl
@[simp] theorem drawFree_knots (w : Nat) : (drawFree s w).2.knots = s.knots := rfl
@[simp] theorem drawFree_latches (w : Nat) : (drawFree s w).2.latches = s.latches := rfl
@[simp] theorem drawFree_faults (w : Nat) : (drawFree s w).2.faults = s.faults := rfl
@[simp] theorem drawFree_sites (w : Nat) : (drawFree s w).2.sites = s.sites := rfl
@[simp] theorem drawFree_flt (w : Nat) : (drawFree s w).2.flt = s.flt := rfl
@[simp] theorem drawFree_spares (w : Nat) : (drawFree s w).2.spares = s.spares := rfl
@[simp] theorem drawFree_sessions (w : Nat) : (drawFree s w).2.sessions = s.sessions := rfl
@[simp] theorem drawFree_slots (w : Nat) : (drawFree s w).2.slots = s.slots := rfl
@[simp] theorem drawFree_bad (w : Nat) : (drawFree s w).2.bad = s.bad := rfl
@[simp] theorem drawFree_carried (w : Nat) : (drawFree s w).2.carried = s.carried := rfl
@[simp] theorem drawFree_pwr (w : Nat) : (drawFree s w).2.pwr = s.pwr := rfl
@[simp] theorem drawFree_bank (w : Nat) : (drawFree s w).2.bank = s.bank := rfl
@[simp] theorem drawFree_gens (w : Nat) : (drawFree s w).2.gens = s.gens := rfl
@[simp] theorem drawFree_mbox (w : Nat) : (drawFree s w).2.mbox = s.mbox := rfl
@[simp] theorem drawFree_boot (w : Nat) : (drawFree s w).2.boot = s.boot := rfl
@[simp] theorem drawFree_wv (w : Nat) : (drawFree s w).2.wv = s.wv := rfl
@[simp] theorem drawFree_flash (w : Nat) : (drawFree s w).2.flash = s.flash := rfl
@[simp] theorem drawFree_smp (w : Nat) : (drawFree s w).2.smp = s.smp := rfl
@[simp] theorem drawFree_life (w : Nat) : (drawFree s w).2.life = s.life := rfl
@[simp] theorem drawFree_hp (w : Nat) : (drawFree s w).2.hp = s.hp := rfl
@[simp] theorem drawFree_lp (w : Nat) : (drawFree s w).2.lp = s.lp := rfl
@[simp] theorem drawFree_time (w : Nat) : (drawFree s w).2.time = s.time := rfl
@[simp] theorem drawFree_epochAt (w : Nat) : (drawFree s w).2.epochAt = s.epochAt := rfl
@[simp] theorem drawFree_epochCause (w : Nat) : (drawFree s w).2.epochCause = s.epochCause := rfl
@[simp] theorem drawFree_freeCtr (w : Nat) : (drawFree s w).2.freeCtr = s.freeCtr + 1 := rfl

end Sys2Proof.Machine
end

