-- ==== Sys2Proof/Laws/Ops.lean ====
section
/-! SUPPORT. What the elementary operations do: registers, counters, memory. -/

namespace Sys2Proof.Machine

/-! ### Bit fields -/

theorem bits_lt (v hi lo : Nat) : bits v hi lo < 2 ^ (hi + 1 - lo) := Nat.mod_lt _ (by positivity)

@[simp] theorem b2n_true : b2n true = 1 := rfl
@[simp] theorem b2n_false : b2n false = 0 := rfl

theorem bits_eq_div (v hi lo : Nat) : bits v hi lo = v / 2 ^ lo % 2 ^ (hi + 1 - lo) := by simp [bits, Nat.shiftRight_eq_div_pow]

/-! ### Registers -/

theorem rg_lt (s : State) (a : Nat) : rg s a < 2 ^ 32 := (tget (regReset a) s.regs a).isLt

/-- Reading the register just written. -/
@[simp] theorem rg_rgw_same (s : State) (a v : Nat) : rg (rgw s a v) a = v % 2 ^ 32 := by
  simp [rg, rgw]

/-- Reading another register. -/
theorem rg_rgw_other (s : State) {a b : Nat} (v : Nat) (h : a ≠ b) : rg (rgw s a v) b = rg s b := by
  have e : ∀ d : Word, tget d (tset (regReset a) s.regs a (BitVec.ofNat 32 v)) b = tget d s.regs b := by
    intro d
    simp only [tset]
    split
    · rw [tget_tdel]; simp [h]
    · rw [tget_tput]; simp [h]
  simp only [rg, rgw, e]

/-- Reading any register after a write. -/
theorem rg_rgw (s : State) (a b v : Nat) : rg (rgw s a v) b = if a = b then v % 2 ^ 32 else rg s b := by
  split
  · subst_vars; simp
  · rename_i h; exact rg_rgw_other s v h

/-- Registers depend on the register file alone. -/
theorem rg_congr {s t : State} (h : t.regs = s.regs) (a : Nat) : rg t a = rg s a := by simp [rg, h]

/-- A saturating count. -/
@[simp] theorem rg_bumpN_same (s : State) (a n : Nat) : rg (bumpN s a n) a = min (rg s a + n) 0xFFFFFFFF := by
  rw [bumpN, rg_rgw_same, Nat.mod_eq_of_lt]; omega

theorem rg_bumpN_other (s : State) {a b : Nat} (n : Nat) (h : a ≠ b) : rg (bumpN s a n) b = rg s b := rg_rgw_other _ _ h

@[simp] theorem rg_bump_same (s : State) (a : Nat) : rg (bump s a) a = min (rg s a + 1) 0xFFFFFFFF := rg_bumpN_same s a 1

theorem rg_bump_other (s : State) {a b : Nat} (h : a ≠ b) : rg (bump s a) b = rg s b := rg_bumpN_other _ _ h

/-! ### Counters -/

/-- A counter after an increment. -/
theorem cnt_cinc (s : State) (i n j : Nat) :
    tget 0 (cinc s i n).obs.cnt j = if i = j then tget 0 s.obs.cnt i + BitVec.ofNat 64 n else tget 0 s.obs.cnt j := by
  simp [cinc, tget_tset]

/-! ### Queues -/

@[simp] theorem rqGet_rqPut_same (s : State) (q : Nat) (v : RqQueue) : rqGet (rqPut s q v) q = v := by simp [rqGet, rqPut]

theorem rqGet_rqPut_other (s : State) {q r : Nat} (v : RqQueue) (h : q ≠ r) : rqGet (rqPut s q v) r = rqGet s r := by
  simp [rqGet, rqPut, tget_tset, h]

/-! ### Memory -/

/-- A write that covers no uncorrectable codeword in part stores its bytes and nothing else. -/
theorem tget_memW (s : State) (a x : Nat) (l : Bytes) (h : x < a ∨ a + l.length ≤ x) : tget 0 (memW s a l).mem x = tget 0 s.mem x := by
  simp only [memW]
  split
  · rfl
  · exact tget_twrite_out _ _ _ _ h

/-- Bytes stored at an address read back. -/
theorem memR_memW (s : State) (a : Nat) (l : Bytes) (h : memWBad s a l.length = none) : memR (memW s a l) a l.length = l := by
  simp only [memW, h, memR, Option.isSome_none, Bool.false_eq_true, if_false]
  exact tread_twrite _ _ _

/-- A write keeps memory in canonical form. -/
theorem memW_wf (s : State) (a : Nat) (l : Bytes) (h : twf 0 s.mem = true) : twf 0 (memW s a l).mem = true := by
  simp only [memW]
  split
  · exact h
  · exact twf_twrite h

end Sys2Proof.Machine
end

