-- ==== Sys2Proof/Tests/Slice0.lean ====
section
/-! SUPPORT. Tests: well-formedness, a witness for the hypotheses of each statement, worked examples of the spec. -/

namespace Sys2Proof.Tests

set_option Elab.async false

open Sys2Proof Sys2Proof.Machine

/-! ### Well-formedness: each check refuses an operand just outside its range, and accepts the last one inside -/

theorem test_ill_formed_1 : ([
  .apertureRead 64 508 4 .none, .apertureRead 63 508 5 .none, .rqMark 64, .rqRewind 64, .rqRelease 64, .rqMarkRelease 64, .rqFlush 64,
  .traceQueueDrain 20, .schedulerDecision 16 3 .none, .schedulerDecision 15 4 .none, .dequeueEnd 16 3, .dequeueEnd 15 4,
  .pauseExpiry 16 3 7, .pauseExpiry 15 4 7, .pauseExpiry 15 3 8, .sampleSweep 4 false, .tmAqmSeedWrite 4 0, .policerCfgWrite 4 0 3 0,
  .policerCfgWrite 3 0 4 0, .shaperCfgWrite 4 false 0 1 0, .shaperCfgWrite 3 false 0 2 0, .cellPoolReclaim 4, .resultRecord 4,
  .refusalVerdict 4, .latencyBoundExpiry 4 0, .ledgerHoldExpiry 4 65535, .ledgerHoldExpiry 3 65536, .sampleWindowEnd 4,
  .probe 4 false (List.replicate 48 0) [], .probe 3 false (List.replicate 0 0) [], .probe 3 false (List.replicate 40 0) [],
  .probe 3 false (List.replicate 80 0) [], .age 4 false 3 0 [], .age 3 false 4 0 [], .scanPassStart 4 false, .insertTokenAccrue 4,
  .moveTokenAccrue 4, .grnInsert 4 false 0, .grnDelete 4 false 0, .grnRead 4 false 0 [], .grnPin 4 false 0, .grnUnpin 4 false 0,
  .grnFlush 4 false false, .grnCfgWrite 4 false 0, .grnEvictSeedWrite 4 0, .frameReceive 16 3 [] false false,
  .frameReceive 15 4 [] false false, .pfcFrameReceive 16 3 [] false, .pfcFrameReceive 15 4 [] false, .endStatus 4 0] : List Instr).all (fun i => !wellFormed i) = true := by decide +kernel

theorem test_ill_formed_2 : ([
  .pipeDescriptor 4 [], .commit 4 (List.replicate 48 0) (some (List.replicate 16 0)) 0 67 0 0 [] [],
  .commit 3 (List.replicate 48 0) (some (List.replicate 16 0)) 0 68 0 0 [] [],
  .commit 3 (List.replicate 0 0) (some (List.replicate 16 0)) 0 67 0 0 [] [],
  .commit 3 (List.replicate 40 0) (some (List.replicate 16 0)) 0 67 0 0 [] [],
  .commit 3 (List.replicate 80 0) (some (List.replicate 16 0)) 0 67 0 0 [] [],
  .commit 3 (List.replicate 48 0) (some (List.replicate 40 0)) 0 67 0 0 [] [], .laneFail 16 3, .laneFail 15 4, .fpLinkUp 16 3,
  .fpLinkUp 15 4, .requestAdmit 20 false, .nop ⟨20, []⟩, .take ⟨20, []⟩, .post ⟨20, []⟩, .kset ⟨20, []⟩, .commandComplete 20 255,
  .commandComplete 19 256, .teardown 20480, .ctxFault 20480, .knotRead 20480, .knotWrite 20480, .quiesceEnd 20480, .quiesceTimeout 20480,
  .matmul 20 [], .eval 20 [], .stream 20 [], .passStart 20, .passChunk 20 [], .ew 20 [], .fma 20 [], .reduce 20 [], .softmax 20 [],
  .norm 20 [], .lut 20 [], .quant 20 [], .dequant 20 [], .combine 20 [], .convert 20 [], .copy 20 [], .gather 20 [], .scatter 20 [],
  .transpose 20 [], .fill 20 [], .attend 20 [], .topk 20 [], .happend 20 [], .gemv 20 [], .xpose 20 [],
  .bankRead ⟨4096, 0, 63, 4095, 65535⟩ 0 32764 4 .none] : List Instr).all (fun i => !wellFormed i) = true := by decide +kernel

theorem test_ill_formed_3 : ([
  .bankRead ⟨4095, 0, 63, 4095, 65535⟩ 0 32764 0 .none, .bankRead ⟨4095, 0, 63, 4095, 65535⟩ 0 32764 5 .none,
  .bankRead ⟨4095, 6, 0, 0, 0⟩ 0 32764 4 .none, .bankRead ⟨4095, 0, 0, 4096, 0⟩ 0 32764 4 .none,
  .bankWrite ⟨4096, 0, 63, 4095, 65535⟩ 32767 (List.replicate 64 0) .none, .bankWrite ⟨4095, 0, 63, 4095, 65535⟩ 0 [] .none,
  .bankWrite ⟨4095, 0, 63, 4095, 65535⟩ 32767 (List.replicate 128 0) .none,
  .bankWrite ⟨4095, 0, 63, 4095, 65535⟩ 0 (List.replicate 63 0) .none, .bankWrite ⟨4095, 6, 0, 0, 0⟩ 32767 (List.replicate 64 0) .none,
  .bankWrite ⟨4095, 0, 64, 0, 0⟩ 32767 (List.replicate 64 0) .none, .bankWrite ⟨4095, 0, 0, 0, 65536⟩ 32767 (List.replicate 64 0) .none,
  .score ⟨4096, 2, 63, 4095, 65535⟩ 0 0 [] .none, .score ⟨4095, 3, 0, 0, 0⟩ 0 0 [] .none, .score ⟨4095, 2, 0, 4096, 0⟩ 0 0 [] .none,
  .value ⟨4096, 2, 63, 4095, 65535⟩ 0 [] [] .none, .value ⟨4095, 3, 0, 0, 0⟩ 0 [] [] .none,
  .bankTopk ⟨4096, 2, 63, 4095, 65535⟩ 0 0 0 [] .none, .bankTopk ⟨4095, 3, 0, 0, 0⟩ 0 0 0 [] .none,
  .dot ⟨4096, 2, 63, 4095, 65535⟩ 0 0 [] .none, .dot ⟨4095, 3, 0, 0, 0⟩ 0 0 [] .none,
  .bankXpose ⟨4096, 2, 63, 4095, 65535⟩ 0 0 0 0 false .none, .bankXpose ⟨4095, 3, 0, 0, 0⟩ 0 0 0 0 false .none,
  .append ⟨4096, 2, 63, 4095, 65535⟩ 0 0 [] [] .none, .append ⟨4095, 3, 0, 0, 0⟩ 0 0 [] [] .none, .migrationCopy ⟨4096, 5, 63, 4095, 65535⟩ 0,
  .migrationCopy ⟨4095, 3, 0, 0, 0⟩ 0, .migrationCopy ⟨4095, 5, 0, 4096, 0⟩ 0, .patrolScrub ⟨4096, 5, 63, 4095, 65535⟩ 32767 .none,
  .patrolScrub ⟨4095, 5, 63, 4095, 65535⟩ 32768 .none, .patrolScrub ⟨4095, 3, 0, 0, 0⟩ 32767 .none, .bankRemap 4096, .bankRefresh 4096,
  .samplerRead 1020 5, .flashReadComplete 0 0 0 0 4, .captureFetch 16, .chunkFrame 16 3 [] false, .chunkFrame 15 4 [] false,
  .channelTimeout 4, .slotCommit 20480, .forcedCommit 20480, .drainEnd 20480 1, .drainEnd 20479 2, .reqMessage 4 [], .rspMessage 4 [],
  .headMessage 4 [], .loadMessage 4 [], .liveMessage 4 [], .peerLost 64, .peerBack 64, .fwdExpire 4 65535] : List Instr).all (fun i => !wellFormed i) = true := by decide +kernel

theorem test_ill_formed_4 : ([
  .fwdExpire 3 65536, .retrain 4 8, .retrain 3 9, .plLaneFail 4, .linkUp 4 8 0, .linkUp 3 9 0, .flitCrcError 4 [], .idleFlit 4 [],
  .engineHang 20 7, .engineHang 19 8, .pipeSteer 4, .pipeReplayEnd 4, .tmHang 4, .pairMismatch 4 1 none, .pairMismatch 3 2 none,
  .pllLossOfLock 4, .islandVoteDisagree 3, .siteFail 20 none 0, .regionRestoreEnd 20480, .escalationTimeout 1 0, .escalationTimeout 5 0,
  .engineReset 20 7, .engineReset 19 8, .partReset 4, .capture 4 false, .windowBoundary 0 (List.replicate 3 0), .stepGlideEnd 4,
  .pwrLimitChange 8, .droop 4, .stretchEnd 4, .sensorSample (List.replicate 79 0) (List.replicate 128 0),
  .sensorSample (List.replicate 80 0) (List.replicate 127 0), .lpChannelRetire 16, .sramPatrolScrub 20 [], .lpPeriodicRetrain 16,
  .pgoodAonRise 4, .rd 4294967296 65535 0 false false .none [], .rd 4294967295 65536 0 false false .none [],
  .wr 4294967296 65535 [] 0 false false, .wr 4294967295 65536 [] 0 false false, .registerWrite 6 4294967295, .registerWrite 8 4294967296,
  .smbusReadWord 128 255, .smbusReadWord 127 256, .smbusBlockRead 128 255, .smbusBlockRead 127 256, .activationWindow [(64, [0, 0, 0, 0])],
  .activationWindow [(63, [0, 0, 0])]] : List Instr).all (fun i => !wellFormed i) = true := by decide +kernel

theorem test_well_formed_1 : ([
  .apertureRead 63 508 4 .none, .rqMark 63, .rqRewind 63, .rqRelease 63, .rqMarkRelease 63, .rqFlush 63, .traceQueueDrain 19,
  .schedulerDecision 15 3 .none, .dequeueEnd 15 3, .pauseExpiry 15 3 7, .sampleSweep 3 false, .tmAqmSeedWrite 3 0,
  .policerCfgWrite 3 0 3 0, .shaperCfgWrite 3 false 0 1 0, .cellPoolReclaim 3, .resultRecord 3, .refusalVerdict 3, .latencyBoundExpiry 3 0,
  .ledgerHoldExpiry 3 65535, .sampleWindowEnd 3, .probe 3 false (List.replicate 48 0) [], .probe 3 false (List.replicate 16 0) [],
  .probe 3 false (List.replicate 32 0) [], .probe 3 false (List.replicate 64 0) [], .age 3 false 3 0 [], .scanPassStart 3 false,
  .insertTokenAccrue 3, .moveTokenAccrue 3, .grnInsert 3 false 0, .grnDelete 3 false 0, .grnRead 3 false 0 [], .grnPin 3 false 0,
  .grnUnpin 3 false 0, .grnFlush 3 false false, .grnCfgWrite 3 false 0, .grnEvictSeedWrite 3 0, .frameReceive 15 3 [] false false,
  .pfcFrameReceive 15 3 [] false, .endStatus 3 0, .pipeDescriptor 3 [],
  .commit 3 (List.replicate 48 0) (some (List.replicate 16 0)) 0 67 0 0 [] [], .laneFail 15 3, .fpLinkUp 15 3, .requestAdmit 19 false,
  .nop ⟨19, []⟩, .take ⟨19, []⟩, .post ⟨19, []⟩, .kset ⟨19, []⟩, .commandComplete 19 255, .teardown 20479, .ctxFault 20479, .knotRead 20479,
  .knotWrite 20479, .quiesceEnd 20479, .quiesceTimeout 20479, .matmul 19 [], .eval 19 [], .stream 19 [], .passStart 19, .passChunk 19 [],
  .ew 19 [], .fma 19 [], .reduce 19 [], .softmax 19 [], .norm 19 [], .lut 19 [], .quant 19 [], .dequant 19 [], .combine 19 [],
  .convert 19 [], .copy 19 [], .gather 19 [], .scatter 19 [], .transpose 19 [], .fill 19 [], .attend 19 [], .topk 19 [], .happend 19 [],
  .gemv 19 [], .xpose 19 []] : List Instr).all wellFormed = true := by decide +kernel

theorem test_well_formed_2 : ([
  .bankRead ⟨4095, 0, 63, 4095, 65535⟩ 0 32764 4 .none, .bankWrite ⟨4095, 0, 63, 4095, 65535⟩ 32767 (List.replicate 64 0) .none,
  .score ⟨4095, 2, 63, 4095, 65535⟩ 0 0 [] .none, .value ⟨4095, 2, 63, 4095, 65535⟩ 0 [] [] .none,
  .bankTopk ⟨4095, 2, 63, 4095, 65535⟩ 0 0 0 [] .none, .dot ⟨4095, 2, 63, 4095, 65535⟩ 0 0 [] .none,
  .bankXpose ⟨4095, 2, 63, 4095, 65535⟩ 0 0 0 0 false .none, .append ⟨4095, 2, 63, 4095, 65535⟩ 0 0 [] [] .none,
  .migrationCopy ⟨4095, 5, 63, 4095, 65535⟩ 0, .patrolScrub ⟨4095, 5, 63, 4095, 65535⟩ 32767 .none, .bankRemap 4095, .bankRefresh 4095,
  .samplerRead 1020 4, .flashReadComplete 0 0 0 0 3, .captureFetch 15, .chunkFrame 15 3 [] false, .channelTimeout 3, .slotCommit 20479,
  .forcedCommit 20479, .drainEnd 20479 1, .reqMessage 3 [], .rspMessage 3 [], .headMessage 3 [], .loadMessage 3 [], .liveMessage 3 [],
  .peerLost 63, .peerBack 63, .fwdExpire 3 65535, .retrain 3 8, .plLaneFail 3, .linkUp 3 8 0, .flitCrcError 3 [], .idleFlit 3 [],
  .engineHang 19 7, .pipeSteer 3, .pipeReplayEnd 3, .tmHang 3, .pairMismatch 3 1 none, .pllLossOfLock 3, .islandVoteDisagree 2,
  .siteFail 19 none 0, .regionRestoreEnd 20479, .escalationTimeout 4 0, .escalationTimeout 2 0, .escalationTimeout 3 0, .engineReset 19 7,
  .partReset 3, .capture 3 false, .windowBoundary 0 (List.replicate 4 0), .stepGlideEnd 3, .pwrLimitChange 7, .droop 3, .stretchEnd 3,
  .sensorSample (List.replicate 80 0) (List.replicate 128 0), .lpChannelRetire 15, .sramPatrolScrub 19 [], .lpPeriodicRetrain 15,
  .pgoodAonRise 3, .rd 4294967295 65535 0 false false .none [], .wr 4294967295 65535 [] 0 false false, .registerWrite 8 4294967295,
  .smbusReadWord 127 255, .smbusBlockRead 127 255, .activationWindow [(63, [0, 0, 0, 0])]] : List Instr).all wellFormed = true := by decide +kernel

/-! ### Witnesses: report queues, counters, traffic manager -/

/-- Power-on state with one staged record for queue 5. -/
def tStaged (cfg : Word) (limit : Nat) : State :=
  { State.reset with rq := { State.reset.rq with staged := [⟨10, 5, 4, 6, [1, 2]⟩],
                                                 queues := [(5, { rqQueue0 with cfg := cfg, limit := limit })] } }

/-- Queue 5 holds one list of records at priority 3. -/
def tQueue (l : RqList) : State := { State.reset with rq := { State.reset.rq with queues := [(5, { rqQueue0 with lists := [(3, l)] })] } }

/-- A record of three cells. -/
def tRec : RqRec := ⟨3, 9, List.replicate 160 7, [0, 100, 200]⟩

theorem wit_RecordAcceptance :
    ((tStaged 0x86000000 8192).rq.staged = [⟨10, 5, 4, 6, [1, 2]⟩] ∧ (tStaged 0x86000000 8192).wv.held = [] ∧
      rqEnabled (rqGet (tStaged 0x86000000 8192) 5) = true ∧ rqFull (tStaged 0x86000000 8192) 5 = false) ∧
    ((tStaged 0x06000000 8192).wv.held = [] ∧ rqEnabled (rqGet (tStaged 0x06000000 8192) 5) = false) ∧
    rqFull (rqPut (tQueue { rqList0 with recs := [tRec] }) 5 { rqGet (tQueue { rqList0 with recs := [tRec] }) 5 with limit := 8 }) 5 = true := by
  decide +kernel

theorem wit_ReportReading :
    (let s := tQueue { rqList0 with recs := [tRec, { tRec with seq := 10, cells := [300] }] }
     let u := fun (hit : RqHit) => match rqUeAt s 5 hit with | some a => strike s a | none => s
     rqEnabled (rqGet s 5) = true ∧ rqTop (rqGet s 5) = some 3 ∧ (rqListOf s 5 3).recs[(rqListOf s 5 3).cursor]? = some tRec ∧
     (rqListOf s 5 3).err = none ∧ rqMeets (u .none) 5 = .none ∧ rqMeets (u (.cell 1)) 5 = .cell 1 ∧
     rqMeets (u (.link 2)) 5 = .link 2 ∧ tRec.cells.length ≤ 2 + 1 ∧ rqMeets (u (.link 1)) 5 = .link 1 ∧ 1 + 1 < tRec.cells.length) ∧
    (let s := tQueue { rqList0 with recs := [tRec], cursor := 1, err := some (10, 64, 5) }
     rqTop (rqGet s 5) = some 3 ∧ (rqListOf s 5 3).recs[(rqListOf s 5 3).cursor]? = none ∧ (rqListOf s 5 3).err = some (10, 64, 5)) ∧
    rqTop (rqGet State.reset 63) = none := by
  decide +kernel

theorem wit_QueueCommands : (7 : Nat) < 8 := by decide

/-- Power-on state with a sample ring of one unit and a trace region. -/
def tObs (w : Nat) (cfg : Nat) : State :=
  { rgw (rgw (rgw (rgw (rgw State.reset rOBS_SRING_SIZE 1) rOBS_SRING_WR w) rOBS_SMPL_CFG cfg) rOBS_TRC_SIZE 1) rOBS_TRC_CFG 0x40000000 with
      obs := { State.reset.obs with trq := [(0, [List.replicate 16 3])], trWr := 65520 },
      time := { State.reset.time with up := 1000000 } }

/-- Counter 5 counted 3 at 0 ns of powered time, of which 200 ns have passed. -/
def tCnt (up : Nat) : State := { cinc State.reset 5 3 with time := { State.reset.time with up := up } }

theorem wit_CounterCommands : isScope 17 = false ∧ isScope 18 = true ∧ isScope 2047 = false ∧ (tCnt 210).obs.late ≠ [] ∧
    (∀ o ∈ (tCnt 210).obs.late, o.idx = 5 → arrives o < (tCnt 210).time.up / 10) ∧
    (∀ o ∈ (tCnt 190).obs.late, o.idx = 5 → arrives o ≠ (tCnt 190).time.up / 10) ∧ cntRead (tCnt 190) 5 = 0 ∧ cntRead (tCnt 210) 5 = 3 := by decide +kernel

theorem wit_SnapshotsAndTrace :
    (let s := tObs 0 0x80000000
     let need := 32 + 16 * (snapSelected s).length
     ¬(rg s rOBS_SRING_SIZE = 0 ∨ rgb s rOBS_SMPL_STATUS 31 = true) ∧ rg s rOBS_SRING_WR * 16 + need ≤ rg s rOBS_SRING_SIZE * 65536 ∧
     rg s rOBS_SRING_WR * 16 < rg s rOBS_SRING_SIZE * 65536 ∧ snapDue s = true) ∧
    (let s := tObs 4095 0x80000000
     snapDue s = true ∧ ¬(rg s rOBS_SRING_SIZE = 0 ∨ rgb s rOBS_SMPL_STATUS 31 = true) ∧ rgb s rOBS_SMPL_CFG 30 = false ∧
     ¬(rg s rOBS_SRING_WR * 16 + (16 + 32 + 16 * (snapSelected s).length) ≤ rg s rOBS_SRING_SIZE * 65536)) ∧
    rg State.reset rOBS_SRING_SIZE = 0 ∧ snapDue State.reset = false ∧
    (let s := rgw { State.reset with time := { State.reset.time with up := 1000000 } } rOBS_SMPL_CFG 0x80000001
     snapDue s = true ∧ rg s rOBS_SRING_SIZE = 0) ∧
    (let s := tObs 0 0
     traceQ s 0 = [List.replicate 16 3] ∧ rgb s rOBS_TRC_STATUS 31 = false ∧ rg s rOBS_TRC_SIZE ≠ 0 ∧
     rg s rOBS_TRC_SIZE * 65536 ≤ s.obs.trWr + 16 ∧ rgb s rOBS_TRC_CFG 30 = true) ∧ traceQ State.reset 0 = [] := by
  decide +kernel

/-- A frame with no cells, for entries that name it. -/
def tFrame : Frame :=
  { part := 0, cells := [4], refs := 1, bytes := List.replicate 64 1, gt := 0, port := 0, sub := 0, endPending := false, ptp := false,
    fecBad := false, seq := 0, fromPeer := false, srcDev := 0, length := 64, headSlot := none, ring := 0, stage := .queued, hold := none, entry := none,
    ipver := 0, ipoff := 0, color := 0, msgHdr := [], replayed := false, tables := none }

/-- A queue entry of it. -/
def tEnt : QEnt :=
  { frame := 4, enq := 0, cells := 1, length := 64, slot := none, colour := 0, tag := false, mark := false, markKind := 0, ce := false,
    mirror := false, dscp := 0, ipver := 0, ipoff := 0, tagw := 0, gen := 0, conf := 0 }

/-- Port 0's queue 0 holds that entry, with credit for it. -/
def tSched : State :=
  let s := { State.reset with frames := [(4, some tFrame)], subs := [(0, ⟨8, 0⟩)] }
  let s := rgw (rgw s (rFP_CFG 0) 0x80002580) (rFP_STATUS 0) 0x10000000
  qPut (gPut s 0 0 { g0 with cfg := 0x07000000, dc := 5000, fresh := false }) 0 0 { q0 with ents := [tEnt], dc := 5000, fresh := false }

theorem wit_SchedulerDecision :
    (tSched.pwr.tripped = false ∧ intact tSched ∧ subEligible tSched 0 0 = [0] ∧ prioGroups tSched 0 0 7 = [groupOf tSched 0 0 0] ∧
     (qGet tSched 0 0).ents = [tEnt] ∧ (qGet tSched 0 0).fresh = false ∧ (gGet tSched 0 (groupOf tSched 0 0 0)).fresh = false ∧
     entCost tSched 0 tEnt ≤ (qGet tSched 0 0).dc ∧ entCost tSched 0 tEnt ≤ (gGet tSched 0 (groupOf tSched 0 0 0)).dc) ∧
    (∀ pri < 8, prioGroups State.reset 0 0 pri = []) := by
  unfold intact; decide +kernel

theorem wit_SchedulerDecision_none : ∀ pri, prioGroups State.reset 3 1 pri = [] := fun _ => rfl

/-- Frame 4 is in transmission on port 0, sub-port 0. -/
def tSending : State := tmPut { State.reset with frames := [(4, some tFrame), (5, some { tFrame with refs := 2 })] } 0
  { tmGet State.reset 0 with tx := [(0, [⟨[1, 2], some 4⟩, ⟨[3], none⟩]), (1, [⟨[1, 2], some 5⟩])] }

theorem wit_TransmissionEnds :
    tget [] (tmGet tSending 0).tx 0 = [⟨[1, 2], some 4⟩, ⟨[3], none⟩] ∧ frameGet tSending 4 = some tFrame ∧ tFrame.refs ≤ 1 ∧
    tget [] (tmGet tSending 0).tx 1 = [⟨[1, 2], some 5⟩] ∧ frameGet tSending 5 = some { tFrame with refs := 2 } := by decide +kernel

theorem wit_TrafficTimers :
    (let s := tmPut { State.reset with gt := 900 } 3 { tmGet State.reset 3 with pause := [(510, [(20, 500), (700, 900)])] }
     tget [] (tmGet s (portPart 15)).pause ((15 * 4 + 3) * 8 + 6) ≠ [] ∧
     ∀ e ∈ tget [] (tmGet s (portPart 15)).pause ((15 * 4 + 3) * 8 + 6), e.1 ≤ s.gt ∧ e.2 ≤ s.gt) ∧
    rgb (rgw State.reset (rTM_SAMPLE 3) 0x80000000) (rTM_SAMPLE 3) 31 = true := by decide +kernel

theorem wit_TrafficConfiguration : (3 : Nat) < 4 ∧ (1 : Nat) < 2 := by decide

theorem wit_CellsReturned : let s := { State.reset with rq := { State.reset.rq with lostCells := [(0, 7)] } }
    (∀ e ∈ s.rq.lostCells, bankFenced s (bankOf (rqCellAddr e.2)) = false) ∧ ∀ e ∈ s.rq.lostCells, e.2 ≠ 8 := by decide +kernel

/-! ### Witnesses: verdict units, Granary, intake -/

/-- The state after a command. -/
def after (i : Instr) (s : State) : State := match exec i s with | .next t => t | _ => s

/-- A journal slot of context 3. -/
def tSlot : JSlot := { admitted := true, order := 0, hdr := List.replicate 32 0, payload := [], frame := none, uid := none, ctx := 3, sampled := false, peer := none }

/-- Verdict unit 1 has one result or refusal for slot 7 of its journal. -/
def tVerdict (refusal : Bool) (j : JSlot) : State :=
  jPut (vdPut State.reset 1 { vd0 with inq := [⟨refusal, 7, 3, 0, 1, List.replicate 16 0⟩] }) 1 7 (some j)

theorem wit_ResultsAndRefusals : ∀ r : Bool,
    (vdGet (tVerdict r tSlot) 1).inq = [⟨r, 7, 3, 0, 1, List.replicate 16 0⟩] ∧ jGet (tVerdict r tSlot) 1 7 = some tSlot ∧ tSlot.peer = none ∧
    jGet (tVerdict r { tSlot with peer := some (0, 5, 1, 9) }) 1 7 = some { tSlot with peer := some (0, 5, 1, 9) } := by decide +kernel

/-- A held frame whose bound ends at `u`, an open ledger slot since 0, two contexts that are sampled. -/
def tBounds (u gt : Nat) : State :=
  let s := { State.reset with gt := gt, frames := [(4, some { tFrame with stage := .held, hold := some ⟨false, 0, u, 3, 0⟩ })],
                              ctxs := [(3, { ctx0 with state := 1 })] }
  vdPut s 0 { vd0 with samp := [(3, { samp0 with sx := 1 })], ledger := [(9, some { entry := 0, uid := 0, cls := 0, opened := true, pframes := 0, pbytes := 0, mbytes := 0, qleft := 0, since := 0 })] }

theorem wit_BoundsAndWindows :
    (frameGet (tBounds 500 500) (frameKey 0 4) = some { tFrame with stage := .held, hold := some ⟨false, 0, 500, 3, 0⟩ }) ∧
    (500 : Nat) ≤ (tBounds 500 500).gt ∧ (tBounds 501 500).gt < 501 ∧
    (let s := tBounds 0 (1000 * max 1 (rgf State.reset (rVD_LEDGER 0) 31 16))
     ∃ l, slotGet s 0 9 = some l ∧ l.opened = true ∧ 1000 * max 1 (rgf s (rVD_LEDGER 0) 31 16) ≤ s.gt - l.since) ∧
    (((vdGet (tBounds 0 0) 0).samp.map fun e => e.1).Nodup ∧ ((tBounds 0 0).ctxs.map fun e => e.1).Nodup) := by
  refine ⟨by decide +kernel, by decide, by decide, ⟨_, rfl, by decide +kernel, by decide +kernel⟩, by decide +kernel⟩

/-- Both tables of share 1 on, its scan running; key registers zero. -/
def tGrn (gt : Nat) : State :=
  rgw (rgw (rgw { State.reset with gt := gt } (rGRN_SCAN 1) 0x00010001) (grnCfg 1 false) 0x80000008) (grnCfg 1 true) 0x80000008

/-- The share with one entry that the host inserted at time 0. -/
def tGrnIn (ep : Bool) (gt : Nat) : State := { after (.grnInsert 1 ep 0) (tGrn 0) with gt := gt }

/-- The host's key. -/
def tKey : Bytes := List.replicate 16 0

theorem wit_GranaryLookup : ∀ ep : Bool, grnOn (tGrn 0) 1 ep = true ∧ (hostFind (tGrn 0) 1 ep tKey []).1 = none ∧
    (let s := tGrnIn ep 1000
     let i := (hostFind s 1 ep tKey []).1.getD 0
     let e := (entGet s 1 ep i).getD default
     (hostFind s 1 ep tKey []).1 = some i ∧ entGet s 1 ep i = some e ∧ entExpired s 1 ep e = false) ∧
    (let s := rgw (tGrnIn ep 33000) (if ep then rGRN_EP_AGE 1 else rGRN_FLOW_AGE 1) 1
     let i := (hostFind s 1 ep tKey []).1.getD 0
     let e := (entGet s 1 ep i).getD default
     (hostFind s 1 ep tKey []).1 = some i ∧ entGet s 1 ep i = some e ∧ entExpired s 1 ep e = true) := by decide +kernel

theorem wit_GranaryScan : ∀ ep : Bool,
    (scanOn (tGrn 0) 1 ep = true ∧ passGet (tGrn 0) 1 ep = none) ∧
    (let s := passPut (tGrn 1000000) 1 ep (some (0, [(0, 1)]))
     scanOn s 1 ep = true ∧ passGet s 1 ep = some (0, [(0, 1)]) ∧ 0 + 1000000 * max 1 (rgf s (rGRN_SCAN 1) 31 16) ≤ s.gt ∧
     2 ^ wayLog2 s 1 ep / 256 ≤ tget 0 [(0, 1)] 0) ∧
    (let s := passPut (tGrn 999999) 1 ep (some (0, []))
     s.gt < 0 + 1000000 * max 1 (rgf s (rGRN_SCAN 1) 31 16) ∧ visitDue s 1 ep 3 255 0 [] = true ∧ intact s ∧
     visitDue s 1 ep 3 255 0 [(1023, 1)] = false) := by
  unfold intact; decide +kernel

/-- Every home bank has visited one bucket. -/
theorem wit_GranaryScan_ended (h m n : Nat) (l : m ≤ h) (u : h < m + n) : tget 0 ((List.range' m n).map fun h => (h, 1)) h = 1 := by
  induction n generalizing m with
  | zero => omega
  | succ n ih =>
    simp only [List.range'_succ, List.map_cons, tget]
    split
    · rfl
    · exact ih (m + 1) (by omega) (by omega)

theorem wit_GranaryTokens : rgf (rgw State.reset (rGRN_MOVE 1) 1) (rGRN_MOVE 1) 15 0 ≠ 0 ∧ rgf (rgw State.reset (rGRN_MOVE 1) 0) (rGRN_MOVE 1) 15 0 = 0 := by
  decide +kernel

theorem wit_GranaryHostEntries : ∀ ep : Bool,
    hostKey (tGrn 0) 1 0 = tKey ∧ (∃ i, freeSlot (tGrn 0) 1 ep tKey = some i) ∧ grnOn State.reset 1 ep = false := by
  intro ep; cases ep <;> exact ⟨by decide +kernel, ⟨_, rfl⟩, by decide +kernel⟩

theorem wit_GranaryTables : ∀ ep : Bool, grnOn (tGrnIn ep 0) 1 ep = true ∧
    ((if ep then (shareGet (tGrnIn ep 0) 1).ep else (shareGet (tGrnIn ep 0) 1).flow).map fun x => x.1).Nodup ∧
    bit (rg (tGrn 0) (grnCfg 1 ep)) 31 = true ∧ bit (rg State.reset (grnCfg 1 ep)) 31 = false := by decide +kernel

/-- Front port 0 carries traffic; port 0 honours pauses of priority 0. -/
def tPort : State := rgw (rgw { State.reset with subs := [(0, ⟨4, 0⟩)] } (rFP_CFG 0) 0x80012580) (rFP_STATUS 0) 0x10000000

/-- A frame with its FCS; with a wrong one. -/
def tBytes (b : Bytes) : Bytes := let p := b ++ List.replicate (60 - b.length) 0; p ++ fcs p

/-- A PFC frame that pauses priority 0. -/
def tPfc : Bytes := tBytes (leBytes 12 0 ++ beBytes 2 0x8808 ++ beBytes 2 0x0101 ++ beBytes 2 1 ++ beBytes 2 4)

theorem wit_FramesArrive :
    (let b := tBytes (leBytes 12 5 ++ beBytes 2 0x0800)
     0 < subCount tPort 0 ∧ linkUp tPort 0 0 = true ∧ tPort.pwr.tripped = false ∧ macOpen tPort 0 0 ∧ isPfc b = false ∧ sessionOf tPort 0 0 b = none ∧
     guardCells tPort 0 < poolFree tPort 0 ∧ b.length ≤ 512 ∧ macCheck tPort 0 b false = none ∧ (pipeMark (pipeGet tPort (procPart tPort 0))).bypass = false ∧
     rgb tPort (rPIPE_CTRL 0) 0 = false) ∧
    ¬macOpen tPort 0 1 ∧ ¬macOpen State.reset 15 3 ∧
    (let s := rgwf tPort rGLB_CONFIG 15 12 0; poolFree s 0 ≤ guardCells s 0 ∧ macOpen s 0 0) ∧
    macCheck tPort 0 (List.replicate 64 1) false = some 2 := by
  unfold macOpen; decide +kernel

theorem wit_PauseFrames : linkUp tPort 0 0 = true ∧ tPort.pwr.tripped = false ∧ isPfc tPfc = true ∧ macCheck tPort 0 tPfc false = none ∧ subRate tPort 0 0 ≠ 0 ∧ bit (beAt tPfc 16 2) 0 = true ∧
    bit (beAt tPfc 16 2) 7 = false ∧ bit (rgf tPort (rFP_CFG 0) 23 16) 0 = true := by decide +kernel

/-- Frame 4 waits for its end status at the head of pipe 0. -/
def tHead (f : Frame) : State := pipePut { tPort with frames := [(4, some f)] } 0 { pipe0 with dq := [4] }

theorem wit_EndStatus :
    (let f := { tFrame with bytes := tBytes [], endPending := true }
     frameGet (tHead f) (frameKey 0 4) = some f ∧ f.stage = .queued ∧ macCheck (tHead f) 0 f.bytes f.fecBad = none ∧
     frameGet (tHead { f with stage := .parsed, tables := some State.reset.weave }) (frameKey 0 4) =
       some { f with stage := .parsed, tables := some State.reset.weave } ∧
     frameGet (tHead { f with stage := .bypassed }) (frameKey 0 4) = some { f with stage := .bypassed }) ∧
    (let f := { tFrame with endPending := true }
     frameGet (tHead f) (frameKey 0 4) = some f ∧ f.refs = 1 ∧ macCheck (tHead f) 0 f.bytes f.fecBad = some 2) := by decide +kernel

theorem wit_PipeTakes :
    (let f := { tFrame with endPending := true }
     (pipeGet (tHead f) 0).dq = [4] ∧ frameGet (tHead f) 4 = some f ∧ (tHead f).pwr.tripped = false ∧
     keyWaits (tHead f) 4 f (parse (tHead f) f) = false ∧ cellsBad (tHead f) f.part (f.cells.take 2) = none) ∧
    (keyWaits (tHead tFrame) 4 tFrame (parse (tHead tFrame) tFrame) = false ∧ tFrame.endPending = false ∧ tFrame.headSlot = none) ∧
    (let s := strike (tHead tFrame) (cellA (tHead tFrame) 0 4); cellsBad s 0 (tFrame.cells.take 2) ≠ none) ∧
    (pipeGet (tHead tFrame) 1).dq = [] ∧
    committed (tget none (shareGet (tGrn 0) 1).marks 0) 0 = false ∧ committed (some 5) 5 = true ∧ committed (some 5) 6 = false := by decide +kernel

theorem wit_PortLinks :
    (rgb tPort (rFP_STATUS 0) 28 = true ∧ 1 < (subGet tPort 0 0).lanes) ∧
    (subGet { tPort with subs := [(0, ⟨1, 0⟩)] } 0 0).lanes ≤ 1 ∧ rgb tPort (rFP_CFG 0) 31 = true ∧ pairMismatch tPort 0 = false ∧
    pairMismatch (rgw tPort (rFP_CFG 15) 0x80000000) 15 = false ∧ bit tPort.boot.noRef 3 = false ∧ 0 < subCount (rgw tPort (rFP_CFG 15) 0x80000000) 15 ∧
    bit ({ tPort.boot with noRef := 8 } : Boot).noRef (15 / 4) = true := by decide +kernel

/-! ### Writes of the test contexts -/

/-- An SRAM address of a region at 0 without kept sections. -/
theorem physA_sram (s : State) (l : Nat) (v : SlotImg) (a : Nat) (hm : v.maps = []) (ha : a < 20971520) :
    physA s l v 0 a = sramBase (tileSite s l) + a := by
  unfold physA sramA
  have : ¬ (20971520 ≤ a) := by omega
  simp [hm, this]

/-- Writes of disjoint ranges of such a region. -/
theorem canWrite_sram (s : State) (l : Nat) (v : SlotImg) (ws : List (Nat × Bytes)) (hm : v.maps = []) (hb : v.regionBase = 0)
    (hr : v.regionSize ≤ 65536) (hin : ∀ e ∈ ws, e.1 + e.2.length ≤ v.regionSize)
    (hd : ws.Pairwise fun e f => e.1 + e.2.length ≤ f.1 ∨ f.1 + f.2.length ≤ e.1) : canWrite s l v (ws.map fun e => (0, e)) := by
  have sp : ∀ e ∈ ws, spBytes s l v 0 e.1 e.2.length = (List.range' (sramBase (tileSite s l) + e.1) e.2.length) := by
    intro e he
    have h := hin e he
    unfold spBytes
    rw [List.range'_eq_map_range]
    refine List.map_congr_left fun i hi => ?_
    rw [physA_sram s l v _ hm (by have := List.mem_range.1 hi; omega)]; omega
  refine ⟨?_, ?_⟩
  · intro e he
    obtain ⟨x, hx, rfl⟩ := List.mem_map.1 he
    have := hin x hx
    simp [inWin, hb]; omega
  · rw [List.flatMap_map, List.Nodup, List.pairwise_flatMap]
    refine ⟨fun e he => by rw [sp e he]; exact List.nodup_range', ?_⟩
    refine List.Pairwise.imp_of_mem ?_ hd
    intro e f he hf h
    simp only [sp e he, sp f hf]
    intro x hx y hy
    simp only [List.mem_range'_1] at hx hy
    omega

/-! ### Witnesses: dispatcher and engines -/

/-- Does a check pass. -/
def isOk {ε α : Type} : Except ε α → Bool
  | .ok _ => true
  | .error _ => false

/-- What it answers. -/
def got {ε α : Type} [Inhabited α] : Except ε α → α
  | .ok x => x
  | .error _ => default

theorem ok_got {ε α : Type} [Inhabited α] {e : Except ε α} (h : isOk e = true) : e = .ok (got e) := by
  cases e with
  | ok x => rfl
  | error x => cases h

/-- One piece of work reads nothing that an earlier one wrote. -/
theorem inOrder_one (a b : Nat → List Nat) : inOrder 1 a b := by
  intro r r' h h'; omega

/-- A command word: engine, operation, EFLAGS, operands; no waits, no signal. -/
def tW (e op f : Nat) (o : List Nat) : List Nat := [e * 2 ^ 29 + op * 2 ^ 24 + f, 0, 0, 0] ++ o ++ List.replicate (4 - o.length) 0

/-- An immediate of VX and the Mover. -/
def tImm (v : Nat) : Nat := 3 * 2 ^ 30 + v

/-- A running context of tile 0. -/
def tCtx : Ctx :=
  { ctx0 with state := 1, active := 0, img := { slotImg0 with streamBase := 0, streamLen := 4, regionSize := 65536, reqBase := 32768,
                                                               reqStride := 128, knotCount := 8, tierSize := 1048576, lpSize := 1048576 } }

/-- Tile 0 at site 0 with that context, `w` at the head of its ring, and bytes at SRAM addresses. -/
def tEng (w : List Nat) (xs : List (Nat × Bytes)) : State :=
  { State.reset with
      tiles := [(0, { tile0 with site := some 0 })], sites := [(0, { role := 0, lt := 0, epoch := 0, fenced := false })], ctxs := [(0, tCtx)],
      mem := xs.foldl (fun m e => twrite m (sramBase 0 + e.1) e.2) (twrite [] (sramBase 0) (w.flatMap (leBytes 4))) }

/-- Tile 0 with a batch of one request in buffer 0 and a second request that waits. -/
def tBatch (w : List Nat) (fresh : Bool) : State :=
  { tEng w [] with ctxs := [(0, { tCtx with n := 1, fresh := fresh, admitted := 2, bufs := [(0, some ⟨0, 7, true, false⟩), (1, some ⟨0, 8, false, false⟩)] })] }

theorem wit_RequestAdmission :
    (let s := jPut { tEng [] [] with tiles := [(0, { tile0 with site := some 0, rq := [⟨0, 7⟩] })] } 0 7 (some { tSlot with ctx := 0 })
     (tileGet s 0).rq = [⟨0, 7⟩] ∧ jGet s 0 7 = some { tSlot with ctx := 0 } ∧ admitInto s 0 = (none, tCtx.img, 0, []) ∧ s.pwr.tripped = false ∧ intact s ∧ (ctxGet s 0).state = 1 ∧
     generalBad s 0 (journalAt s 7) 2112 = none ∧
     outAll s 0 < maxOut (ctxGet s 0) ∧ ({ tSlot with ctx := 0 } : JSlot).payload.length + 32 ≤ tCtx.img.reqStride ∧ tCtx.img.maps = [] ∧
     (32768 + 64 ≤ 20971520)) ∧
    (let s := { tEng [] [] with tiles := [(0, { tile0 with site := some 0, rq := [⟨0, 7⟩] })], ctxs := [(0, { tCtx with state := 2 })] }
     (ctxGet s 0).state ≠ 1) ∧
    (let s := { tEng [] [] with ctxs := [(0, { tCtx with cfg := 0x00300101, bufs := [(0, some ⟨0, 7, true, false⟩)], admitted := 1 })] }
     maxOut (ctxGet s 0) ≤ outAll s 0) ∧
    (let s := jPut { tEng [] [] with tiles := [(0, { tile0 with site := some 0, rq := [⟨0, 7⟩] })] } 0 7 (some { tSlot with ctx := 0 })
     let t := strike s (generalA s 0 (journalAt s 7)); generalBad t 0 (journalAt t 7) 2112 ≠ none ∧ (tileGet t 0).rq = [⟨0, 7⟩]) ∧
    (let j : JSlot := { tSlot with payload := List.replicate 97 0 }; tCtx.img.reqStride < j.payload.length + 32) ∧
    (tileGet State.reset 19).rq = [] := by unfold intact; decide +kernel

theorem wit_DispatcherCommands :
    (let w := tW 0 0 0 []; issuesNow (tEng w []) 0 0 0 0 w) ∧
    (let w := tW 0 3 0 [tImm 7, tImm 5]; issuesNow (tEng w []) 0 0 3 0 w) ∧
    (let w := tW 0 1 0 []; issuesNow (tBatch w false) 0 0 1 0 w) ∧
    (let w := tW 0 2 0 [256]; issuesNow (tBatch w true) 0 0 2 0 w ∧ intact (tBatch w true) ∧ (ctxGet (tBatch w true) 0).fresh = true ∧
      (ctxGet (tBatch w true) 0).n ≠ 0) ∧
    (let w := tW 0 2 0 [256]; issuesNow (tEng w []) 0 0 2 0 w ∧ (ctxGet (tEng w []) 0).fresh = false) := by
  unfold issuesNow intact; decide +kernel

theorem wit_DispatcherCommands_signals : ∀ s l v, sigFits s l v (sigOf (tW 0 0 0 [])) := by
  intro s l v k n h
  have e : sigOf (tW 0 0 0 []) = none := by decide +kernel
  rw [e] at h; cases h

/-- A command with a signal of 65,535 to knot 7 fits it while the knot holds no more than 2^32 − 65,536. -/
theorem wit_sigFits_edge : sigFits { State.reset with knots := [(7, 4294901760)] } 0 tCtx.img (some (7, 65535)) := by
  intro k n h; cases h; decide +kernel

theorem wit_IssueOfHeadCommands :
    (let w := tW 4 4 (2 ^ 20) [0, 256, tImm 0, tImm 1]; issuesNow (tEng w []) 0 4 4 0 w ∧ itersOf (ctxGet (tEng w []) 0) w = 0) ∧
    (let s := tEng (tW 3 15 0 []) []; ((tileCtxs s 0).find? fun d => ctxRuns (ctxGet s d) && rowIs 3 0 (headOf s d) && (headFault s d).isSome) = some 0 ∧
      (headFault s 0).isSome = true) ∧
    (let w := tW 4 4 0 [0, 65536, tImm 0, tImm 1]; let s := tEng w []
     candidate s 0 = some 0 ∧ rowIs 4 4 (headOf s 0) = true ∧ ((List.range 1).findSome? fun j => opdFault s 0 tCtx.img 0 j (headOf s 0)).isSome = true) ∧
    candidate State.reset 0 = none := by
  unfold issuesNow; decide +kernel

/-- An entry of the scoreboard. -/
def tSb : SbEnt :=
  { ctx := 0, ply := 0, engine := 4, op := 0, index := 0, sig := none, iters := 1, issued := 0, order := 0, span := 0, quarters := 0, retried := false,
    inPass := false, todo := none, gone := false, groups := [], traced := false }

/-- Tile 0 with an entry. -/
def tHeld (x : SbEnt) : State := { tEng [] [] with tiles := [(0, { tile0 with site := some 0, sb := [(255, some x)] })] }

theorem wit_CommandCompletion :
    tget none (tileGet (tHeld tSb) 0).sb 255 = some tSb ∧ tget none (tileGet (tHeld tSb) 0).sb 0 = none ∧ tSb.ply = (ctxGet (tHeld tSb) 0).ply ∧
    (1 : Nat) ≠ (ctxGet (tHeld { tSb with ply := 1 }) 0).ply ∧ tSb.todo = none ∧ tSb.inPass = false ∧
    (tHeld tSb).pwr.tripped = false ∧ sigFits (tHeld tSb) 0 tCtx.img tSb.sig ∧ ({ tSb with inPass := true } : SbEnt).inPass = true ∧
    (let s := { tHeld { tSb with sig := some (7, 1) } with knots := [(7, 0xFFFFFFFF)] }
     0xFFFFFFFF < knotGet s 0 tCtx.img 7 + 1 ∧ (ctxGet s 0).state = 1) := by
  refine ⟨by decide +kernel, by decide +kernel, by decide +kernel, by decide +kernel, rfl, rfl, rfl, ?_, rfl, by decide +kernel⟩
  intro k n h; cases h

theorem wit_ContextCommands :
    braidOdd (tEng [] []) 0 = false ∧ braidOdd (rgwf (tEng [] []) rGLB_CONFIG 23 16 1) 1 = true ∧ (ctxGet (tEng [] []) 0).state = 1 ∧
    (ctxGet State.reset 0).state = 0 ∧ knotSel (tEng [] []) 0 < (ctxGet (tEng [] []) 0).img.knotCount ∧
    (let s := rgw (tEng [] []) (rTIL_KNOT_SEL 0) 8; (ctxGet s 0).img.knotCount ≤ knotSel s 0) ∧
    (let s := { tEng [] [] with ctxs := [(0, { tCtx with state := 3, fault := 9 })] }; (ctxGet s 0).state = 3 ∧ knotSel s 0 < (ctxGet s 0).img.knotCount) ∧
    (let s := mslotPut { tEng [] [] with ctxs := [(0, { tCtx with state := 2 })] } 0 1 { mslot0 with state := 3 }
     (ctxGet s 0).state = 2 ∧ armedSlot s 0 = some 1 ∧ sbHeld s 0 = 0) := by decide +kernel

theorem wit_Quiesce :
    sbHeld (tHeld tSb) 0 ≠ 0 ∧ (ctxGet (tEng [] []) 0).state ≠ 2 ∧ (ctxGet (tEng [] []) 0).restart = none ∧
    (let s := { tEng [] [] with ctxs := [(0, { tCtx with state := 2 })], gt := 100000 }
     sbHeld s 0 = 0 ∧ (ctxGet s 0).state = 2 ∧ armedSlot s 0 = none ∧ (ctxGet s 0).downAt + 100000 ≤ s.gt) ∧
    (let s := mslotPut { tEng [] [] with ctxs := [(0, { tCtx with state := 2 })] } 0 1 { mslot0 with state := 3 }
     sbHeld s 0 = 0 ∧ (ctxGet s 0).state = 2 ∧ armedSlot s 0 = some 1 ∧ s.gt < (ctxGet s 0).downAt + 100000) ∧
    (let s := { tEng [] [] with ctxs := [(0, { tCtx with restart := some true })], gt := 100000 }
     sbHeld s 0 = 0 ∧ (ctxGet s 0).state ≠ 2 ∧ (ctxGet s 0).restart = some true ∧ (ctxGet s 0).restoring = false ∧ armedSlot s 0 = none ∧
     (ctxGet s 0).downAt + 100000 ≤ s.gt) := by decide +kernel

/-- What a check by evaluation needs of `engineIssue`: nothing runs at the tile, no bank group has reported anything. -/
def tReady (s : State) (l e op c : Nat) (w : List Nat) : Prop :=
  issuesNow s l e op c w ∧ itersOf (ctxGet s c) w = 1 ∧ waiting (sbUsed s l) = [] ∧ sbEngine s l e = [] ∧ failedMask s l = 0 ∧ evalBusy s l 0 = false ∧
  s.bad = [] ∧ s.pwr.groups = []

theorem issue_ready {s : State} {l e op c : Nat} {w : List Nat} (h : tReady s l e op c w) : engineIssue s l e op c w := by
  obtain ⟨h1, h2, h3, h4, h5, h6, h7, h8⟩ := h
  have hg : ∀ g, (groupGet s g).crit = false := by intro g; simp [groupGet, h8]; rfl
  have hm : 0 < members s l := by unfold members; split <;> decide
  refine ⟨h1, h2, ⟨h3, ?_, fun _ _ => h6, ?_, ?_⟩, h7, by rw [h8]; rfl⟩
  · rintro rfl; exact ⟨h4, h5⟩
  · intro _; rw [h4]; exact hm
  · rintro rfl; exact ⟨h4, hg⟩

/-- An INT8 product of one row and one channel of 32 codes. -/
def tMmW : List Nat := tW 1 0 0 [1024, 3072, 5120, 512]

/-- Its parameter record, blocks and scale entries. -/
def tMm : State := tEng tMmW
  [(512, [32, 65537, 64, 2560, 4608].flatMap (leBytes 4)), (1024, blockHdr 5 0 1 32 ++ List.replicate 32 3), (3072, blockHdr 6 0 1 32 ++ List.replicate 32 254),
   (2560, leBytes 4 0x3F800000 ++ leBytes 8 0 ++ leBytes 1 5), (4608, leBytes 4 0x3F800000 ++ leBytes 8 0 ++ leBytes 1 6)]

/-- The product's setup. -/
def tMmX : Except CtxFlt Mm := mmSetup tMm 0 (jobOf tCtx tMmW []) 0

theorem wit_MatmulTile_issue : engineIssue tMm 0 1 0 0 tMmW := issue_ready (by unfold tReady issuesNow; decide +kernel)

theorem wit_MatmulTile_setup : ∃ x, mmSetup tMm 0 (jobOf (ctxGet tMm 0) tMmW []) 0 = .ok x := ⟨_, ok_got (by decide +kernel)⟩

theorem wit_MatmulTile :
    (got tMmX).m ≤ 16 ∧ (got tMmX).n ≤ (got tMmX).nt ∧ (got tMmX).af = 0 ∧ (got tMmX).bf = 0 ∧ (got tMmX).out = 0 ∧ 32 ≤ (got tMmX).kt ∧
    isOk (mmFirst { s := tMm, pa := none, pb := none, done := 0, base := 0, steps := 0, again := false, sat := false, flt := none } 0 tCtx.img (got tMmX) 0 0) = true ∧
    isOk (mmTile tMm 0 tCtx.img (got tMmX) 0 0) = true ∧
    (got (mmTile tMm 0 tCtx.img (got tMmX) 0 0)).1 = [(5120, leBytes 4 (2 ^ 32 - 192))] := by decide +kernel

theorem wit_MatmulTile_write : canWrite tMm 0 tCtx.img [(0, (5120, leBytes 4 (2 ^ 32 - 192)))] :=
  canWrite_sram tMm 0 tCtx.img [(5120, leBytes 4 (2 ^ 32 - 192))] rfl rfl (by decide) (by decide) (List.pairwise_singleton _ _)

/-! ### Witnesses: Thresher, VX, Mover -/

/-- An ensemble of one tree of depth 1 with one output. -/
def tEns : Bytes :=
  leBytes 4 1 ++ leBytes 1 1 ++ leBytes 1 1 ++ leBytes 58 0 ++ padTo 64 (leBytes 4 0x3F800000) ++ padTo 64 (leBytes 4 100) ++
  padTo 64 (leBytes 4 0 ++ leBytes 4 0x40000000)

/-- Its parameter record: one sample of one feature. -/
def tThrRec : Bytes := [1, 1, 65536, 2, 64, 0, 0, 0].flatMap (leBytes 4)

/-- EVAL of it. -/
def tEvW : List Nat := tW 2 0 0 [512, 1024, 2048, 3072]
def tEv : State := tEng tEvW [(512, leBytes 2 300), (1024, tEns), (3072, tThrRec)]

/-- STREAM of it from the LPDDR5X window. -/
def tStW : List Nat := tW 2 1 0 [512, 2 * 2 ^ 30, 2048, 3072]
def tSt : State := let s := tEng tStW [(512, leBytes 2 300), (3072, tThrRec)]; { s with mem := twrite s.mem lpBase tEns }

def tEvX : Except CtxFlt Thr := thrSetup tEv 0 (jobOf tCtx tEvW []) 0

theorem wit_ThresherEvaluation_issue : engineIssue tEv 0 2 0 0 tEvW := issue_ready (by unfold tReady issuesNow; decide +kernel)

theorem wit_ThresherEvaluation :
    isOk (thrSetup tEv 0 (jobOf (ctxGet tEv 0) tEvW []) 0) = true ∧ (got tEvX).ns = 1 ∧ isOk (evalSampleOf tEv 0 tCtx.img (got tEvX) 0) = true ∧
    (got (evalSampleOf tEv 0 tCtx.img (got tEvX) 0)).out = [0x40400000] := by decide +kernel

theorem wit_ThresherEvaluation_write (a : ThrAcc) (h : a.out.length = 1) : canWrite tEv 0 tCtx.img [(0, 2048, thrRow a)] := by
  obtain ⟨_ | ⟨x, _ | ⟨y, r⟩⟩, nan, range⟩ := a <;> simp at h
  exact canWrite_sram tEv 0 tCtx.img [(2048, thrRow ⟨[x], nan, range⟩)] rfl rfl (by decide)
    (by intro e he; simp at he; subst he; show 2048 + 8 ≤ 65536; decide) (List.pairwise_singleton _ _)

/-- The pass that STREAM opens. -/
def tPass : Pass := got (streamPart tSt 0 tSb 0 (jobOf tCtx tStW []) 0)

/-- Tile 0 with a forming pass and a running one. -/
def tForm (run form : Option Pass) : State := { tSt with tiles := [(0, { tile0 with site := some 0, run := run, form := form })] }

/-- A STREAM waits in the Thresher's queue. -/
def tFull : State :=
  let e : SbEnt := { tSb with engine := 2, op := 1, todo := some (jobOf tCtx tStW []) }
  { tSt with tiles := [(0, { tile0 with site := some 0, form := some tPass, sb := [(3, some e)] })] }

theorem wit_ThresherPasses_issue : engineIssue tSt 0 2 1 0 tStW ∧ sbFree tSt 0 = some 0 :=
  ⟨issue_ready (by unfold tReady issuesNow; decide +kernel), by decide +kernel⟩

theorem wit_ThresherPasses :
    isOk (streamPart tSt 0 tSb 0 (jobOf (ctxGet tSt 0) tStW []) 0) = true ∧ tSb.ctx = 0 ∧ tSb.ply = (ctxGet tSt 0).ply ∧ passReady tPass 0 = true ∧
    (tileGet (tForm none (some tPass)) 0).run.isNone = true ∧ (tileGet (tForm none (some tPass)) 0).form.isSome = true ∧
    passReady { tPass with members := tPass.members.map fun m => { m with window := 10 } } 9 = false ∧
    (tileGet (tForm (some tPass) none) 0).run.isSome = true ∧
    ((tPass.members.map (chunkMember tSt 0 tPass [(0, slice tEns 128 128)])).all isOk = true) ∧ tPass.members.length = 1 ∧
    passTrees tPass = (1, 0) ∧ passBad tSt tPass 1 0 = none ∧ (let s := strike tSt (tPass.addr + 128); passBad s tPass 1 0 = some (tPass.addr + 128)) ∧
    (let p := { tPass with tcount := 600 }; passTrees p = (512, 0)) ∧ thrLead tSt 0 = 0 ∧
    (thrQueue tFull 0 0).map (fun e => (e.1, e.2.op)) = [(3, 1)] ∧
    256 ≤ passSamples { tPass with members := tPass.members.map fun m => { m with samples := List.replicate 256 512 } } := by
  decide +kernel

/-- A VX command of one row of four columns. -/
def tVxW (op f : Nat) (o : List Nat) : List Nat := tW 3 op f (o ++ [tImm (65536 + 4)])
def tVx (op f : Nat) (o : List Nat) (xs : List (Nat × Bytes)) : State := tEng (tVxW op f o) xs

/-- A row of two halves and two quarters. -/
def tRow : Bytes := [0x3F000000, 0x3F000000, 0x3E800000, 0x3E800000].flatMap (leBytes 4)
def tOps : List Nat := [1024, 2048, 4096]

theorem wit_VectorRows : ∀ e ∈ [(0, 0), (0, 4), (0, 5), (0, 16), (0, 21), (1, 0), (2, 0), (2, 1), (3, 0), (4, 0), (4, 1), (5, 0), (9, 5 + 4 * 16)],
    let s := tVx e.1 e.2 tOps [(1024, tRow), (2048, tRow)]
    let w := tVxW e.1 e.2 tOps
    tReady s 0 3 e.1 0 w ∧ isOk (vxShape w) = true ∧
    (∀ i ∈ [0, 1, 2], isOk (vxRow s 0 tCtx.img (opdOf tCtx.img 0 0 (cwOpd w i)) 4 5 0) = true ∧
      isOk (vxRow s 0 tCtx.img (opdOf tCtx.img 0 0 (cwOpd w i)) 4 4 0) = true) ∧
    isOk (rdChk s 0 tCtx.img 0 2048 512) = true := by unfold tReady issuesNow; decide +kernel

/-- A written row is a whole number of 64-byte units, whatever its elements. -/
theorem tPadTo_length (n : Nat) (b : Bytes) (h : b.length ≤ n) : (padTo n b).length = n := by simp [padTo]; omega

/-- One row of 64 bytes at 4096 can be written. -/
theorem wit_row (s : State) (b : Bytes) (hb : b.length = 64) : canWrite s 0 tCtx.img [(0, 4096, b)] :=
  canWrite_sram s 0 tCtx.img [(4096, b)] rfl rfl (by decide) (by intro e he; simp at he; subst he; simp only [hb]; decide) (List.pairwise_singleton _ _)

/-- The element rows of each form fill one row of 64 bytes. -/
theorem wit_VectorRows_write (b : Bytes) (op f : Nat) (h : b.length ≤ 64) : canWrite (tVx op f tOps [(1024, tRow), (2048, tRow)]) 0 tCtx.img [(0, 4096, padTo 64 b)] :=
  wit_row _ _ (tPadTo_length 64 b h)

/-- COMBINE of one query of one record of dimension 64. -/
def tCombW : List Nat := tW 3 8 5 [1024, 0, 4096, tImm 65536]
def tComb : State := tEng tCombW [(1024, leBytes 4 1 ++ leBytes 4 0 ++ leBytes 4 0x3F800000 ++ leBytes 4 1024 ++ leBytes 48 0 ++ leBytes 4 0x3F800000)]

theorem wit_VectorRows_combine : tReady tComb 0 3 8 0 tCombW ∧ bits (cwOpd tCombW 3) 29 16 = 1 ∧ cwOpd tCombW 1 = 0 ∧ cwFlags tCombW = 5 ∧
    isOk (rdChk tComb 0 tCtx.img 0 1024 64) = true ∧ isOk (combineRow tComb 0 tCtx.img ⟨0, 1024⟩ 5 1024 0) = true ∧
    (got (combineRow tComb 0 tCtx.img ⟨0, 1024⟩ 5 1024 0)).length = 64 := by
  unfold tReady issuesNow; decide +kernel

theorem wit_VectorRows_combine_write (b : Bytes) (hb : b.length = 256) : canWrite tComb 0 tCtx.img [(0, 4096, b)] :=
  canWrite_sram tComb 0 tCtx.img [(4096, b)] rfl rfl (by decide) (by intro e he; simp at he; subst he; simp only [hb]; decide) (List.pairwise_singleton _ _)

/-- QUANT of one row of four values with TAG 9; DEQUANT of the block it leaves. -/
def tQuW : List Nat := tVxW 6 (5 + 9 * 64) [1024, 2048, 4096]
def tQu : State := tVx 6 (5 + 9 * 64) [1024, 2048, 4096] [(1024, tRow)]
def tDqW : List Nat := tVxW 7 5 [2048, 4096, 6144]
def tDq : State := tVx 7 5 [2048, 4096, 6144] [(2048, blockHdr 9 0 1 4 ++ leBytes 4 0x04030201), (4096, leBytes 4 0x3F800000 ++ leBytes 8 0 ++ leBytes 2 9)]

theorem wit_QuantiseDequantise :
    tReady tQu 0 3 6 0 tQuW ∧ isOk (vxShape tQuW) = true ∧ cwFlags tQuW = 5 + 9 * 64 ∧ isOk (vxRow tQu 0 tCtx.img ⟨0, 1024⟩ 4 5 0) = true ∧
    tReady tDq 0 3 7 0 tDqW ∧ isOk (vxShape tDqW) = true ∧ isOk (rdChk tDq 0 tCtx.img 0 2048 64) = true ∧
    isOk (rdChk tDq 0 tCtx.img 0 4096 256) = true ∧ isOk (rdChk tDq 0 tCtx.img 0 2112 4) = true ∧
    isOk (tagCheck 0 0 (blockHdr 9 0 1 4) (spR tDq 0 tCtx.img 0 4096 256) 1 none) = true ∧
    leAt (blockHdr 9 0 1 4) 4 4 % 2 ^ 17 = 4 ∧ leAt (blockHdr 9 0 1 4) 2 2 % 32 = 1 := by
  unfold tReady issuesNow; decide +kernel

theorem wit_QuantiseDequantise_write (a b c d : Bytes) (ha : a.length = 256) (hb : b.length = 64) (hc : c.length = 64) (hd : d.length = 64) :
    canWrite tQu 0 tCtx.img [(0, 4096, a), (0, 2112, b), (0, 2048, c)] ∧ canWrite tDq 0 tCtx.img [(0, 6144, d)] :=
  ⟨canWrite_sram tQu 0 tCtx.img [(4096, a), (2112, b), (2048, c)] rfl rfl (by decide) (by simp [ha, hb, hc]; decide) (by simp [ha, hb, hc]),
   canWrite_sram tDq 0 tCtx.img [(6144, d)] rfl rfl (by decide) (by simp [hd]; decide) (List.pairwise_singleton _ _)⟩

/-- A Mover command over one unit. -/
def tMvW (op : Nat) (o2 o3 : Nat) : List Nat := tW 4 op 0 [1024, 4096, o2, tImm o3]
def tMv (op : Nat) (o2 o3 : Nat) : State := tEng (tMvW op o2 o3) []

theorem wit_MoverCommands : ∀ e ∈ [(0, 0, 1), (1, 2048, 1), (2, 2048, 1), (3, 0, 65536 + 16), (4, tImm 7, 1)],
    let s := tMv e.1 e.2.1 e.2.2
    let w := tMvW e.1 e.2.1 e.2.2
    tReady s 0 4 e.1 0 w ∧ isOk (vxShape (tMvW 3 0 (65536 + 16))) = true ∧
    isOk (rdChk s 0 tCtx.img 0 1024 64) = true ∧ isOk (rdChk s 0 tCtx.img 0 2048 4) = true ∧ isOk (vxRow s 0 tCtx.img ⟨0, 1024⟩ 16 0 0) = true := by
  unfold tReady issuesNow; decide +kernel

theorem wit_MoverCommands_write (op o2 o3 : Nat) (b : Bytes) (h : b.length = 64) : canWrite (tMv op o2 o3) 0 tCtx.img [(0, 4096, b)] := wit_row _ _ h

/-! ### Witnesses: score port, banks, tier upkeep -/

/-- Device memory writes of disjoint ranges. -/
theorem apartD_of (ws : List (Nat × Bytes)) (hd : ws.Pairwise fun e f => e.1 + e.2.length ≤ f.1 ∨ f.1 + f.2.length ≤ e.1) : apartD ws := by
  have sp : ∀ e : Nat × Bytes, ((List.range e.2.length).map fun i => e.1 + i) = List.range' e.1 e.2.length := by
    intro e; rw [List.range'_eq_map_range]
  unfold apartD
  rw [List.Nodup, List.pairwise_flatMap]
  refine ⟨fun e _ => by rw [sp e]; exact List.nodup_range', ?_⟩
  refine hd.imp ?_
  intro e f h
  simp only [sp]
  intro x hx y hy
  simp only [List.mem_range'_1] at hx hy
  omega

/-- With no bank group listed, no bank is fenced. -/
theorem noFence (s : State) (h : s.pwr.groups = []) (b : Nat) : bankFenced s b = false := by
  unfold bankFenced groupGet; rw [h]; rfl

/-- Bytes at tier addresses. -/
def tTier (s : State) (xs : List (Nat × Bytes)) : State := { s with mem := xs.foldl (fun m e => twrite m (tierBase + e.1) e.2) s.mem }

/-- A history of one segment of 16 positions of 64 codes, two of them valid, its record at tier address 1,024; the history regions
start at 1 MiB of each bank. -/
def tHist (s : State) : State :=
  tTier (rgw s rBT_HIST 0x1008) [(1024, leBytes 8 2 ++ leBytes 2 1 ++ leBytes 1 4 ++ leBytes 1 0 ++ leBytes 4 0 ++ leBytes 4 0x3F800000 ++ leBytes 4 0x3F800000 ++
                  leBytes 4 0x3F800000 ++ leBytes 4 0x3F800000 ++ leBytes 8 2048 ++ leBytes 24 0),
           (2048, leBytes 4 0 ++ leBytes 4 (0x4000) ++ leBytes 8 0)]

/-- A query block of one row of `cols` codes at 1,024, its scale entry at 3,072. -/
def tQuery (cols : Nat) : List (Nat × Bytes) :=
  [(1024, blockHdr 5 0 1 cols ++ List.replicate cols 3), (3072, leBytes 4 0x3F800000 ++ leBytes 8 0 ++ leBytes 1 5)]

/-- A score-port command with its parameter record at 512. -/
def tSpW (op f o0 o1 o2 : Nat) : List Nat := tW 5 op f [o0, o1, o2, 512]
def tSp (op f o0 o1 o2 : Nat) (rec_ : List Nat) (xs : List (Nat × Bytes)) : State :=
  tHist (tEng (tSpW op f o0 o1 o2) ((512, rec_.flatMap (leBytes 4)) :: xs))

/-- SPACE 1, the unit that holds tier address `a`. -/
def tT (a : Nat) : Nat := 2 ^ 30 + a / 64

def tAtRec (op : Nat) : List Nat := if op = 0 then [1, 0x3F800000, 384, 3072, 0, 0, 0, 0] else [1 + 2 * 65536, 0, 384, 3072, 0, 0, 0, 0]
def tAt (op : Nat) : State := tSp op 0 1024 (tT 1024) 8192 (tAtRec op) (tQuery 64)
def tAtW (op : Nat) : List Nat := tSpW op 0 1024 (tT 1024) 8192
def tH : Hist := got (histOf (tAt 0) 0 (tierBase + 1024))

theorem wit_ScorePortCommands (op : Nat) (h : op < 2) :
    tReady (tAt op) 0 5 op 0 (tAtW op) ∧
    isOk (spRecord (tAt op) 0 (jobOf tCtx (tAtW op) []) 0) = true ∧ got (spRecord (tAt op) 0 (jobOf tCtx (tAtW op) []) 0) = tAtRec op ∧
    isOk (recOpd (tAt op) 0 (jobOf tCtx (tAtW op) []) 0 3072) = true ∧ isOk (histOf (tAt op) 0 (physA (tAt op) 0 tCtx.img 1 1024)) = true ∧ scoreFits tH 1 = true ∧
    isOk (queryBlock (tAt op) 0 tCtx.img 1024 3072 1 tH.dim) = true ∧
    ((got (queryBlock (tAt op) 0 tCtx.img 1024 3072 1 tH.dim)).all fun q => leAt q.2 4 4 == 0) = true ∧ cwFlags (tAtW op) = 0 ∧
    64 + cdiv tH.segs.length 64 * (64 + 4 * tH.dim) = 384 ∧
    isOk (scoresOf (tAt op) tH (List.replicate 64 3) (histP tH)) = true := by
  unfold tReady issuesNow
  obtain rfl | rfl : op = 0 ∨ op = 1 := by omega
  · decide +kernel
  · decide +kernel

theorem wit_ScorePortCommands_write (op : Nat) (b : Bytes) (h : b.length ≤ 384) : canWrite (tAt op) 0 tCtx.img [(0, 8192, b)] :=
  canWrite_sram (tAt op) 0 tCtx.img [(8192, b)] rfl rfl (by decide)
    (by intro e he; simp at he; subst he; have : tCtx.img.regionSize = 65536 := rfl; simp only; omega) (List.pairwise_singleton _ _)

theorem wit_ScorePortCommands_fence (op : Nat) : ∀ b, bankFenced (tAt op) b = false := noFence _ rfl

/-- HAPPEND of one token. -/
def tHap : State := tSp 2 0 1024 (tT 1024) 0 [1, 0, 4096, 0, 0, 0, 0, 0] []
def tHapW : List Nat := tSpW 2 0 1024 (tT 1024) 0

theorem wit_ScorePortCommands_append :
    tReady tHap 0 5 2 0 tHapW ∧ isOk (spRecord tHap 0 (jobOf tCtx tHapW []) 0) = true ∧ isOk (recOpd tHap 0 (jobOf tCtx tHapW []) 0 4096) = true ∧
    isOk (histOf tHap 0 (physA tHap 0 tCtx.img 1 1024)) = true ∧ isOk (vxRow tHap 0 tCtx.img ⟨0, 1024⟩ 64 5 0) = true ∧
    isOk (vxRow tHap 0 tCtx.img ⟨0, 4096⟩ 64 5 0) = true ∧ tH.tokens = 2 ∧
    (let a := bankA 0 + 0x100000; keyA tH 2 = a + 128 ∧ valA tH 2 = a + 1152 ∧ tH.rec_ = tierBase + 1024 ∧ tierBase + 1088 ≤ a) := by
  unfold tReady issuesNow; decide +kernel

theorem wit_ScorePortCommands_append_apart (a : Nat) (h : tierBase + 1088 ≤ a) (k v r : Bytes) (hk : k.length = 64) (hv : v.length = 64) (hr : r.length = 64) :
    apartD [(a + 128, k), (a + 1152, v), (tierBase + 1024, r)] := by
  refine apartD_of _ ?_
  simp [hk, hv, hr]; omega

/-- GEMV of a matrix of one row of 32 codes, its record at tier address 4,096. -/
def tGev (f : Nat) : State :=
  tTier (tSp 3 f 1024 (tT 4096) 8192 [1, 0, 64, 3072, 0, 0, 0, 0] (tQuery 32))
    [(4096, leBytes 4 1 ++ leBytes 2 32 ++ leBytes 1 1 ++ leBytes 1 0 ++ leBytes 2 1 ++ leBytes 6 0 ++ leBytes 8 4160 ++ leBytes 8 0),
     (4160, leBytes 4 0 ++ leBytes 4 128 ++ leBytes 8 0), (8192, blockHdr 6 0 1 32 ++ List.replicate 32 2),
     (9280, leBytes 4 0x3F800000 ++ leBytes 8 0 ++ leBytes 1 6)]
def tGevW (f : Nat) : List Nat := tSpW 3 f 1024 (tT 4096) 8192

theorem wit_ScorePortCommands_gemv : ∀ f ∈ [0, 1],
    tReady (tGev f) 0 5 3 0 (tGevW f) ∧ isOk (spRecord (tGev f) 0 (jobOf tCtx (tGevW f) []) 0) = true ∧ isOk (matrixOf (tGev f) 0 (physA (tGev f) 0 tCtx.img 1 4096)) = true ∧
    isOk (queryBlock (tGev f) 0 tCtx.img 1024 3072 1 32) = true ∧
    (let m := got (matrixOf (tGev f) 0 (physA (tGev f) 0 tCtx.img 1 4096))
     m.1 = 1 ∧ isOk (gemvBlock (tGev f) m.2.2.2 m.2.1 m.2.2.1 1 0 none) = true ∧ isOk (gemvRow (tGev f) m.2.2.2 m.2.1 m.2.2.1 0) = true) := by
  unfold tReady issuesNow; decide +kernel

/-- XPOSE of an array of 8 by 8 bytes. -/
def tXp : State := tSp 4 0 (tT 4096) (tT 8192) 0 [8 + 8 * 65536, 64, 64, 0, 0, 0, 0, 0] []
def tXpW : List Nat := tSpW 4 0 (tT 4096) (tT 8192) 0

theorem wit_ScorePortCommands_xpose :
    tReady tXp 0 5 4 0 tXpW ∧ isOk (spRecord tXp 0 (jobOf tCtx tXpW []) 0) = true ∧ inWin tCtx.img 1 4096 456 = true ∧ inWin tCtx.img 1 8192 456 = true ∧
    overlaps 4096 456 8192 456 = false ∧ (∀ r < 8, isOk (rdChk tXp 0 tCtx.img 1 (4096 + r * 64) 8) = true) ∧
    canWrite tXp 0 tCtx.img ((List.range 8).map fun k => (1, 8192 + k * 64, List.replicate 8 0)) := by
  unfold tReady issuesNow canWrite; decide +kernel

/-- A bank group with a bank fenced, or critical, or a bank being copied to a spare. -/
def tGroup (f c : Bool) (cp : List (Nat × Nat × Nat)) : State :=
  groupPut State.reset 0 { group0 with fenced := if f then [(3, true)] else [], crit := c, copying := cp }

theorem wit_BankOperations :
    bankFenced (tGroup true false []) 3 = true ∧ ((groupGet (tGroup false true []) 0).crit = true ∧ bankFenced (tGroup false true []) 3 = false) ∧
    6 ∉ bankOpcs ∧ State.reset.bank.held = [] ∧ unitEntry State.reset 0 32767 = none ∧ freeSpares (groupGet State.reset 0) ≠ [] ∧
    (let s := tHist State.reset
     isOk (histAt s 1024) = true ∧ (got (histAt s 1024)).dim = 64 ∧ (bankSegs (got (histAt s 1024)) 0).length * segPos (got (histAt s 1024)) * 1 ≤ 4096 ∧
     isOk (bankScores s (got (histAt s 1024)) 0 1 (List.replicate 64 1)) = true ∧ (bankPos (got (histAt s 1024)) 0) = [0, 1] ∧
     isOk (segValue s (got (histAt s 1024)) [0, 0] 0 0 0 2) = true ∧ ((got (histAt s 1024)).segs.getD 0 (0, 0, false)).1 = 0) ∧
    (let s := tGev 0
     isOk (matrixOf s (leAt (memR s (tierBase + 4096) 32) 12 2) (tierBase + 4096)) = true ∧ isOk (gemvRow s [bankA 0 + 8192] 32 1 0) = true) := by
  decide +kernel

theorem wit_BankOperations_fence : ∀ b, bankFenced State.reset b = false := noFence _ rfl

theorem wit_TierUpkeep :
    (groupGet (tGroup false false [(3, 64, 32768)]) 0).copying.find? (fun e => e.1 == 3 && decide (e.2.2 ≥ 32768)) = some (3, 64, 32768) ∧
    (groupGet (tGroup false false [(3, 64, 32767)]) 0).copying.find? (fun e => e.1 == 3 && decide (e.2.2 ≥ 32768)) = none ∧
    isOk (histAt State.reset 1024) = false ∧
    (let s := groupPut (tHist State.reset) 0 { group0 with hot := true }
     let h := got (histAt s 1024)
     isOk (histAt s 1024) = true ∧ groupLeaves s 0 = true ∧ groupLeaves s 1 = false ∧ migCount s < migLimit s ∧
     ((List.range h.segs.length).filter fun j => decide (j / 64 = 0) && !(h.segs.getD j (0, 0, false)).2.2) = [0] ∧
     (lgPlaces s h 0 0).isSome = true ∧ histBusy s 1024 = false ∧ lgPlaces (tHist State.reset) h 0 0 ≠ none ∧ intact s ∧
     parityUnit s 0 32767 = false ∧ (let u := tGrnIn false 0; unitEntry u 1024 0 = some (false, 0) ∧ parityUnit u 1024 0 = true)) := by
  unfold intact; decide +kernel

/-! ### Witnesses: models, load channel, slots, peers -/

/-- A model command block: OP, FLAGS, SOURCE, RQ, CTX, TAG, FROM, SIZE, ADDR. -/
def tBlk (op fl src ctx from_ size addr : Nat) : Bytes :=
  leBytes 1 op ++ leBytes 1 fl ++ leBytes 1 src ++ leBytes 1 9 ++ leBytes 2 ctx ++ leBytes 2 77 ++ leBytes 8 from_ ++ leBytes 8 size ++ leBytes 8 addr ++ leBytes 32 0

/-- A running device with tile 0 at site 0 and one block in the mailbox. -/
def tMb (b : Bytes) : State :=
  { State.reset with boot := { State.reset.boot with stage := 0x10 }, mbox := { queue := [b], done := [] }, tiles := [(0, { tile0 with site := some 0 })],
                     sites := [(0, { role := 0, lt := 0, epoch := 0, fenced := false })] }

/-- A session of one chunk of four bytes on port 64, without or with it. -/
def tSess (got_ : Bool) (until_ : Nat) : Session :=
  { port := 64, etype := 0x88B5, until_ := until_, secret := List.replicate 32 7, size := 4, chunks := if got_ then [(0, true)] else [], rejected := 0,
    waiting := none, copyAt := 0 }

def isFail : Source → Bool | .fail _ _ => true | _ => false
def isWait : Source → Bool | .wait _ => true | _ => false
def isBytes : Source → Bool | .bytes _ false => true | _ => false

theorem wit_ModelCommands :
    mboxHead State.reset = none ∧
    (∀ op ∈ [1, 2, 3, 4, 5], let b := tBlk op 0 0 0 0 0 0
      mboxHead (tMb b) = some b ∧ byteAt b 0 = op ∧ running (tMb b) = true ∧ modelForm b = true ∧ loadsRunning (tMb b) = 0 ∧
      modelForm (tBlk op 4 0 0 0 0 0) = false) ∧
    (let b := tBlk 1 0 2 0 0 0 0
     loadSlot (tMb b) 0 = some 1 ∧ loadSlot (tMb b) 20480 = none ∧ isFail (sourceOf (tMb b) b false) = true ∧
     isWait (sourceOf { tMb b with sessions := [(0, some (tSess false 5))] } (tBlk 1 0 1 0 0 0 0) false) = true ∧
     isBytes (sourceOf { tMb b with sessions := [(0, some (tSess true 5))] } (tBlk 1 0 1 0 0 0 0) false) = true ∧
     isOk (loadImage (tMb b) 0 1 [1, 2, 3, 4] b false none) = false ∧ tget false (tSess false 5).chunks 0 = false) ∧
    (let s := mslotPut (tMb (tBlk 2 0 0 0 0 0 0)) 0 1 { mslot0 with state := 2 }
     ([0, 1].find? fun k => (mslotGet s 0 k).state == 2) = some 1 ∧ (ctxGet s 0).state = 0 ∧ ([0, 1].find? fun k => (mslotGet State.reset 0 k).state == 2) = none) ∧
    (ctxGet (tEng [] []) 0).state = 1 ∧ leAt (tBlk 4 0 0 0 0 0 255) 24 8 ≤ 255 ∧ mcFrom (tBlk 5 0 0 0 255 0 0) ≤ 255 ∧
    flsMounted State.reset = false ∧ flsMounted (rgw State.reset rFLS_STATUS 0x80000000) = true := by decide +kernel

theorem wit_ModelCommands_room : flsWorn State.reset = false ∧
    (let s := rgw State.reset rFLS_CAPACITY 4; 0 + 30176 + clampN (2 ^ 30) (2 ^ 36) (rgf s rFLS_CAPACITY 15 0 * 2 ^ 30 / 64) + 2 ^ 31 + 2 ^ 28 ≤ rgf s rFLS_CAPACITY 15 0 * 2 ^ 30) := by
  constructor
  · show decide (100 * (Config.flashBlocks - 0 - 0) < Config.flashBlocks - 0) = false
    simp; omega
  · decide +kernel

/-- The signed part of a model image: one STREAM section of one command, no other need. -/
def tImgHead : Bytes :=
  leBytes 4 0x314C444D ++ leBytes 2 1 ++ leBytes 1 0 ++ leBytes 1 1 ++ leBytes 2 0xB2 ++ leBytes 2 1 ++ leBytes 20 0 ++ leBytes 8 384 ++ leBytes 4 8256 ++
  leBytes 8 0 ++ leBytes 2 1 ++ leBytes 2 1 ++ leBytes 2 128 ++ leBytes 6 0 ++ leBytes 4 64 ++ leBytes 188 0 ++
  (leBytes 1 1 ++ leBytes 7 0 ++ leBytes 8 320 ++ leBytes 8 32 ++ leBytes 8 0) ++ leBytes 96 0

/-- A model image whose signature is `sig`. -/
def tImg (sig : Bytes) : Bytes := tImgHead ++ sig

/-- An ENROL structure with customer root 0 ACTIVE, and the commit unit that holds it. -/
def tEnrol : Bytes := leBytes 4 0 ++ leBytes 1 1 ++ List.replicate 64 5
def tEnrolUnit : FUnit := { kind := 2, idx := 0, copy := 0, seq := 1, blk := 0, pages := 1 }

/-- A running device with room for a retained copy and customer root 0 ACTIVE. -/
def tLoader : State :=
  let s := tMb (tBlk 1 0 2 0 0 0 0)
  { s with wv := { s.wv with regions := [(2, (0, 1))] },
           flash := { (fUnitWrite State.reset tEnrolUnit tEnrol).flash with units := [tEnrolUnit] } }

/-- An ENROL structure that was written reads back from the flash. -/
theorem enrolled {s : State} (hu : s.flash.units = [tEnrolUnit]) (hp : s.flash.pages = (fUnitWrite State.reset tEnrolUnit tEnrol).flash.pages) :
    flsBody s 2 = tEnrol := by
  have hw : fUnitRead (fUnitWrite State.reset tEnrolUnit tEnrol) tEnrolUnit = some (1, tEnrol) :=
    fUnitRead_write State.reset tEnrolUnit tEnrol (by decide +kernel) (by decide) (by decide) (by decide +kernel)
  have h0 : fUnitOf s 2 0 0 = some (1, tEnrol) := by
    rw [fUnitOf, hu, show [tEnrolUnit].find? (fUnitIs 2 0 0) = some tEnrolUnit from rfl, Option.bind_some, fUnitRead_congr hp, hw]
  have h1 : fUnitOf s 2 0 1 = none := by rw [fUnitOf, hu]; rfl
  have h2 : fUnitOf s 2 0 2 = none := by rw [fUnitOf, hu]; rfl
  simp [flsBody, copiesOf, copyCount, copyKind, List.range_succ, h0, h1, h2]

theorem tLoader_enrol : flsBody tLoader 2 = tEnrol := enrolled rfl (by simp only [tLoader])

/-- An image with a signature of zeros. -/
def tImage : Bytes := tImg (List.replicate 29792 0)

theorem wit_ModelCommands_image : imgVerify tLoader (some 0) tImage = none := by decide +kernel
theorem wit_ModelCommands_room2 : (reserve tLoader 0 tImage none).isSome = true ∧ (mslotGet tLoader 0 1).state ≠ 1 ∧ byteAt tImage 6 % 4 = 0 := by decide +kernel
theorem wit_ModelCommands_root : rootState tLoader 0 = 1 := by rw [rootState, tLoader_enrol]; decide +kernel

theorem wit_ModelCommands_table : placedAll tImage = [] ∧ dataBad tImage = none := by
  decide +kernel

/-- A LOAD of it ends well where its signature verifies (FIPS 205, uninterpreted). -/
theorem wit_ModelCommands_load (h : Config.slhVerify (rootKey tLoader 0) (imgDigest tImage) (slice tImage (imgLen tImage) sigBytes) = true) :
    ∃ w, loadImage tLoader 0 1 tImage (tBlk 1 0 2 0 0 0 0) false none = .ok w := by
  obtain ⟨r, hr⟩ := Option.isSome_iff_exists.1 wit_ModelCommands_room2.1
  have hm : loadReserve tLoader 0 1 tImage (tBlk 1 0 2 0 0 0 0) none = some (slotOf_ tLoader 0 tImage (tBlk 1 0 2 0 0 0 0) r) := by
    simp only [loadReserve, wit_ModelCommands_room2.2.1, false_and, if_false, hr, Option.map_some]
  have hs : imgSigned tLoader tImage = none := by
    unfold imgSigned
    simp only [wit_ModelCommands_room2.2.2, wit_ModelCommands_root, h]
    rfl
  unfold loadImage
  rw [show 0 / 1024 = 0 from rfl, wit_ModelCommands_image, hm, hs, wit_ModelCommands_table.2, wit_ModelCommands_table.1]
  exact ⟨_, rfl⟩

/-- A running device that has session 0 open. -/
def tChan (b : Bytes) (v : Session) : State := { tMb b with sessions := [(0, some v)] }

/-- A chunk of four bytes of session 0 with its tag. -/
def tChunk : Bytes :=
  let h := beBytes 4 0 ++ beBytes 4 0 ++ beBytes 2 4 ++ beBytes 2 0 ++ [1, 2, 3, 4]
  h ++ shake256 16 (List.replicate 32 7 ++ h)

theorem wit_LoadChannel :
    (let b := tBlk 6 0 0 0 0 4 (64 + 0x88B5 * 65536 + 5 * 2 ^ 32)
     running (tMb b) = true ∧ modelForm b = true ∧ mboxHead (tMb b) = some b ∧ byteAt b 0 = 6 ∧ mcFrom b ≤ 3 ∧ chanPort (tMb b) (leAt b 24 8 % 256) = true ∧
     bits (leAt b 24 8) 15 8 = 0 ∧ leAt b 24 8 < 2 ^ 48 ∧ mcSize b = 4 ∧ tget none (tMb b).sessions 0 = none ∧ copyRoom (tMb b) 4 = none ∧
     (let s := { tMb b with wv := { State.reset.wv with regions := [(2, (0, 1))] } }; copyRoom s 4 = some 0 ∧ mboxHead s = some b)) ∧
    (let b := tBlk 6 0 0 0 4 4 0; 3 < mcFrom b ∧ mboxHead (tMb b) = some b) ∧
    (let b := tBlk 7 0 0 0 3 0 0; byteAt b 0 = 7 ∧ mcFrom b ≤ 3 ∧ tget none (tMb b).sessions 3 = none ∧ mboxHead (tMb b) = some b) ∧
    (let b := tBlk 7 0 0 0 0 0 0
     tget none (tChan b (tSess false 5)).sessions 0 = some (tSess false 5) ∧ (tSess false 5).waiting = none ∧
     (let v := { tSess false 5 with waiting := some b }; mboxHead (tChan b v) = some b ∧ v.waiting = some b ∧ chunksMissing v ≠ 0 ∧ v.until_ ≤ ({ tChan b v with gt := 5 } : State).gt)) ∧
    (tSess false 5).until_ > (tChan [] (tSess false 5)).gt := by decide +kernel

/-- Port 0 with session 0 on its sub-port 0. -/
def tFrameIn (p : Bytes) : Bytes := tBytes (leBytes 12 5 ++ beBytes 2 0x88B5 ++ p)

theorem wit_LoadChannel_chunks :
    (let s := { tPort with sessions := [(0, some { tSess false 5 with port := 0 })] }
     ∀ p ∈ [tChunk, List.replicate 32 0], chunkSession s 0 0 (tFrameIn p) = some 0 ∧ macCheck s 0 (tFrameIn p) false = none ∧ linkUp s 0 0 = true ∧ 0 < subCount s 0 ∧ s.bad = []) ∧
    chunkSession tPort 0 0 (tFrameIn tChunk) = none := by decide +kernel

theorem wit_LoadChannel_tag :
    12 + beAt tChunk 8 2 + 16 ≤ tChunk.length ∧ slice tChunk 16 16 = shake256 16 (List.replicate 32 7 ++ tChunk.take 16) ∧ beAt tChunk 8 2 = 4 ∧ beAt tChunk 4 4 = 0 ∧
    chunkCount (tSess false 5) = 1 := by decide +kernel

/-- A context whose head command is TAKE, with its other slot ARMED. -/
def tTake (m : ModelSlot) (gt : Nat) : State := mslotPut { tEng (tW 0 1 0 []) [] with gt := gt } 0 1 m

theorem wit_SlotCommitment :
    (let s := tTake { mslot0 with state := 3, armedAt := 7 } 1000007
     let x := ctxGet s 0
     armedSlot s 0 = some 1 ∧ x.state = 1 ∧ x.restart = none ∧ x.restoring = false ∧ x.bufs = [] ∧ sbHeld s 0 = 0 ∧ headUe s 0 = none ∧
     cwEngine (headOf s 0) = 0 ∧ cwOp (headOf s 0) = 1 ∧ (mslotGet s 0 1).forced = false ∧ (mslotGet s 0 1).armedAt + 1000000 ≤ s.gt) ∧
    armedSlot State.reset 0 = none ∧
    (let s := tTake { mslot0 with state := 3, forced := true } 5; armedSlot s 0 = some 1 ∧ (mslotGet s 0 1).forced = true ∧ s.gt < (mslotGet s 0 1).armedAt + 1000000) ∧
    (mslotGet (mslotPut State.reset 0 1 { mslot0 with state := 5 }) 0 1).state = 5 := by decide +kernel

/-- Device 2 of a ring of 4, links 0 and 2 up. -/
def tRing (top : Nat) : State :=
  let s := rgw State.reset rPL_CFG (0x80000000 + top * 2 ^ 29 + 2 * 65536 + 4 * 256)
  let s := rgw (rgwf s rGLB_CONFIG 15 12 2) (rTIL_BIND 0 5) 0x80000003
  { s with tiles := [(0, { tile0 with site := some 0 })],
           pl := { s.pl with links := [(0, { plink0 with up := true, lanes := 8 }), (2, { plink0 with up := true, lanes := 8 })] } }

/-- The first flit of link 2 after it came up: one whole message from device 1 to `dst`. -/
def tFlit (kind dst : Nat) (p : Bytes) : Bytes := flitBytes kind 0 true true false 0 dst 1 0 false 0 0 0 9 p

/-- A message header for class 5, generation and payload length 0. -/
def tReq : Bytes := leBytes 4 0 ++ leBytes 2 0 ++ leBytes 1 5 ++ leBytes 57 0

/-- A flit that the device forms has a good CRC. -/
theorem flitGood_bytes (k vc : Nat) (a b c : Bool) (dp dst src seq : Nat) (n : Bool) (ack cp cc num : Nat) (p : Bytes) (h : p.length ≤ 236) :
    flitGood (flitBytes k vc a b c dp dst src seq n ack cp cc num p) = true := by
  unfold flitBytes
  simp only
  generalize hx : padTo 252 _ = x
  have hl : x.length = 252 := by
    rw [← hx]; refine tPadTo_length _ _ ?_
    simp only [List.length_append]
    show 1 + 1 + 1 + 1 + 2 + 2 + 2 + 4 + 2 + p.length ≤ 252
    omega
  have h4 : (leBytes 4 (crc32 x).toNat).length = 4 := rfl
  unfold flitGood
  have ht : (x ++ leBytes 4 (crc32 x).toNat).take 252 = x := by rw [← hl]; exact List.take_left
  have hs : slice (x ++ leBytes 4 (crc32 x).toNat) 252 4 = leBytes 4 (crc32 x).toNat := by
    unfold slice
    rw [List.drop_left' hl, List.take_of_length_le (by omega)]
    show leBytes 4 (crc32 x).toNat ++ List.replicate (4 - (leBytes 4 (crc32 x).toNat).length) 0 = _
    simp only [h4, Nat.sub_self, List.replicate_zero, List.append_nil]
  rw [ht, hs]
  simp [hl, h4]

theorem tFlit_good (k dst : Nat) (p : Bytes) (h : p.length ≤ 236) : flitGood (tFlit k dst p) = true := flitGood_bytes _ _ _ _ _ _ _ _ _ _ _ _ _ _ _ h

theorem wit_PeerMessages_flit : ∀ k ∈ [1, 2, 3, 4], ∀ dst ∈ [2, 3], ∀ p ∈ [tReq, tChunk], ∀ r ∈ [0, 1],
    (linkGet (tRing r) 2).up = true ∧ flitKind (tFlit k dst p) = k ∧ flitSeq (tFlit k dst p) = ((linkGet (tRing r) 2).rxSeq + 1) % 4096 ∧
    bit (byteAt (tFlit k dst p) 0) 2 = true ∧ bit (byteAt (tFlit k dst p) 0) 1 = true ∧ p.length ≤ 236 := by decide +kernel

theorem wit_PeerMessages : ∀ k ∈ [1, 2, 3, 4],
    flitDst (tFlit k 3 tReq) ≠ devId (tRing 1) ∧ bit (byteAt (tFlit k 3 tReq) 0) 0 = false ∧
    (linkGet (tRing 1) 2).miswire = false ∧ (route (tRing 1) 3 9 0).isSome = true ∧ (route (tRing 0) 3 9 0) = none ∧
    devId (tRing 0) = 2 ∧ flitDst (tFlit k 2 tReq) = devId (tRing 1) ∧ heardMsg (tRing 1) (tFlit k 2 tReq) = false ∧
    heardMsg { tRing 1 with pl := { (tRing 1).pl with seen := [(1, 9, 0)] } } (tFlit k 2 tReq) = true := by
  decide +kernel

theorem wit_PeerMessages_taken :
    (let s := tRing 1; binding s 0 5 = some 0 ∧ byteAt (slice (flitLoad (tFlit 1 2 tReq)) 0 32) 6 = 5 ∧ jFree s 0 = some 0 ∧ (tileGet s 0).rq.length < 4096 ∧ procPart s 0 = 0 ∧
       binding s 0 6 = none) ∧
    (let s := { tRing 1 with pl := { (tRing 1).pl with fwd := [(fwdKey 0 0, some { dev := 1, fply := 0, frame := none, entry := 0, uid := none, ctx := 0, gt := 0, sampled := false, since := 0 })] } }
     ∃ e, tget none s.pl.fwd (fwdKey 0 0) = some e ∧ e.fply = 0 ∧ e.dev = flitSrc (tFlit 2 2 tReq)) ∧
    (guardCells (tRing 1) 0 < poolFree (tRing 1) 0 ∧ (pipeMark (pipeGet (tRing 1) 0)).bypass = false ∧ rgb (tRing 1) (rPIPE_CTRL 0) 0 = false) ∧
    (let s := rgwf (tRing 1) rGLB_CONFIG 15 12 0; poolFree s 0 ≤ guardCells s 0 ∧ devId s = 2) := by
  refine ⟨by decide +kernel, ⟨_, rfl, rfl, by decide +kernel⟩, by decide +kernel, by decide +kernel⟩

theorem wit_PeerMessages_load :
    (let f := tFlit 4 2 tChunk
     flitLoad f = tChunk ∧ (tSess false 5).port = 64 + flitPart f ∧ tget none (tChan [] (tSess false 5)).sessions (beAt (flitLoad f) 0 4) = some (tSess false 5)) := by
  decide +kernel

/-- A LIVE payload of device 1, sequence 5. -/
def tLive (d : Byte) : Bytes := leBytes 1 1 ++ leBytes 3 0 ++ leBytes 4 5 ++ leBytes 8 0 ++ List.replicate 64 d

theorem wit_PeerMessages_live :
    (flitKind (tFlit 5 0 (tLive 0)) = 5 ∧ flitSrc (tFlit 5 0 (tLive 0)) ≠ devId (tRing 1) ∧ liveAgain (tRing 1) (peerGet (tRing 1) 1) 5 = false ∧
      ringMatches (tRing 1) (slice (flitLoad (tFlit 5 0 (tLive 0))) 16 64) = true ∧ ringMatches (tRing 1) (slice (flitLoad (tFlit 5 0 (tLive 1))) 16 64) = false) ∧
    (let s := peerPut (tRing 1) 1 { peer0 with heard := true, seqs := [(4, 0), (5, 0)] }
     leAt (tLive 0) 4 4 = 5 ∧ liveAgain s (peerGet s 1) 5 = true ∧ liveAgain { s with gt := 999999 } (peerGet s 1) 5 = true ∧
     liveAgain { s with gt := 1000000 } (peerGet s 1) 5 = false) := by
  decide +kernel

theorem wit_PeerFlits :
    (let f := flitBytes 0 0 false false false 0 0 1 0 false 0 3 7 0 []
     (linkGet (tRing 1) 2).up = true ∧ flitKind f = 0 ∧ (linkGet (tRing 1) 2).out = [] ∧ bit (leAt f 6 2) 15 = false) ∧
    (let f := flitBytes 0 0 false false false 0 0 1 0 true 0 3 7 0 []; flitKind f = 0 ∧ bit (leAt f 6 2) 15 = true) ∧
    (let f := flitBytes 1 0 true true false 0 2 1 2 false 0 0 0 9 tReq
     flitKind f ≠ 0 ∧ flitSeq f ≠ ((linkGet (tRing 1) 2).rxSeq + 1) % 4096) ∧
    flitGood (List.replicate 255 1) = false ∧ (linkGet State.reset 0).up = false := by decide +kernel

theorem wit_PeerLiveness :
    (let s := { peerPut State.reset 1 { peer0 with live := true, last := 10 } with gt := 50010 }; (peerGet s 1).live = true ∧ (peerGet s 1).last + 50000 ≤ s.gt) ∧
    (peerGet State.reset 1).live = false ∧
    (let s := { peerPut State.reset 1 { peer0 with heard := true, last := 1000000000 } with gt := 1000000000 }
     let v := peerGet s 1
     v.heard = true ∧ v.live = false ∧ v.mismatch = false ∧ s.gt < v.last + 50000 ∧ v.stable + 1000000000 ≤ s.gt) ∧
    (let e : Fwd := { dev := 1, fply := 0, frame := none, entry := 0, uid := none, ctx := 0, gt := 0, sampled := false, since := 0 }
     let s := fun (gt : Nat) => { fwdPut State.reset 2 7 (some e) with gt := gt }
     tget none (s 0).pl.fwd (fwdKey 2 7) = some e ∧ (s 9999999).gt < e.since + 10000000 ∧ e.since + 10000000 ≤ (s 10000000).gt) ∧
    plEnabled State.reset = false ∧ plEnabled (tRing 1) = true ∧ bit (tRing 1).boot.noRef 7 = false ∧ bit 128 (4 + 3) = true ∧
    ((linkGet (tRing 1) 0).up = true ∧ (linkGet (tRing 1) 0).retraining = false ∧ (linkGet (tRing 1) 0).out = [] ∧ 1 ≤ credits (linkGet (tRing 1) 0) (6 + b2n (wrapLink (tRing 1) 0)) ∧
      (linkGet (tRing 1) 0).replay.length < 512) ∧ (linkGet (tRing 1) 1).up = false ∧
    (let s := fun (n : Nat) (r : Bool) => linkPut (tRing 1) 0 { plink0 with up := true, lanes := 8, replays := List.replicate n 0, retraining := r }
     replayCount (s 7 false) (linkGet (s 7 false) 0) < 8 ∧ 8 ≤ replayCount (s 8 false) (linkGet (s 8 false) 0) ∧ (linkGet (s 8 true) 0).retraining = true ∧
     min (linkGet (s 8 true) 0).lanes (laneMode 4) ≠ 0 ∧ min (linkGet (s 8 true) 0).lanes (laneMode 1) = 0) ∧
    2 < (linkGet (tRing 1) 0).lanes ∧ (linkGet (linkPut (tRing 1) 0 { plink0 with up := true, lanes := 2 }) 0).lanes ≤ 2 := by decide +kernel

/-! ### Witnesses: Sampler, flash, faults, resets, power, memory upkeep -/

/-- A Sampler record of the kind its own events give. -/
def tSr (q gt : Nat) (c : Bool) : SmpRec := { seq := q, type := 0x115, body := [1, 2], gt := gt, last := gt, rep := 1, cont := false, committed := c }

/-- One event waits, `r` is the newest record. -/
def tSmp (r : List SmpRec) (gt : Nat) : State :=
  { State.reset with smpIn := [(0x15, [1, 2])], gt := gt, smp := { State.reset.smp with ring := r, next := 8 } }

theorem wit_SamplerCommands :
    State.reset.smpIn = [] ∧ (tSmp [] 0).smpIn = [(0x15, [1, 2])] ∧ (tSmp [] 0).smp.ring = [] ∧
    ((([] : List SmpRec) ++ [{ tSr 8 0 false with type := 0x15 }]).map smpLen).sum ≤ 524288 ∧
    (let s := rgw (tSmp [{ tSr 7 100 false with type := 0x15 }] 500) rSMP_CFG 1
     s.smp.ring.getLast? = some { tSr 7 100 false with type := 0x15 } ∧ s.gt - 100 < rgf s rSMP_CFG 15 0 * 1000000 ∧ (1 : Nat) < 65535) ∧
    pageDue State.reset = false ∧
    (let s := rgw (rgw { tSmp [tSr 7 0 false] 10000000 with smpIn := [] } rFLS_STATUS 0x80000000) rSMP_CFG 0x00010000
     pageDue s = true ∧ flsMounted s = true ∧ pageFill pageRoom (smpDirty s) ≠ [] ∧ s.smp.log.length < logPages s) ∧
    State.reset.smp.next ≤ State.reset.smp.cursor ∧
    (let s := { tSmp [tSr 7 0 false] 0 with smp := { (tSmp [tSr 7 0 false] 0).smp with cursor := 7 } }; s.smp.cursor < s.smp.next ∧ smpFind s 7 = some (tSr 7 0 false, none)) ∧
    (let s := fun (f : Option Nat) => ({ State.reset with smp := { State.reset.smp with next := 8, cursor := 7, log := [⟨3, 0, [tSr 7 0 true]⟩], fetched := f } } : State)
     smpFind (s none) 7 = some (tSr 7 0 true, some 3) ∧ (s none).smp.fetched ≠ some 3 ∧ (s (some 3)).smp.fetched = some 3) ∧
    (let s := tSmp [] 0; s.smp.cursor < s.smp.next ∧ smpFind s s.smp.cursor = none) ∧ State.reset.smp.fetching = none ∧
    (({ State.reset.smp with fetching := some 3 } : Smp).fetching = some 3) := by decide +kernel

/-- A mounted flash after `up` ns of power, with a valid block 5. -/
def tFls (up : Nat) : State :=
  { blkPut (rgw State.reset rFLS_STATUS 0x80000000) 5 { fblock0 with valid := true } with time := { State.reset.time with up := up } }

/-- A capture in slot 2 of it, and its unit. -/
def tCapUnit : FUnit := { kind := 0x42, idx := 2, copy := 0, seq := 1, blk := 9, pages := 1 }
def tFlsCap : State :=
  { tFls 0 with flash := { (fUnitWrite (tFls 0) tCapUnit [1, 2]).flash with units := [tCapUnit], capWait := [(1, 64, 4)] },
                boot := { (tFls 0).boot with stage := 0x10 }, wv := { (tFls 0).wv with regions := [(1, (0, 1))] } }

theorem wit_FlashCommands_capture : capGet tFlsCap 2 = some [1, 2] := by
  have hu : tFlsCap.flash.units = [tCapUnit] := rfl
  have hp : tFlsCap.flash.pages = (fUnitWrite (tFls 0) tCapUnit [1, 2]).flash.pages := by simp only [tFlsCap]
  have hw : fUnitRead (fUnitWrite (tFls 0) tCapUnit [1, 2]) tCapUnit = some (1, [1, 2]) :=
    fUnitRead_write _ _ _ (by decide +kernel) (by decide) (by decide) (by decide)
  rw [capGet, fUnitOf, hu, show [tCapUnit].find? (fUnitIs 0x42 2 0) = some tCapUnit from rfl, Option.bind_some, fUnitRead_congr hp, hw]
  rfl

theorem wit_FlashCommands :
    (0 ≤ refreshBits State.reset ∧ (blkGet (rgw State.reset rFLS_DISTURB 3) 0).reads + 1 < max 1 (rgf (rgw State.reset rFLS_DISTURB 3) rFLS_DISTURB 15 0) * 1000) ∧
    (blkGet (tFls 0) 5).valid = true ∧ (blkGet (tFls 0) 5).bad = false ∧
    ((∀ e ∈ State.reset.flash.blocks, e.2.erases ≤ max 1 (rgf State.reset rFLS_CFG 31 16)) ∧ (blkGet State.reset 0).erases < max 1 (rgf State.reset rFLS_CFG 31 16)) ∧
    flsMounted State.reset = false ∧ (tFls 0).pwr.fail = false ∧ (0 < (tFls 0).flash.patrolAt + patrolNs (tFls 0)) ∧
    (tFls 0).flash.patrolAt + patrolNs (tFls 0) ≤ powNs (tFls (patrolNs (tFls 0))) ∧ powNs (tFls 0) = 0 ∧
    (let due := (blkGet (tFls 0) 5).progAt + max 1 (rgf (tFls 0) rFLS_AGE 15 0) * dayNs; powNs (tFls 0) < due ∧ due ≤ powNs (tFls due) ∧ (tFls due).pwr.fail = false ∧ (blkGet (tFls due) 5).valid = true) ∧
    State.reset.flash.capWait = [] ∧
    (let s := tFlsCap
     s.flash.capWait = [(1, 64, 4)] ∧ flsMounted s = true ∧ s.pwr.fail = false ∧ s.boot.stage = 0x10 ∧ (4 : Nat) ≤ 2 ^ 29 ∧ kindSeq s 0x42 = 2 ∧
     64 * rg s rFLS_CMD_ARG + 2 ≤ (lpRegion s 1).2 ∧ s.bad = [] ∧ capGet s 3 = none ∧ maxSeq (copiesOf (tFls 0) 5) = 0 ∧
     (lpRegion s 1).2 < 64 * rg (rgw s rFLS_CMD_ARG 1024) rFLS_CMD_ARG + 2) := by decide +kernel

/-- Tile 0 with an entry of the Mover issued at time 0; hung at `gt`. -/
def tHung (e gt : Nat) (h : Option Nat) : State :=
  { tHeld { tSb with engine := e } with gt := gt, flt := { State.reset.flt with hang := [(unitCode 1 e, h)] } }

theorem wit_FaultRecovery_engine :
    engineHung State.reset 0 4 = false ∧ (tileGet State.reset 0).site = none ∧
    (let s := tHung 4 (hangNs State.reset) none
     evenOf s 0 = 0 ∧ tileSite s 0 = 0 ∧ (tileGet s 0).site ≠ none ∧ engineHung s 0 4 = true ∧ tget none s.flt.hang (unitCode 1 4) = none ∧ (ctxGet s 0).state = 1 ∧
     sbUsed s 0 = [(255, { tSb with engine := 4 })]) ∧
    (let s := tHung 4 (hangNs State.reset) (some (hangNs State.reset - 1))
     engineHung s 0 4 = true ∧ tget none s.flt.hang (unitCode 1 4) = some (hangNs State.reset - 1) ∧ s.gt < (hangNs State.reset - 1) + 10000000 ∧ partLevel s 0 = none ∧ (siteGet s 0).fenced = false ∧ (siteGet s 0).role < 2) := by
  decide +kernel

theorem wit_FaultRecovery :
    (pipeGet State.reset 3).out = none ∧
    (let s := pipePut { State.reset with faults := [{ (default : OutFault) with cls := 8, unit := unitCode 2 3 }] } 3 { pipe0 with out := some 5 }
     (pipeGet s 3).out ≠ none ∧ faultOpen s 8 (unitCode 2 3) { (default : OutFault) with cls := 8, unit := unitCode 2 3 }) ∧
    (let s := pipePut (pipePut { State.reset with frames := [(3 * 2 ^ 24 + 4, some { tFrame with part := 3 }), (4, some { tFrame with replayed := true })] } 3
        { pipe0 with dq := [3 * 2 ^ 24 + 4], ringNext := 1 }) 0 { pipe0 with replay := [4] }
     (pipeGet s 3).out = none ∧ partLevel s 3 = none ∧ ringFrames s 3 = [3 * 2 ^ 24 + 4] ∧ generalBad s 3 (ringAt s 0) 32 = none ∧ replaying s 3 = false ∧
     (let t := pipePut s 1 { pipe0 with dq := [4] }; replaying t 0 = true)) ∧
    partLevel { State.reset with flt := { State.reset.flt with takeover := 8 } } 3 = some 3 ∧
    partLevel { State.reset with flt := { State.reset.flt with caps := [{ (default : Capt) with scope := 0, part := 3 }] } } 3 = some 4 ∧
    resetCovers { State.reset with flt := { State.reset.flt with takeover := 8 } } 3 = false ∧
    resetCovers State.reset 3 = false ∧ bit ({ State.reset.flt with pllOut := 8 } : Flt).pllOut 3 = true ∧ bit State.reset.flt.pllOut 3 = false ∧
    faultFree State.reset 11 (unitCode 8 3) ∧ tget 0 State.reset.flt.pairCut 7 = 0 ∧ tget 0 [(7, 1)] 7 ≠ 0 ∧ faultFree State.reset 9 (unitCode 3 7) ∧
    State.reset.flt.islHalted = false ∧ State.reset.flt.islOut = none ∧ chipCaptured State.reset = false ∧
    faultOpen { State.reset with faults := [{ (default : OutFault) with cls := 12, unit := unitCode 9 0 }] } 12 (unitCode 9 0) { (default : OutFault) with cls := 12, unit := unitCode 9 0 } := by
  unfold faultOpen faultFree; decide +kernel

theorem wit_FaultRecovery_tm : tmHung State.reset 0 = false ∧ tmHung { tSched with gt := 1000000 } 0 = true ∧
    (let s := { tSched with gt := 1000000 }
     partLevel s 0 = none ∧ resetCovers s 0 = false ∧ tmHung { s with flt := { s.flt with takeover := 1 } } 0 = true ∧
     partLevel { s with flt := { s.flt with takeover := 1 } } 0 = some 3 ∧
     (let t := { s with flt := { s.flt with caps := [{ (default : Capt) with scope := 0, part := 0 }] } }
      tmHung t 0 = true ∧ partLevel t 0 = some 4 ∧ chipCaptured t = false)) ∧
    (let s := { State.reset with flt := { State.reset.flt with islHalted := true, caps := [{ (default : Capt) with scope := 1 }] } }
     s.flt.islHalted = true ∧ chipCaptured s = true) := by decide +kernel

/-- Sites 0 in service for tile 0, 1 spare or not. -/
def tSites (r : Nat) : State :=
  { tEng [] [] with sites := [(0, { role := 0, lt := 0, epoch := 0, fenced := false }), (1, { role := r, lt := 31, epoch := 0, fenced := false }),
                              (2, { role := 2, lt := 31, epoch := 0, fenced := false }), (3, { role := 2, lt := 31, epoch := 0, fenced := false }),
                              (4, { role := 2, lt := 31, epoch := 0, fenced := false })] }

theorem wit_SiteTakeover :
    (∀ r ∈ [1, 2], let s := tSites r
      (siteGet s 0).fenced = false ∧ (siteGet s 0).role = 0 ∧ (siteGet s 0).lt = 0 ∧ partLevel s 0 = none ∧ unguarded s = false ∧
      (((List.range 5).map fun i => 5 * 0 + i).find? fun k => (siteGet s k).role == 1 && k != 0) = if r = 1 then some 1 else none) ∧
    (siteGet (tSites 1) 2).role = 2 ∧ 20 ≤ (siteGet (tSites 1) 1).lt ∧ (siteGet (tSites 1) 1).role < 2 ∧ faultFree (tSites 1) 2 (unitCode 0 1) ∧
    (let s := { tSites 1 with flt := { State.reset.flt with takeover := 1 } }
     partLevel s 0 = some 3 ∧ resetCovers s 0 = false ∧ (siteGet s 0).lt < 20 ∧ (siteGet s 1).role = 1) ∧
    (let s := { tSites 1 with flt := { State.reset.flt with caps := [{ (default : Capt) with scope := 0, part := 0 }] } }
     partLevel s 0 = some 4 ∧ chipCaptured s = false) ∧
    (let s := mslotPut (tEng [] []) 0 0 { mslot0 with state := 4 }; holders s 0 = [0] ∧ (ctxGet s 0).state = 1) ∧
    (∀ k < 20, tilePart (tSites 2) k = 0 → k ≠ 0 → (tileGet (tSites 2) k).site = none) ∧
    (tget [] State.reset.flt.restore 0).head? ≠ some 3 ∧
    (let s := mslotPut { State.reset with flt := { State.reset.flt with restore := [(0, [0])] }, ctxs := [(0, tCtx)] } 0 0 { mslot0 with state := 4, copyLen := 4 }
     tget [] s.flt.restore 0 = [0] ∧ slotHolds s 0 1 = false ∧ slotHolds s 0 0 = true ∧ (refill s 0 0).isNone = true ∧ (ctxGet s 0).active = 0 ∧ (ctxGet s 0).state = 1 ∧
     (∀ e ∈ tset [] s.flt.restore 0 [], tilePart s e.1 = tilePart s 0 → e.2 = []) ∧
     slotHolds { State.reset with flt := { State.reset.flt with restore := [(0, [0])] } } 0 0 = false) := by unfold faultFree; decide +kernel

/-- A capture of a scope. -/
def tCap (sc : Nat) : Capt := { (default : Capt) with scope := sc, num := 9, part := 1 }

theorem wit_ResetsAndCaptures :
    (State.reset.faults.find? fun f => f.unit == unitCode 1 4 && f.action == 8 && !f.told && decide (State.reset.gt ≥ f.detect + 50000)) = none ∧
    (let f : OutFault := { (default : OutFault) with unit := unitCode 1 4, action := 8, part := 1, told := false, detect := 0 }
     let s := { State.reset with faults := [f], gt := 50000 }
     (s.faults.find? fun f => f.unit == unitCode 1 4 && f.action == 8 && !f.told && decide (s.gt ≥ f.detect + 50000)) = some f ∧ resetCovers s f.part = false ∧
     resetCovers { s with flt := { State.reset.flt with caps := [{ (default : Capt) with scope := 0, part := 1 }] } } f.part = true) ∧
    chipCaptured State.reset = false ∧ resetCovers { State.reset with flt := { State.reset.flt with caps := [tCap 0] } } 1 = true ∧
    (siteGet (tSites 1) 1).lt ≥ 20 ∧ (siteGet (tSites 1) 0).lt < 20 ∧ starting State.reset = false ∧
    starting { State.reset with boot := { State.reset.boot with aon := true } } = true ∧
    chipCaptured { State.reset with flt := { State.reset.flt with caps := [tCap 1] } } = true ∧ (State.reset.flt.caps.find? fun c => c.num == 9) = none ∧
    (∀ sc ∈ [0, 1, 2], ([tCap sc].find? fun c => c.num == 9) = some (tCap sc) ∧ (tCap sc).scope = sc) := by decide +kernel

theorem wit_PowerControl :
    (∃ p : Nat, p < 4) ∧ (∃ p : Nat, 4 ≤ p) ∧ (pwrGet State.reset 0).stretching = false ∧
    stretchLong State.reset 0 = false ∧ stretchLong { State.reset with time := { State.reset.time with up := 10 } } 0 = true ∧
    (pwrGet { State.reset with pwr := { State.reset.pwr with parts := [(0, { pwrGet State.reset 0 with stretching := true })] } } 0).stretching = true ∧
    State.reset.pwr.fail = false ∧ State.reset.flt.caps = [] ∧ (pwrGet State.reset 0).step < 7 := ⟨⟨0, by decide⟩, ⟨4, by decide⟩, by decide +kernel⟩

theorem wit_MemoryUpkeep :
    faultFree State.reset 3 (unitCode 0 19) ∧ cwOf lpBase = lpBase ∧
    ([9, 10].any fun r => decide (lpBase + (lpRegion { State.reset with wv := { State.reset.wv with regions := [(9, (0, 1))] } } r).1 ≤ lpBase ∧
      lpBase < lpBase + (lpRegion { State.reset with wv := { State.reset.wv with regions := [(9, (0, 1))] } } r).1 +
        (lpRegion { State.reset with wv := { State.reset.wv with regions := [(9, (0, 1))] } } r).2)) = true ∧
    (decide (16 ≤ 15) || rgb State.reset rLP_STATUS (16 + 15)) = false ∧ (decide (16 ≤ 16) || rgb State.reset rLP_STATUS (16 + 16)) = true ∧
    (let s := mslotPut { State.reset with ctxs := [(0, tCtx)] } 0 0 { mslot0 with state := 4, img := { slotImg0 with lpSize := 65536 } }
     (ctxGet s 0).state = 1 ∧ lpLoses s (mslotGet s 0 0) = true ∧ (∀ e ∈ s.slots, (mslotGet s (e.1 / 2) (e.1 % 2)).copyLen = 0)) := by
  unfold faultFree; decide +kernel

/-! ### Witnesses: weave, start, trust, host port, registers, time -/

/-- A weave command block. -/
def tWv (op fl size at_ : Nat) : Bytes := leBytes 1 op ++ leBytes 1 fl ++ leBytes 1 0 ++ leBytes 1 9 ++ leBytes 2 0 ++ leBytes 2 77 ++ leBytes 8 0 ++ leBytes 8 size ++ leBytes 8 at_ ++ leBytes 32 0

/-- A weave image or patch without sections. -/
def tWvImg (kind : Nat) : Bytes := leBytes 4 0x56414557 ++ leBytes 2 1 ++ leBytes 1 0 ++ leBytes 1 kind ++ leBytes 2 0xB2 ++ leBytes 22 0 ++ leBytes 8 256 ++ leBytes 216 0

/-- A running device with a weave command in the mailbox, the image in its staging region, customer root 0 ACTIVE. -/
def tWeave (b : Bytes) (img : Bytes) (mounted : Bool) : State :=
  let s := tMb b
  let s := if mounted then rgw s rFLS_STATUS 0x80000000 else s
  { s with wv := { s.wv with regions := [(1, (0, 1))] }, mem := twrite [] lpBase img,
           flash := { (fUnitWrite State.reset tEnrolUnit tEnrol).flash with units := [tEnrolUnit] } }

/-- A pending patch for time 1,000. -/
def tPatch : Patch := { block := tWv 10 0 256 1000, image := tWvImg 1, at_ := 1000, late := false }

theorem wit_WeaveCommands :
    mboxHead State.reset = none ∧
    (∀ op ∈ [9, 10, 11, 12], let b := tWv op 0 256 0
      mboxHead (tWeave b [] false) = some b ∧ byteAt b 0 = op ∧ weaveForm (tWeave b [] false) b = true ∧ weaveArgs (tWeave b [] false) b = true ∧
      weaveForm (tWeave b [] false) (tWv op 2 256 0) = false ∧ weaveArgs (tWeave b [] false) (tWv op 0 (2 ^ 26 + 1) 0) = false) ∧
    (∀ op ∈ [9, 10], let b := tWv op 0 256 0
      weaveFetch (tWeave b (tWvImg (op - 9)) true) b true = none ∧ (weaveFetch (tWeave b (tWvImg (op - 9)) true) b false).isSome = true ∧
      weaveCheck (tWeave b [] true) [] (op - 9) = some 1) ∧
    (let s := { tWeave (tWv 12 0 0 0) [] false with wv := { (tWeave (tWv 12 0 0 0) [] false).wv with pending := some tPatch } }
     mboxHead s = some (tWv 12 0 0 0) ∧ s.wv.pending = some tPatch ∧ s.gt < tPatch.at_ ∧ tPatch.at_ ≤ ({ s with gt := 1000 } : State).gt ∧
     (∀ x ∈ wsects tPatch.image, x.type ≠ 10)) ∧
    (∀ f ∈ [false, true], flsMounted (tWeave [] [] f) = f) ∧ (tWeave [] [] true).pwr.fail = false ∧ State.reset.wv.ringOld = [] ∧
    ([1] : Bytes) ≠ [] ∧ 5 + 1000000 ≤ ({ State.reset with gt := 1000005 } : State).gt := by decide +kernel

/-- An image passes where its signature verifies (FIPS 205, uninterpreted). -/
theorem tWeave_root : rootState (tWeave [] [] true) 0 = 1 := by rw [rootState, enrolled rfl (by simp only [tWeave])]; decide +kernel

theorem wit_WeaveCommands_check (k : Nat) (hk : k < 2) (h : Config.slhVerify (rootKey (tWeave [] [] true) 0) (imgDigest (tWvImg k)) (slice (tWvImg k) (imgLen (tWvImg k)) sigBytes) = true) :
    weaveCheck (tWeave [] [] true) (tWvImg k) k = none := by
  have e : weaveHeader (tWvImg k) k = true ∧ weaveTable (tWvImg k) = true ∧ leAt (tWvImg k) 8 2 = 0xB2 ∧ byteAt (tWvImg k) 6 % 4 = 0 ∧
      slice (tWvImg k) 64 64 = slice (tWeave [] [] true).wv.structure_ 0 64 := by
    obtain rfl | rfl : k = 0 ∨ k = 1 := by omega
    · decide +kernel
    · decide +kernel
  unfold weaveCheck
  simp only [e.1, e.2.1, e.2.2.1, e.2.2.2.1, e.2.2.2.2, tWeave_root, h]
  simp

/-- A patch of the profile map: one section of one byte. -/
def tMapPatch : Bytes :=
  leBytes 10 0 ++ leBytes 2 1 ++ leBytes 244 0 ++ (leBytes 1 11 ++ leBytes 1 1 ++ leBytes 2 255 ++ leBytes 4 0 ++ leBytes 8 288 ++ leBytes 8 1 ++ leBytes 8 0) ++ [63]

theorem wit_WeaveCommands_map : wsects tMapPatch = [{ (default : WSect) with type := 11, live := true, first := 255, off := 288, size := 1 }] ∧
    [11].contains 11 = true ∧ 255 + 1 ≤ 256 ∧ 288 + 1 ≤ tMapPatch.length ∧ byteAt tMapPatch 288 < 64 := by decide +kernel

/-- No weave slot is used yet, and no unit of the flash lies past the last SEQ. -/
theorem wit_WeaveCommands_slots : (∀ e ∈ weaveSlots (tWeave [] [] true), e.2.1 + 1 < 2 ^ 64) ∧ chipCaptured (tWeave [] [] true) = false := by decide +kernel

/-- A start in a stage, supplies good. -/
def tStart (st gt : Nat) : State := { State.reset with gt := gt, boot := { State.reset.boot with stage := st, aon := true, main := true } }

theorem wit_StartStages :
    stageRuns State.reset = false ∧ (∀ st ∈ List.range 12, stageRuns (tStart st 0) = true ∧ (∀ l ∈ [false, true], stageLate (tStart st 0) l = false)) ∧
    (∀ l ∈ [false, true], stageLate (tStart 1 50000001) l = true) ∧ flsMounted (tStart 3 0) = false ∧ (copiesOf (tStart 4 0) 9).getD 0 none = none ∧
    (siteRetired (rgw State.reset rFLS_STATUS 0) 3 = false) ∧ ((lpChans (tStart 8 0)).all fun c => (List.range 16).contains c) = true ∧
    ((lpChans (tStart 8 0)).all fun c => [3].contains c) = false ∧ State.reset.boot.aon = false ∧ (tStart 1 0).boot.main = true := by decide +kernel

/-- What a stage finds: a channel without targets, or one target that passes. -/
def tFound (fc : List FlashTarget) : StageIn :=
  { (default : StageIn) with ok := true, fc0 := fc, fc1 := fc }

/-- Stage 0x03 without a flash that mounts, and with one. -/
theorem wit_StartStages_mount : fcUnmounted (tFound []) = 3 ∧ fcUnmounted (tFound [⟨16384, 2208, 4, 1024, 8, 64⟩]) ≠ 3 := by decide +kernel

/-- A start in stage 0x04 with a firmware copy of two bytes. -/
def tFwUnit : FUnit := { kind := 0x43, idx := 0, copy := 0, seq := 3, blk := 0, pages := 1 }
def tFwHeld : State := { tStart 4 0 with flash := { (fUnitWrite State.reset tFwUnit [1, 2]).flash with units := [tFwUnit] } }

theorem wit_StartStages_copy : (copiesOf tFwHeld 9).getD 0 none = some (3, [1, 2]) ∧ stageRuns tFwHeld = true := by
  have hu : tFwHeld.flash.units = [tFwUnit] := rfl
  have hp : tFwHeld.flash.pages = (fUnitWrite State.reset tFwUnit [1, 2]).flash.pages := by simp only [tFwHeld]
  have hw : fUnitRead (fUnitWrite State.reset tFwUnit [1, 2]) tFwUnit = some (3, [1, 2]) :=
    fUnitRead_write State.reset tFwUnit [1, 2] (by decide +kernel) (by decide) (by decide) (by decide)
  have h : fUnitOf tFwHeld 0x43 0 0 = some (3, [1, 2]) := by
    rw [fUnitOf, hu, show [tFwUnit].find? (fUnitIs 0x43 0 0) = some tFwUnit from rfl, Option.bind_some, fUnitRead_congr hp, hw]
  exact ⟨by simp [copiesOf, copyCount, copyKind, List.range_succ, h], by decide +kernel⟩

/-- Firmware with a header and no more. -/
def tFw : Bytes := leBytes 4 0x57524946 ++ leBytes 2 1 ++ leBytes 2 0 ++ leBytes 2 0xB2 ++ leBytes 6 0 ++ leBytes 8 256 ++ leBytes 232 0

/-- It passes where its signature verifies. -/
theorem wit_StartStages_firmware (h : Config.slhVerify (slice (Config.vroot 0) 0 64) (digest64 (tFw.take 256)) (slice tFw 256 sigBytes) = true) :
    fwCheck (tStart 4 0) tFw = 0 := by
  have e : byteAt tFw 6 % 2 = 0 ∧ leAt tFw 16 8 = 256 := by decide +kernel
  unfold fwCheck
  simp only [e.1, e.2, h]
  decide +kernel

/-- Bytes without a header never pass. -/
theorem wit_StartStages_bad : fwCheck (tStart 4 0) [1, 2] ≠ 0 := by
  unfold fwCheck
  dsimp only
  split
  · decide
  · decide +kernel

/-- A trust command block. -/
def tTr (op from_ size arg : Nat) : Bytes := leBytes 1 op ++ leBytes 7 0 ++ leBytes 8 from_ ++ leBytes 8 size ++ leBytes 8 arg ++ leBytes 32 0

/-- A device in a start state with a trust command in the mailbox. -/
def tTrust (st : Nat) (b : Bytes) (mounted : Bool) : State :=
  let s := { tMb b with boot := { State.reset.boot with stage := st } }
  if mounted then rgw s rFLS_STATUS 0x80000000 else s

theorem wit_TrustCommands :
    mboxHead State.reset = none ∧
    (∀ op ∈ [16, 17, 18, 19, 20, 21, 22, 23], let b := tTr op 0 (if op = 18 ∨ op = 19 ∨ op = 20 then 30000 else 0) 0
      let s := tTrust 0x11 b true
      mboxHead s = some b ∧ byteAt b 0 = op ∧ trustForm b = true ∧ trustState s op = true ∧ flsMounted s = true ∧ s.pwr.fail = false ∧
      trustForm (tTr op 1 0 0) = false ∧ flsMounted (tTrust 0x11 b false) = false) ∧
    (∀ op ∈ [18, 19, 20, 21, 22, 23], trustState (tTrust 1 [] false) op = false) ∧
    (let b := tTr 16 0 0 (3 + 64 * 65536); tcArg b = bits (tcArg b) 14 0 + bits (tcArg b) 22 16 * 65536 ∧ bits (tcArg b) 22 16 = 64) ∧
    (let b := tTr 17 0 0 0; tcFrom b + 128 + sigBytes ≤ xbufSize) ∧ (let b := tTr 17 (xbufSize - 64) 0 0; trustForm b = true ∧ xbufSize < tcFrom b + 128 + sigBytes) ∧
    (tTrust 0x11 [] true).boot.idMismatch = false ∧
    (let b := tTr 18 0 128 0; 128 ≤ tcSize b ∧ tcFrom b + tcSize b ≤ xbufSize ∧ enrolCheck (tTrust 0x11 b true) 18 (supplied (tTrust 0x11 b true) b) ≠ 0) ∧
    tcSize (tTr 18 0 127 0) < 128 ∧ (tTrust 0x11 [] true).boot.lifecycle = 1 ∧ xbufSize < tcFrom (tTr 20 64 xbufSize 0) + tcSize (tTr 20 64 xbufSize 0) := by decide +kernel

/-- FWLOAD of bytes that do not pass, and of firmware that passes where its signature verifies. -/
theorem wit_TrustCommands_fwload : fwCheck (tTrust 0x11 [] true) [1, 2] ≠ 0 ∧
    (Config.slhVerify (slice (Config.vroot 0) 0 64) (digest64 (tFw.take 256)) (slice tFw 256 sigBytes) = true → fwCheck (tTrust 0x11 [] true) tFw = 0) := by
  refine ⟨?_, fun h => ?_⟩
  · unfold fwCheck
    dsimp only
    split
    · decide
    · decide +kernel
  · have e : byteAt tFw 6 % 2 = 0 ∧ leAt tFw 16 8 = 256 := by decide +kernel
    unfold fwCheck
    simp only [e.1, e.2, h]
    decide +kernel

/-- A host port that is ready. -/
def tHp (cfg : Nat) : State := rgw { tMb [] with boot := { State.reset.boot with stage := 0x10, ready := true, main := true } } rHP_CFG cfg

/-- Window 0 to the exchange buffer, to LPDDR5X, or off. -/
def tWin (cfg base : Nat) : State :=
  let s := rgw (rgw (rgwf (tHp 0x40) rGLB_CONFIG 8 0 16) (rHP_WIN_CFG 0) cfg) (rHP_WIN_BASE 0) base
  { s with wv := { s.wv with regions := [(1, (0, 1))] } }

theorem wit_HostPortReads :
    State.reset.boot.ready = false ∧ (tHp 0).boot.ready = true ∧ crcOn (tHp 0) = false ∧ crcOn (tHp 0x80000000) = true ∧ (tHp 0).hp.held = none ∧
    hpTarget (tHp 0) 1 0 = .bad 1 ∧ hpTarget (tHp 0) 0 1023 = .direct ∧ unitsUp (tHp 0) 0 4096 = true ∧
    (let s := tHp 0; unitsUp { s with boot := { s.boot with stage := 5 } } 0x900000 4 = false ∧ hpTarget s 0x900000 0 = .direct) ∧
    hpTarget (tWin 0xC0000000 0) 0x80000000 1023 = .xbuf 0 ∧ hpTarget (tWin 0x80000000 0x800000) 0x80000000 1023 = .mem lpBase ∧
    memUp (tWin 0x80000000 0x800000) lpBase = true ∧ devBad (tWin 0x80000000 0x800000) lpBase 4096 = none ∧
    memUp { tWin 0x80000000 0x800000 with boot := { (tHp 0).boot with stage := 8 } } lpBase = false ∧
    devBad (strike (tWin 0x80000000 0x800000) lpBase) lpBase 4096 = some lpBase ∧
    ({ (tHp 0).hp with rsten := true } : HostPort).rsten = true ∧ (tHp 0).hp.rsten = false ∧
    ({ (tHp 0).hp with held := some (4, 0, [0, 1, 2, 3, 4]) } : HostPort).held = some (4, 0, [0, 1, 2, 3, 4]) := by decide +kernel

/-- A window on the tier: what lies there is no table's, or an entry of a flow table, whose parity may fail. -/
theorem wit_HostPortReads_tier :
    let s := tWin 0x80000000 (tierBase / 65536)
    hpTarget s 0x80000000 63 = .mem tierBase ∧ memUp s tierBase = true ∧ devBad s tierBase 256 = none ∧ tierParity s tierBase 256 = false ∧
    (let s := { s with shares := [(0, { shareGet s 0 with flow := [(0, some { (default : GEnt) with par := 1 })] })] }
     hpTarget s 0x80000000 63 = .mem tierBase ∧ memUp s tierBase = true ∧ devBad s tierBase 256 = none ∧ tierParity s tierBase 256 = true) := by decide +kernel

theorem wit_HostPortReads_crc : ∃ c, c ≠ rdCrc 0 0 := ⟨rdCrc 0 0 + 1, by omega⟩

theorem wit_HostPortWrites :
    hpBytes 0 = 4 ∧ hpBytes 1023 = 4096 ∧ inStaging (tWin 0x80000000 0x800000) lpBase 4096 = true ∧ inStaging (tWin 0x80000000 0x800000) (lpBase + 65533) 4 = false ∧
    memWBad (tWin 0x80000000 0x800000) lpBase 4096 = none ∧ (∃ c, c ≠ wrCrc 0 0 [1, 2, 3, 4]) :=
  ⟨by decide, by decide, by decide +kernel, by decide +kernel, by decide +kernel, wrCrc 0 0 [1, 2, 3, 4] + 1, by omega⟩

theorem wit_RegistersAndMailbox :
    mboxPending State.reset < 16 ∧ 16 ≤ mboxPending { State.reset with mbox := { queue := List.replicate 16 [], done := [] } } ∧
    mboxHead (tMb (tBlk 8 0 0 0 0 0 0)) = some (tBlk 8 0 0 0 0 0 0) ∧ byteAt (tBlk 8 0 0 0 0 0 0) 0 = 8 ∧ byteAt (tBlk 7 0 0 0 0 0 0) 0 = 7 ∧
    mboxHead (tMb (tBlk 7 0 0 0 0 0 0)) = some (tBlk 7 0 0 0 0 0 0) ∧
    State.reset.mbox.done = [] ∧ resolveReg State.reset 0x22000000 = none ∧ resolveReg State.reset rPWR_CAP = some rPWR_CAP ∧
    decodeReg rPWR_CAP = some (.pwr, 0, rPWR_CAP - 0x200000) ∧ siteFrozen State.reset .pwr 0 = false ∧ (regRow rPWR_CAP).isSome = true ∧ rPWR_CAP ≠ rGLB_EPOCH ∧
    (let s := tSites 1
     decodeReg 0x20200000 = some (.til, 2, 0) ∧ siteFrozen s .til 2 = true ∧ resolveReg s 0x20200000 = some 0x20200000) := by decide +kernel

theorem wit_TimeAndTelemetry :
    State.reset.time.source = 3 ∧ ({ State.reset.time with source := 1 } : TimeState).source = 1 ∧
    (let s := { State.reset with boot := { State.reset.boot with aon := true } }
     (s.boot.aon && 0x58 == smbTarget s) = true ∧ (s.boot.aon && 0x59 == smbTarget s) = false ∧ (smbWord s 0).isSome = true ∧ smbWord s 5 = none ∧ smbAlert s = false) ∧
    smbAlert { State.reset with pwr := { State.reset.pwr with tripped := true } } = true ∧ State.reset.boot.aon = false := by decide +kernel

theorem wit_StepRunsFrontCommand :
    State.reset.pending = [] ∧ State.reset.boot.aon = false ∧ State.reset.time.slew = 0 ∧ (tStart 1 0).boot.aon = true ∧ (tStart 1 0).pending = [] ∧
    (tStart 1 0).time.slew = 0 ∧ (∀ e ∈ (tStart 1 0).tiles, waiting (sbUsed (tStart 1 0) e.1) = []) ∧ (tStart 1 0).bank.held = [] ∧
    (tStart 1 0).flt.siteOut = [] := by decide

theorem wit_StepRunsFrontCommand_stamps : stampsRead (tStart 1 0) = tStart 1 0 := rfl

theorem wit_StepKeepsInvariant : Machine.Inv (tWin 0x80000000 0x800000) := by unfold Machine.Inv; decide +kernel

/-- A request that enrols a device's first root in slot 0: it names the device, and needs no signature. -/
def tEnrolReq : Bytes :=
  leBytes 4 0x4C524E45 ++ leBytes 1 1 ++ leBytes 1 0 ++ leBytes 1 0xFF ++ leBytes 1 0 ++ leBytes 8 Config.dieId.toNat ++ leBytes 16 0 ++ List.replicate 64 9 ++ leBytes 32 0

theorem leNat_leBytes8 (n : Nat) (h : n < 2 ^ 64) : leNat (leBytes 8 n) = n := by
  simp [leBytes, leNat]
  omega

theorem wit_TrustCommands_enrol : enrolCheck (tTrust 0x11 [] true) 18 tEnrolReq = 0 := by
  have h : leAt tEnrolReq 8 8 = Config.dieId.toNat := by
    show leNat (leBytes 8 Config.dieId.toNat) = _
    exact leNat_leBytes8 _ Config.dieId.isLt
  unfold enrolCheck
  simp only [h, ne_eq, not_true_eq_false, if_false]
  decide +kernel

/-! ### Worked examples of the spec -/

/-- Table NUM-7: the row −1.0, 0, 0.5, 2, 3, 1.25, −0.75, 2.5 quantised asymmetrically. -/
theorem test_quant_asymmetric :
    let q := quantRow 0 ([0xBF800000, 0, 0x3F000000, 0x40000000, 0x40400000, 0x3FA00000, 0xBF400000, 0x40200000].map decF32)
    q.scale = 0x3C808081 ∧ q.zp = -64 ∧ q.codes = [-128, -64, -32, 63, 127, 16, -112, 95].map (ofSigned 8) := by decide +kernel

/-- The output of that example: its product with the codes 1, 2, −1, 0, 3, −2, 1, 1, scale 0.5, COLSUM 5. -/
theorem test_dequantised_output :
    deqInt 108 (-64) 5 0x3C808081 0x3F000000 none = f32mul (f32mul (f32ofInt 428) 0x3C808081) 0x3F000000 ∧
    dotI [-128, -64, -32, 63, 127, 16, -112, 95] [1, 2, -1, 0, 3, -2, 1, 1] = 108 - 2 * 64 + 128 := by decide +kernel

/-- The constant and non-finite rows of chapter 5. -/
theorem test_quant_constant_rows :
    (let q := quantRow 0 ((List.replicate 64 0x3EC0).map decBf16); q.scale = 0x3EC00000 ∧ q.zp = 0 ∧ q.codes = List.replicate 64 1 ∧ q.flags = 64) ∧
    (let q := quantRow 0 ((List.replicate 64 0).map decBf16); q.scale = 0x3F800000 ∧ q.codes = List.replicate 64 0 ∧ q.flags = 64) ∧
    (let q := quantRow 0 ((0x7FC0 :: List.replicate 63 0).map decBf16); q.scale = 0x3F800000 ∧ q.codes = List.replicate 64 0 ∧ q.flags = 128) := by decide +kernel

/-- A tree of depth 2: its three nodes and four leaves. -/
def tTree (n : List Nat) (l : List Nat) : Bytes := padTo 64 (n.flatMap (leBytes 4)) ++ padTo 64 (l.flatMap (leBytes 4))

/-- Table THR-7: the four trees on the sample (300, 0x3F40, NaN, +Inf) with base 1.0 give 1.25 and STATUS NAN. -/
theorem test_thresher_example :
    let f := ([300, 0x3F40, 0x7FC0, 0x7F80] : List Nat).flatMap (leBytes 2)
    let trees := [tTree [0x0000012C, 0x00603F00, 0] [0, 0x33800000, 0, 0], tTree [0x00A0BF80, 0x000000C8, 0] [0, 0x33800000, 0, 0],
                  tTree [0x00E07F7F, 0, 0x00603F40] [0, 0, 0xBE800000, 0], tTree [0x00603F80, 0x00180000, 0] [0, 0x3F000000, 0, 0]]
    let a := (trees.zip (List.range 4)).foldl (fun a t => thrTree 2 false 1 4 t.2 t.1 (f.map fun b => b) a) { out := [0x3F800000], nan := false, range := false }
    a.out = [0x3FA00000] ∧ a.nan = true ∧ a.range = false := by decide +kernel

/-- Table RQ-6: with LIMIT 24, 15 cells in use leave room, 17 leave room 7 and the queue is FULL, 8 leave room 16. -/
theorem test_report_queue_full :
    let q := fun (n : Nat) => rqPut State.reset 5 { rqQueue0 with min := 16, limit := 24, lists := [(1, { rqList0 with recs := [⟨1, 104, [], List.range n⟩] })] }
    rqRoom (q 15) 5 = 9 ∧ rqFull (q 15) 5 = false ∧ rqRoom (q 17) 5 = 7 ∧ rqFull (q 17) 5 = true ∧ rqFull (q 8) 5 = false := by decide +kernel

/-- Table RQ-6, steps 5 to 9: SEQ 102 and 103 of priority 6 come first, then 101 of priority 5, then 100 of priority 2. -/
theorem test_report_queue_order :
    let q := fun (a b : Nat) => ({ rqQueue0 with lists := [(2, { rqList0 with recs := [⟨2, 100, [], [0]⟩] }), (5, { rqList0 with recs := [⟨5, 101, [], [1]⟩], cursor := b }),
                                                     (6, { rqList0 with recs := [⟨6, 102, [], [2]⟩, ⟨6, 103, [], [3]⟩], cursor := a })] } : RqQueue)
    rqTop (q 0 0) = some 6 ∧ rqTop (q 1 0) = some 6 ∧ rqTop (q 2 0) = some 5 ∧ rqTop (q 2 1) = some 2 := by decide +kernel

/-- Table FLS-10 at 900 ms and at 1,000 ms: coalesced, then a continuation of the committed record. -/
theorem test_sampler_continuation :
    let s := fun (gt : Nat) (r : SmpRec) => rgw { tSmp [r] (gt * 1000000) with smp := { State.reset.smp with ring := [r], next := 501 } } rSMP_CFG 0x03E803E8
    let r := { tSr 500 0 false with type := 0x15, rep := 9, last := 800000000 }
    (after .samplerRecord (s 900 r)).smp.ring = [{ r with rep := 10, last := 900000000 }] ∧
    ((after .samplerRecord (s 1000 { r with rep := 10, last := 900000000, committed := true })).smp.ring.map fun x => (x.seq, x.rep, x.cont)) = [(500, 10, false), (501, 1, true)] := by
  decide +kernel

/-- Table WV-9: endpoint WAY_LOG2 of 17 in every partition is lowered P3, P2, P1, P0 and once more, to 15. -/
theorem test_endpoint_tables :
    let s := (List.range 4).foldl (fun s p => rgw s (rGRN_EP_CFG p) 0x80000011) State.reset
    let r := lowerAll epStep 64 { st := s, recs := [], clamps := 0, rejects := 0, en := [], sect := 0, elem := 0 }
    (r.recs.map fun e => (e.2.addr, e.2.requested, e.2.result)) =
      [(0x13100004, 17, 16), (0x12100004, 17, 16), (0x11100004, 17, 16), (0x10100004, 17, 16), (0x13100004, 16, 15), (0x12100004, 16, 15), (0x11100004, 16, 15),
       (0x10100004, 16, 15)] ∧ r.clamps = 8 := by decide +kernel

/-- Table GLB-10, steps 2 and 3: TIL_ID of L6 by its alias, and of the retired T07. -/
theorem test_tile_identity :
    let s := { rgw State.reset rGLB_EPOCH 42 with
      tiles := [(6, { tile0 with site := some 9 })]
      sites := [(7, { role := 2, lt := 31, epoch := 41, fenced := true }), (9, { role := 0, lt := 6, epoch := 42, fenced := false })] }
    (resolveReg s 0x22600000).map (fun a => (regRead s a).1) = some 0x4980002A ∧ (resolveReg s 0x20700000).map (fun a => (regRead s a).1) = some 0x3FE00029 := by
  decide +kernel

/-- Table GLB-10, step 5: window 0 maps device address 0x00011240_0000. -/
theorem test_host_window :
    let s := rgw (rgw State.reset (rHP_WIN_BASE 0) 0x00011240) (rHP_WIN_CFG 0) 0x80000000
    hpTarget s 0x80002F30 1 = .mem (sramBase 9 + 0x00402F30) := by decide +kernel

/-- Table PL-6: in a ring of eight, device 1 sends to device 5 on PL1 when MSG bit 0 is 1, and device 5 answers on PL0. -/
theorem test_ring_route :
    let s := fun (d : Nat) => let s := rgw State.reset rPL_CFG (0xA0000000 + d * 65536 + 8 * 256)
      { s with pl := { s.pl with links := (List.range 4).map fun l => (l, { plink0 with up := true, lanes := 8 }) } }
    (route (s 1) 5 1 0).map (fun e => e.1) = some 1 ∧ (route (s 5) 1 0 0).map (fun e => e.1) = some 0 := by decide +kernel

/-- R66 and R270: the CRC-32C of 1 to 9 as ASCII digits is 0xE3069283, their CRC-32 0xCBF43926. -/
theorem test_crcs :
    (crc32c 0xFFFFFFFF#32 [0x31, 0x32, 0x33, 0x34, 0x35, 0x36, 0x37, 0x38, 0x39]) = 0xE3069283#32 ∧
    (crc32 [0x31, 0x32, 0x33, 0x34, 0x35, 0x36, 0x37, 0x38, 0x39]) = 0xCBF43926#32 := by decide +kernel

end Sys2Proof.Tests
end

section
/-! PROOFS. What every step keeps (O60). A state *keeps* an earlier one when no command has left or joined the queue, no fuse is
unburned and the invariant still holds. Each function of the model that gives a state keeps when its argument does: one lemma for each,
`Keeps.f` for the function `f`, in the order of the model, so that a proof reads as the functions do: `h.bump.cinc` for
`cinc (bump s _) _ _`. -/

namespace Sys2Proof.Machine

open Sys2Proof

-- One declaration after the other: the whole text is checked within a fixed memory.
set_option Elab.async false

/-! ### The register file in canonical form -/

theorem regsWf_tput {m : Tab Word} {k : Nat} {v : Word} (h : regsWf m = true) (hv : v ≠ regReset k) : regsWf (tput m k v) = true := by
  induction m with
  | nil => simp [tput, regsWf, tabove, hv]
  | cons e r ih =>
    obtain ⟨j, w⟩ := e
    simp only [regsWf, Bool.and_eq_true, decide_eq_true_eq] at h
    obtain ⟨⟨habove, hne⟩, hr⟩ := h
    simp only [tput]
    split
    · simp only [regsWf, tabove, List.all_cons, Bool.and_eq_true, decide_eq_true_eq]
      exact ⟨⟨⟨‹_›, tabove_mono habove (by omega)⟩, hv⟩, ⟨habove, hne⟩, hr⟩
    · split
      · subst_vars; simp only [regsWf, Bool.and_eq_true, decide_eq_true_eq]; exact ⟨⟨habove, hv⟩, hr⟩
      · simp only [regsWf, Bool.and_eq_true, decide_eq_true_eq]; exact ⟨⟨tabove_tput habove (by omega), hne⟩, ih hr⟩

theorem regsWf_tdel {m : Tab Word} {k : Nat} (h : regsWf m = true) : regsWf (tdel m k) = true := by
  induction m with
  | nil => rfl
  | cons e r ih =>
    obtain ⟨j, w⟩ := e
    simp only [regsWf, Bool.and_eq_true, decide_eq_true_eq] at h
    obtain ⟨⟨habove, hne⟩, hr⟩ := h
    simp only [tdel]
    split
    · exact ih hr
    · simp only [regsWf, Bool.and_eq_true, decide_eq_true_eq]; exact ⟨⟨tabove_tdel habove, hne⟩, ih hr⟩

/-- Storing a register keeps the canonical form. -/
theorem regsWf_tset {m : Tab Word} {k : Nat} {v : Word} (h : regsWf m = true) : regsWf (tset (regReset k) m k v) = true := by
  simp only [tset]
  split
  · exact regsWf_tdel h
  · exact regsWf_tput h ‹_›

/-- Taking registers back to their reset values keeps the canonical form. -/
theorem regsWf_filter {m : Tab Word} (p : Nat × Word → Bool) (h : regsWf m = true) : regsWf (m.filter p) = true := by
  induction m with
  | nil => rfl
  | cons e r ih =>
    obtain ⟨j, w⟩ := e
    simp only [regsWf, Bool.and_eq_true, decide_eq_true_eq] at h
    obtain ⟨⟨habove, hne⟩, hr⟩ := h
    simp only [List.filter_cons]
    split
    · simp only [regsWf, Bool.and_eq_true, decide_eq_true_eq]
      refine ⟨⟨?_, hne⟩, ih hr⟩
      simp only [tabove, List.all_eq_true, List.mem_filter] at habove ⊢
      exact fun e he => habove e he.1
    · exact ih hr

/-! ### What every operation keeps -/

/-- From `s` to `t` no command has left or joined the queue, no fuse is unburned, and the invariant is kept. -/
structure Keeps (s t : State) : Prop where
  pending : t.pending = s.pending
  fuses : fusesKept s t
  inv : Inv s → Inv t

variable {a s t : State}

theorem Keeps.refl (s : State) : Keeps s s := ⟨rfl, ⟨le_rfl, le_rfl, le_rfl⟩, id⟩

/-- A change of any part of the state: what it owes for each part that the invariant and the fuses speak of; a part that is not named
has stayed. -/
theorem Keeps.change (h : Keeps a s) (hp : t.pending = s.pending := by rfl)
    (hm : Memory.wf s.mem = true → Memory.wf t.mem = true := by exact id) (hx : Memory.wf s.xbuf = true → Memory.wf t.xbuf = true := by exact id)
    (hr : regsWf s.regs = true → regsWf t.regs = true := by exact id) (hs : stageLegal s.boot.stage = true → stageLegal t.boot.stage = true := by exact id)
    (hv : s.boot.svnMin ≤ t.boot.svnMin := by exact le_rfl) (he : s.boot.epoch ≤ t.boot.epoch := by exact le_rfl)
    (hl : s.boot.lifecycle ≤ t.boot.lifecycle := by exact le_rfl) : Keeps a t := by
  obtain ⟨gp, ⟨gv, ge, gl⟩, gi⟩ := h
  refine ⟨hp.trans gp, ⟨gv.trans hv, ge.trans he, gl.trans hl⟩, fun i => ?_⟩
  obtain ⟨im, ix, ir, is⟩ := gi i
  exact ⟨hm im, hx ix, hr ir, hs is⟩

/-- A record update of parts that neither the invariant nor the fuses speak of, and of the start but for its stage and its fuses. -/
theorem Keeps.updBoot {fc gt rp fr rq ob si frs pi su st ar we sh ui vd tm jr jo pl ti cx kn la fa si2 fl sp se sl ba ca pw bk ge mb wv fs smp li hp lp ti2 ea ec}
    {f wm ag bg sa hd ha ao mn rd fw hl dw im rv at_ nr} (h : Keeps a s) :
    Keeps a ⟨s.pending, fc, gt, rp, s.regs, s.mem, s.xbuf, fr, rq, ob, si, frs, pi, su, st, ar, we, sh, ui, vd, tm, jr, jo, pl, ti, cx, kn, la, fa, si2, fl,
      sp, se, sl, ba, ca, pw, bk, ge, mb, ⟨s.boot.stage, f, wm, ag, bg, sa, hd, ha, ao, mn, rd, fw, hl, dw, im, s.boot.svnMin, s.boot.epoch,
      s.boot.lifecycle, rv, at_, nr⟩, wv, fs, smp, li, hp, lp, ti2, ea, ec⟩ := h.change

/-- A record update of parts that neither the invariant nor the fuses speak of. -/
theorem Keeps.upd {fc gt rp fr rq ob si frs pi su st ar we sh ui vd tm jr jo pl ti cx kn la fa si2 fl sp se sl ba ca pw bk ge mb wv fs smp li hp lp ti2 ea ec}
    (h : Keeps a s) : Keeps a ⟨s.pending, fc, gt, rp, s.regs, s.mem, s.xbuf, fr, rq, ob, si, frs, pi, su, st, ar, we, sh, ui, vd, tm, jr, jo, pl, ti, cx, kn,
      la, fa, si2, fl, sp, se, sl, ba, ca, pw, bk, ge, mb, s.boot, wv, fs, smp, li, hp, lp, ti2, ea, ec⟩ := h.updBoot

/-! ### Choices, loops and parts of a result -/

theorem Keeps.ite {c : Prop} [Decidable c] (hs : Keeps a s) (ht : Keeps a t) : Keeps a (if c then s else t) := by
  split <;> assumption

/-- The two arms of a branch from one state, each given as what it does with it. -/
theorem Keeps.fork {c : Prop} [Decidable c] {t u : Machine.State} (h : Keeps a s) (ht : Keeps a s → Keeps a t) (hu : Keeps a s → Keeps a u) :
    Keeps a (if c then t else u) := .ite (ht h) (hu h)

theorem Keeps.when {c : Prop} [Decidable c] {t : Machine.State} (h : Keeps a s) (ht : Keeps a s → Keeps a t) : Keeps a (if c then t else s) :=
  h.fork ht id

/-- A result that may be missing keeps, where it is there. -/
def KeepsSome {β : Type} (a : State) (π : β → State) (o : Option β) : Prop := ∀ r ∈ o, Keeps a (π r)

theorem KeepsSome.none {β : Type} {π : β → State} : KeepsSome a π none := nofun

theorem KeepsSome.some (h : Keeps a s) : KeepsSome a id (some s) := by rintro _ ⟨⟩; exact h

theorem KeepsSome.fst {β : Type} {b : β} (h : Keeps a s) : KeepsSome a Prod.fst (Option.some (s, b)) := by rintro _ ⟨⟩; exact h

theorem KeepsSome.snd {β : Type} {b : β} (h : Keeps a s) : KeepsSome a Prod.snd (Option.some (b, s)) := by rintro _ ⟨⟩; exact h

theorem Keeps.getD {o : Option State} (ho : KeepsSome a id o) (h : Keeps a s) : Keeps a (o.getD s) := by
  cases o with
  | none => exact h
  | some r => exact ho r rfl

theorem Keeps.foldlOn {β γ : Type} (π : β → State) {f : β → γ → β} {l : List γ} {b : β} (h : Keeps a (π b))
    (hf : ∀ x y, Keeps a (π x) → Keeps a (π (f x y))) : Keeps a (π (l.foldl f b)) := by
  induction l generalizing b with
  | nil => exact h
  | cons y l ih => exact ih (hf b y h)

theorem Keeps.foldl {γ : Type} {f : State → γ → State} {l : List γ} (h : Keeps a s) (hf : ∀ x y, Keeps a x → Keeps a (f x y)) :
    Keeps a (l.foldl f s) :=
  .foldlOn id h hf

theorem Keeps.fst {β : Type} {p : State × β} {b : β} (e : p = (t, b)) (h : Keeps a p.1) : Keeps a t := by rwa [e] at h

theorem Keeps.snd {β : Type} {p : β × State} {b : β} (e : p = (b, t)) (h : Keeps a p.2) : Keeps a t := by rwa [e] at h

theorem Keeps.thd {β γ : Type} {p : β × γ × State} {b : β} {c : γ} (e : p = (b, c, t)) (h : Keeps a p.2.2) : Keeps a t := by rwa [e] at h

theorem Keeps.fth {β γ δ : Type} {p : β × γ × δ × State} {b : β} {c : γ} {d : δ} (e : p = (b, c, d, t)) (h : Keeps a p.2.2.2) : Keeps a t :=
  by rwa [e] at h

/-- A result that may be an error keeps, where it is none. -/
def KeepsOk {ε β : Type} (a : State) (x : Except ε (State × β)) : Prop := ∀ r, x = .ok r → Keeps a r.1

theorem KeepsOk.ok {ε β : Type} {b : β} (h : Keeps a s) : KeepsOk a (.ok (s, b) : Except ε (State × β)) := by
  rintro _ ⟨⟩; exact h

theorem KeepsOk.error {ε β : Type} {e : ε} : KeepsOk a (.error e : Except ε (State × β)) := fun _ h => by cases h

theorem KeepsOk.bind {ε α β : Type} {x : Except ε α} {k : α → Except ε (State × β)} (hk : ∀ v, KeepsOk a (k v)) : KeepsOk a (x >>= k) := by
  cases x with
  | error e => exact .error
  | ok v => exact hk v

/-- A test that throws and then the rest of a computation: it keeps when the rest does. -/
theorem KeepsOk.guard {ε β : Type} {c : Prop} [Decidable c] {e : ε} {k : Unit → Except ε (State × β)} (hk : ∀ v, KeepsOk a (k v)) :
    KeepsOk a (if c then throw e >>= k else k ()) := by
  split
  · exact .bind hk
  · exact hk ()

/-! ### Ops -/

theorem Keeps.rgw {x v : Nat} (h : Keeps a s) : Keeps a (rgw s x v) := h.change (hr := fun w => regsWf_tset w)

theorem Keeps.rgwf {a' hi lo v : Nat} (h : Keeps a s) : Keeps a (rgwf s a' hi lo v) := h.rgw

theorem Keeps.rgwb {a' i : Nat} {v : Bool} (h : Keeps a s) : Keeps a (rgwb s a' i v) := h.rgwf

theorem Keeps.bumpN {a' n : Nat} (h : Keeps a s) : Keeps a (bumpN s a' n) := h.rgw

theorem Keeps.bump {a' : Nat} (h : Keeps a s) : Keeps a (bump s a') := h.bumpN

theorem Keeps.bumpDiv {a' n d : Nat} (h : Keeps a s) : Keeps a (bumpDiv s a' n d) := h.upd.bumpN

theorem Keeps.cinc {i n : Nat} (h : Keeps a s) : Keeps a (cinc s i n) := h.upd

theorem Keeps.lpCount {k a' n : Nat} (h : Keeps a s) : Keeps a (lpCount s k a' n) := .ite h (h.foldl fun _ _ h => h.cinc)

theorem Keeps.memW {x : Nat} {l : Bytes} (h : Keeps a s) : Keeps a (memW s x l) := by
  have hc : Keeps a (Machine.lpCount s 1 x l.length) := h.lpCount
  refine .ite h ⟨hc.pending, hc.fuses, fun i => ?_⟩
  obtain ⟨_, hx, hr, hs⟩ := hc.inv i
  exact ⟨twf_twrite (h.inv i).1, hx, hr, hs⟩

theorem Keeps.strike {a' : Nat} (h : Keeps a s) : Keeps a (strike s a') := h.upd

theorem Keeps.drawFree {w : Nat} (h : Keeps a s) : Keeps a (drawFree s w).2 := h.upd

theorem Keeps.epochAdvance {cause : Nat} (h : Keeps a s) : Keeps a (epochAdvance s cause) := .ite h.upd h.upd.rgw

theorem Keeps.smpEvent {type : Nat} {body : Bytes} (h : Keeps a s) : Keeps a (smpEvent s type body) := h.upd

theorem Keeps.lifeInc {off : Nat} (h : Keeps a s) : Keeps a (lifeInc s off) := h.upd

theorem Keeps.lifeSite {t hi lo : Nat} (h : Keeps a s) : Keeps a (lifeSite s t hi lo) := h.upd

theorem Keeps.mboxDone {op status tag : Nat} (h : Keeps a s) : Keeps a (mboxDone s op status tag) := h.upd

theorem Keeps.mboxRun {op : Nat} {run : State → Bytes → State} (h : Keeps a s) (hf : ∀ t b, Keeps a t → Keeps a (run t b)) :
    Keeps a (mboxRun s op run) := by
  unfold Machine.mboxRun
  split
  exacts [h, .ite (hf _ _ h.upd) h]

theorem Keeps.groupPut {g : Nat} {v : Machine.Group} (h : Keeps a s) : Keeps a (groupPut s g v) := h.upd

theorem Keeps.rqPut {q : Nat} {v : RqQueue} (h : Keeps a s) : Keeps a (rqPut s q v) := h.upd

theorem Keeps.rqRefuse {q : Nat} (h : Keeps a s) : Keeps a (rqRefuse s q) := h.rqPut.bump

theorem Keeps.stage {writer queue prio type : Nat} {body : Bytes} (h : Keeps a s) : Keeps a (stage s writer queue prio type body) :=
  .ite h.rqRefuse.bump h.upd


/-! ### Observe -/

theorem Keeps.counterRead (h : Keeps a s) : Keeps a (counterRead s).2 := h.rgw.rgwf

theorem Keeps.cntClear {lo hi : Nat} (h : Keeps a s) : Keeps a (cntClear s lo hi) := h.upd

theorem Keeps.obsClear (h : Keeps a s) : Keeps a (obsClear s) := h.cntClear

theorem Keeps.scopeStart {l e ctx : Nat} (h : Keeps a s) : Keeps a (scopeStart s l e ctx) := .ite h.upd h

theorem Keeps.ringWrite {base size n : Nat} {b : Bytes} {off : Nat} (h : Keeps a s) : Keeps a (ringWrite s base size n b off).2.2 := by
  induction n generalizing s b off with
  | zero => exact h
  | succ n ih => exact ih h.memW

theorem Keeps.snapshotTake (h : Keeps a s) : Keeps a (snapshotTake s) := .ite h (.ite h.rgwb (h.ringWrite.rgw.rgw.rgwb.when fun h => h.rgwb).upd)

theorem Keeps.snapshotDue {busy : Bool} (h : Keeps a s) : Keeps a (snapshotDue s busy) := .ite h (.ite h.upd.upd.bump h.upd.snapshotTake)

theorem Keeps.traceRec {l : Nat} {isEnd : Bool} {engine : Nat} {retried dropped : Bool} {ctx index stretch quarters ply : Nat} (h : Keeps a s) :
    Keeps a (traceRec s l isEnd engine retried dropped ctx index stretch quarters ply) := .ite h (.ite h.upd.upd.bump h.upd.upd)

theorem Keeps.traceDrain {l : Nat} (h : Keeps a s) : Keeps a (traceDrain s l) := by
  unfold Machine.traceDrain
  extract_lets
  split
  exacts [h, .ite h (.ite h.memW.upd.bumpDiv.upd (.ite h.memW.upd.bumpDiv.upd.rgwb h.memW.upd.bumpDiv.upd.rgwb))]

theorem Keeps.obsRestart (h : Keeps a s) : Keeps a (obsRestart s) := h.rgw.rgwf.rgwf.upd

theorem Keeps.obsCommand {op : Nat} (h : Keeps a s) : Keeps a (obsCommand s op) := by
  unfold Machine.obsCommand
  extract_lets
  split
  exacts [h.obsClear.rgwb.rgwf, h.snapshotTake.rgwb.rgwf, h.rgwb.rgwf]

theorem Keeps.obsRegRead {o : Nat} (h : Keeps a s) : KeepsSome a Prod.snd (obsRegRead s o) := by
  unfold Machine.obsRegRead
  split
  exacts [.snd h.counterRead, .snd h, .snd h.rgw, .snd h.upd, .none]

theorem Keeps.obsRegWrite {o v : Nat} (h : Keeps a s) : KeepsSome a id (obsRegWrite s o v) := by
  unfold Machine.obsRegWrite
  split
  · exact .some h.obsCommand
  · split
    exacts [.some h.upd.rgw, .none]
  · split
    exacts [.some h.upd.rgw.rgwf, .none]
  · exact .none


/-! ### Reports -/

theorem Keeps.rqFreeCells {cells : List Nat} (h : Keeps a s) : Keeps a (rqFreeCells s cells) := h.upd

theorem Keeps.rqWriteCells {l : List Nat} {b : Bytes} (h : Keeps a s) : Keeps a (rqWriteCells s l b) := by
  induction l generalizing s b with
  | nil => exact h
  | cons c r ih =>
    cases r with
    | nil => exact h.memW.memW
    | cons d r => exact ih h.memW.memW

theorem Keeps.rqLinkTail {l : RqList} {first : Nat} (h : Keeps a s) : Keeps a (rqLinkTail s l first) := by
  unfold Machine.rqLinkTail
  split
  · split
    exacts [h.memW, h]
  · exact h

theorem Keeps.rqAccept {r : Staged} (h : Keeps a s) : Keeps a (rqAccept s r) := h.upd.rqWriteCells.rqLinkTail.rqPut.bump

theorem Keeps.smpOffer {r : Staged} {b : Bytes} (h : Keeps a s) : Keeps a (smpOffer s r b) := .ite h.upd h

theorem Keeps.wvDrain (h : Keeps a s) : Keeps a (wvDrain s) := .ite h h.upd

theorem Keeps.recordAccept (h : Keeps a s) : Keeps a (recordAccept s) := by
  unfold Machine.recordAccept
  split
  exacts [h.wvDrain, (Keeps.ite h.upd.rqAccept.smpOffer h.upd.rqRefuse).wvDrain]

theorem Keeps.rqPutList {q p : Nat} {l : RqList} (h : Keeps a s) : Keeps a (rqPutList s q p l) := h.rqPut

theorem Keeps.rqCut {q p n addr : Nat} (h : Keeps a s) : Keeps a (rqCut s q p n addr) := h.rqPut.upd.bumpN

theorem Keeps.rqRead {q : Nat} {hit : RqHit} (h : Keeps a s) : Keeps a (rqRead s q hit).2 := by
  unfold Machine.rqRead
  extract_lets
  split
  · exact h.bump
  · extract_lets
    split
    · exact h.rqPutList
    · exact h.bump
    · split
      · exact h.rqPutList
      · exact h.rqPutList.bump
      · extract_lets
        split
        exacts [h.rqPutList.rqCut, h.rqCut.rqPutList]

theorem Keeps.rqAperture {q off len : Nat} {hit : RqHit} (h : Keeps a s) : Keeps a (rqAperture s q off len hit).2 := .ite h.rqRead.rqPut h

theorem Keeps.rqEach {q : Nat} {f : RqList → RqList} (h : Keeps a s) : Keeps a (rqEach s q f) := h.rqPut

theorem Keeps.rqMark {q : Nat} (h : Keeps a s) : Keeps a (rqMark s q) := h.rqEach

theorem Keeps.rqRewind {q : Nat} (h : Keeps a s) : Keeps a (rqRewind s q) := h.rqEach

theorem Keeps.rqRelease {q : Nat} (h : Keeps a s) : Keeps a (rqRelease s q) := h.rqEach.rqFreeCells

theorem Keeps.rqFlush {q : Nat} (h : Keeps a s) : Keeps a (rqFlush s q) := h.rqEach.rqFreeCells

theorem Keeps.rqCommand {op q : Nat} (h : Keeps a s) : Keeps a (rqCommand s op q) := by
  unfold Machine.rqCommand
  extract_lets
  split
  exacts [h.rqMark.rgw, h.rqRewind.rgw, h.rqRelease.rgw, h.rqMark.rqRelease.rgw, h.rqFlush.rgw, h.rgw]

theorem Keeps.rqReclaim (h : Keeps a s) : Keeps a (rqReclaim s) := h.upd.rqFreeCells

theorem Keeps.rqClearOverrun {base v : Nat} (h : Keeps a s) : Keeps a (rqClearOverrun s base v) := h.foldl fun _ _ h => .ite h.rqPut h

theorem Keeps.rqRegWrite {o v : Nat} (h : Keeps a s) : KeepsSome a id (rqRegWrite s o v) := by
  unfold Machine.rqRegWrite
  extract_lets
  split
  · exact .some h.rqClearOverrun
  · exact .some h.rqClearOverrun
  · exact .some h.rqPut.epochAdvance
  · split
    exacts [.some h, .some h.rqPut.epochAdvance]
  · exact .some h.rqPut.epochAdvance
  · exact .some h.rqPut
  · exact .some h.rqCommand
  · exact .none


/-! ### FaultOps -/

theorem Keeps.sitePut {t : Nat} {v : SiteSt} (h : Keeps a s) : Keeps a (sitePut s t v) := h.upd

theorem Keeps.arrivalNote {p : Nat} (h : Keeps a s) : Keeps a (arrivalNote s p) := h.upd

theorem Keeps.faultRecord {prio : Nat} {body : Bytes} (h : Keeps a s) : Keeps a (faultRecord s prio body) := h.stage

theorem Keeps.latchError {unit cls addr level : Nat} (h : Keeps a s) : Keeps a (latchError s unit cls addr level) := h.upd

theorem Keeps.faultDetect {cls unit part addr action level : Nat} {masked dbl : Bool} (h : Keeps a s) :
    Keeps a (faultDetect s cls unit part addr action level masked dbl) := (Keeps.ite h.latchError.bump h.latchError.bump.rgwb).upd.faultRecord

theorem Keeps.faultEnd {cls unit cap : Nat} (h : Keeps a s) : Keeps a (faultEnd s cls unit cap) := by
  unfold Machine.faultEnd
  split
  exacts [h, .ite h.upd.upd h.upd.faultRecord.upd]

theorem Keeps.faultInstant {cls unit part addr action level : Nat} {masked dbl : Bool} (h : Keeps a s) :
    Keeps a (faultInstant s cls unit part addr action level masked dbl) := h.faultDetect.faultEnd

theorem Keeps.lpUe {a' : Nat} (h : Keeps a s) : Keeps a (lpUe s a') := h.bump.cinc.upd

theorem Keeps.faultUe {cls unit part addr : Nat} (h : Keeps a s) : Keeps a (faultUe s cls unit part addr) := (Keeps.ite h.lpUe h).faultInstant

theorem Keeps.sramCorrected {a' : Nat} (h : Keeps a s) : Keeps a (sramCorrected s a') := h.faultInstant

theorem Keeps.faultRedisp {part : Nat} (h : Keeps a s) : Keeps a (faultRedisp s part) := h.upd.bump

theorem Keeps.smbLatch (h : Keeps a s) : Keeps a (smbLatch s) := .ite h.upd h


/-! ### Sampler -/

theorem Keeps.smpAppend {type : Nat} {body : Bytes} {cont : Bool} (h : Keeps a s) : Keeps a (smpAppend s type body cont) := h.upd.bump.cinc.bumpN

theorem Keeps.smpAccept {type : Nat} {body : Bytes} (h : Keeps a s) : Keeps a (smpAccept s type body) := by
  unfold Machine.smpAccept
  split
  exacts [h.smpAppend, .ite h.upd.bump h.smpAppend]

theorem Keeps.samplerRecord (h : Keeps a s) : Keeps a (samplerRecord s) := by
  unfold Machine.samplerRecord
  split
  exacts [h, h.upd.smpAccept]

theorem Keeps.pageCommit (h : Keeps a s) : Keeps a (pageCommit s) := .ite h h.upd

theorem Keeps.logPageCommit (h : Keeps a s) : Keeps a (logPageCommit s) := .ite h.pageCommit h

theorem Keeps.smpFlush (h : Keeps a s) : Keeps a (smpFlush s) := h.foldl fun _ _ h => h.pageCommit

theorem Keeps.smpRead (h : Keeps a s) : Keeps a (smpRead s).2 := by
  unfold Machine.smpRead
  extract_lets
  split
  · exact h
  · split
    · exact h.upd
    · split <;> exact h.upd
    · exact h.upd

theorem Keeps.smpAperture {off len : Nat} (h : Keeps a s) : Keeps a (smpAperture s off len).2 := .ite h.smpRead.upd h

theorem Keeps.logPageFetch {bad : Bool} (h : Keeps a s) : Keeps a (logPageFetch s bad) := by
  unfold Machine.logPageFetch
  split
  exacts [h, .ite h.upd.bump h.upd]

theorem Keeps.smpCommand {op : Nat} (h : Keeps a s) : Keeps a (smpCommand s op) := by
  unfold Machine.smpCommand
  extract_lets
  split
  exacts [h.upd, h.upd, h.upd, h]

theorem Keeps.smpRegRead {o : Nat} (h : Keeps a s) : KeepsSome a Prod.snd (smpRegRead s o) := by
  unfold Machine.smpRegRead
  split
  exacts [.snd h, .snd h, .snd h, .snd h, .snd h, .snd h, .snd h.rgw, .none]


/-! ### Flash -/

theorem Keeps.blkPut {b : Nat} {v : FBlock} (h : Keeps a s) : Keeps a (blkPut s b v) := h.upd

theorem Keeps.pagesDrop {b : Nat} (h : Keeps a s) : Keeps a (pagesDrop s b) := h.upd

theorem Keeps.blkErased {b : Nat} (h : Keeps a s) : Keeps a (blkErased s b) := h.upd.pagesDrop.blkPut

theorem Keeps.fUnitWrite {u : FUnit} {body : Bytes} (h : Keeps a s) : Keeps a (fUnitWrite s u body) := (Keeps.ite h.blkErased h).upd.blkPut

theorem Keeps.fUnitPlace {kind idx copy seq : Nat} {body : Bytes} (h : Keeps a s) : Keeps a (fUnitPlace s kind idx copy seq body).1 :=
  h.fUnitWrite.upd.foldl fun _ _ h => h.blkPut

theorem Keeps.checkpoint (h : Keeps a s) : Keeps a (checkpoint s) := (h.fUnitPlace.fUnitPlace.foldl fun _ _ h => h.blkPut).upd

theorem Keeps.batchWrite {es : List Bytes} (h : Keeps a s) : Keeps a (batchWrite s es) := .ite h (.ite h.fUnitWrite.upd.checkpoint h.fUnitWrite.upd)

theorem Keeps.fUnitPut {kind idx copy seq : Nat} {body : Bytes} (h : Keeps a s) : Keeps a (fUnitPut s kind idx copy seq body) :=
  h.fUnitPlace.batchWrite

theorem Keeps.fUnitDrop {kind idx copy : Nat} (h : Keeps a s) : Keeps a (fUnitDrop s kind idx copy) := (h.upd.foldl fun _ _ h => h.blkPut).batchWrite

theorem Keeps.blkRetire {b cause : Nat} (h : Keeps a s) : Keeps a (blkRetire s b cause) :=
  .ite h (h.blkPut.bump.rgwb.lifeInc.smpEvent.when fun h => h.batchWrite)

theorem Keeps.blkMove {b f : Nat} {whole : Bool} (h : Keeps a s) : Keeps a (blkMove s b f whole) :=
  (Keeps.ite h.blkErased h).upd.blkPut.batchWrite.blkPut

theorem Keeps.blkRefresh {b : Nat} {unreadable : Bool} (h : Keeps a s) : Keeps a (blkRefresh s b unreadable) :=
  .ite (.ite h.blkRetire h) (h.blkMove.bump.fork (fun h => h.blkRetire) fun h => h.blkErased)

theorem Keeps.flashRead {b page cw bitsN step : Nat} (h : Keeps a s) : Keeps a (flashRead s b page cw bitsN step) := 
  ((((h.when fun h => h.bump).when fun h => h.bump).when fun h => h.bump).blkPut.when
    fun h => (Keeps.ite h h.upd).bump.rgwb.smpEvent).fork (fun h => h.when fun h => h.blkRetire) fun h => h.when fun h => h.blkRefresh

theorem Keeps.lifePages {n : Nat} (h : Keeps a s) : Keeps a (lifePages s n) := h.upd

theorem Keeps.logYields (h : Keeps a s) : Keeps a (logYields s) := .ite h.upd h

theorem Keeps.flashProgram {b pages : Nat} {ok : Bool} (h : Keeps a s) : Keeps a (flashProgram s b pages ok) :=
  .ite h.lifePages.logYields.blkPut h.lifePages.logYields.blkPut.blkMove.blkRetire

theorem Keeps.wearLevel (h : Keeps a s) : Keeps a (wearLevel s) := by
  unfold Machine.wearLevel
  extract_lets _ _ _ victim target
  refine .ite ?_ ?_
  · clear_value victim target
    split
    exacts [h.blkMove, h]
  · exact h

theorem Keeps.flashErase {b : Nat} {ok : Bool} (h : Keeps a s) : Keeps a (flashErase s b ok) := .ite h.blkErased.wearLevel h.blkRetire

theorem Keeps.flashPatrol {reads : List (Nat × Nat × Nat × Nat × Nat)} (h : Keeps a s) : Keeps a (flashPatrol s reads) :=
  .ite h (h.upd.foldl fun _ _ h => h.flashRead)

theorem Keeps.retentionRefresh {b : Nat} (h : Keeps a s) : Keeps a (retentionRefresh s b) := .ite h.blkRefresh h

theorem Keeps.flsUpdate {n : Nat} {body : Bytes} (h : Keeps a s) : Keeps a (flsUpdate s n body) := .ite h.fUnitPut (h.foldl fun _ _ h => h.fUnitPut)

theorem Keeps.copyReport {n : Nat} {r : Resolved} (h : Keeps a s) : Keeps a (copyReport s n r) :=
  (Keeps.ite h.bump.rgwb.smpEvent h).foldl fun _ _ h => h.bump.rgwb.smpEvent

theorem Keeps.mountCopy {n : Nat} {scan : Option Bytes} (h : Keeps a s) : Keeps a (mountCopy s n scan) := by
  unfold Machine.mountCopy
  extract_lets
  refine h.copyReport.foldl fun _ _ h1 => ?_
  split
  exacts [.ite h1 h1.fUnitPut, h1.fUnitPut]

theorem Keeps.lifeLoad {b : Bytes} (h : Keeps a s) : Keeps a (lifeLoad s b) := h.upd

theorem Keeps.lifeCommit (h : Keeps a s) : Keeps a (lifeCommit s) := .ite h.flsUpdate.smpEvent h

theorem Keeps.stagingPut {off : Nat} {b : Bytes} (h : Keeps a s) : Keeps a (stagingPut s off b) := .ite h.memW h

theorem Keeps.flashCapCopy (h : Keeps a s) : Keeps a (flashCapCopy s) := by
  unfold Machine.flashCapCopy
  split
  exacts [h, .ite h h.upd.fUnitPut.lpCount.smpEvent]

theorem Keeps.flsCommand {op slot : Nat} (h : Keeps a s) : Keeps a (flsCommand s op slot) := by
  unfold Machine.flsCommand
  extract_lets
  split
  · exact h.stagingPut.rgw
  · split
    exacts [h.stagingPut.rgw, h.rgw]
  · exact h.upd.rgw
  · exact h.rgw


/-! ### Repair -/

theorem Keeps.repairSet {i v : Nat} (h : Keeps a s) : Keeps a (repairSet s i v) := h.upd

theorem Keeps.repairCommit (h : Keeps a s) : Keeps a (repairCommit s) := .ite h.flsUpdate h

theorem Keeps.repairSite {t : Nat} {cube : Option Nat} (h : Keeps a s) : Keeps a (repairSite s t cube) := by
  unfold Machine.repairSite
  split
  exacts [.ite h.repairSet h.repairSet, h.repairSet]

theorem Keeps.repairLanes {t lanes : Nat} (h : Keeps a s) : Keeps a (repairLanes s t lanes) := .ite h h.repairSet

theorem Keeps.repairRegs {t : Nat} (h : Keeps a s) : Keeps a (repairRegs s t) := .ite h.rgwf.rgw.rgw h.rgwf.rgw.rgw


/-! ### TierOps -/

theorem Keeps.tierRecord {event group bank phys off : Nat} (h : Keeps a s) : Keeps a (tierRecord s event group bank phys off) := h.stage

theorem Keeps.bankRecord {event n off : Nat} (h : Keeps a s) : Keeps a (bankRecord s event n off) := h.tierRecord

theorem Keeps.cellsLeave {n : Nat} (h : Keeps a s) : Keeps a (cellsLeave s n) := .ite h h.upd

theorem Keeps.bankRetire {n cls addr : Nat} {masked : Bool} (h : Keeps a s) : Keeps a (bankRetire s n cls addr masked) := by
  unfold Machine.bankRetire
  extract_lets
  refine .ite ?_ ?_
  · exact h
  · split
    exacts [h.groupPut.faultDetect, h.groupPut.repairSet.repairCommit.epochAdvance.faultInstant.cellsLeave.bankRecord]

theorem Keeps.bankCe {n u : Nat} (h : Keeps a s) : Keeps a (bankCe s n u) :=
  (h.bump.cinc.groupPut.when fun h => h.bankRecord).faultInstant.when fun h => h.bankRetire

theorem Keeps.bankUe {n a' : Nat} (h : Keeps a s) : Keeps a (bankUe s n a') := .ite h.bump.bankRecord.faultUe h.bump.bankRecord.faultUe.bankRetire

theorem Keeps.tierMiss {a' : Nat} (h : Keeps a s) : Keeps a (tierMiss s a') := .ite h.bankUe h

theorem Keeps.bseMismatch {n : Nat} {recurs : Bool} (h : Keeps a s) : Keeps a (bseMismatch s n recurs) :=
  (h.bump.bump.bankRecord.faultInstant.when fun h => h.bump).groupPut.when fun h => h.bankRetire

theorem Keeps.rqData {q off len : Nat} {hit : RqHit} (h : Keeps a s) : Keeps a (rqData s q off len hit).2 := by
  unfold Machine.rqData
  split
  · extract_lets s1 _
    have h1 : Keeps a s1 := by
      unfold s1
      split
      exacts [h.strike, h]
    split
    · exact h1.rqAperture
    · split
      · rename_i _ t e
        have h2 : Keeps a t := Keeps.snd e h1.rqAperture
        split
        · exact h2.tierMiss
        · split
          exacts [h2.tierMiss, h2]
  · exact h.rqAperture


/-! ### Layout -/

theorem Keeps.piecesW {l : List (Nat × Nat)} {b : Bytes} (h : Keeps a s) : Keeps a (piecesW l b s) := by
  induction l generalizing s b with
  | nil => exact h
  | cons e r ih => exact ih h.memW

theorem Keeps.generalW {p y : Nat} {b : Bytes} (h : Keeps a s) : Keeps a (generalW s p y b) := h.piecesW


/-! ### PacketOps -/

theorem Keeps.subPut {n m : Nat} {v : SubPort} (h : Keeps a s) : Keeps a (subPut s n m v) := h.upd

theorem Keeps.framePut {h' : Nat} {f : Frame} (h : Keeps a s) : Keeps a (framePut s h' f) := h.upd

theorem Keeps.tmPut {p : Nat} {v : Tm} (h : Keeps a s) : Keeps a (tmPut s p v) := h.upd

theorem Keeps.cellsTake {p n : Nat} (h : Keeps a s) : Keeps a (cellsTake s p n).2 := h.tmPut

theorem Keeps.cellsFree {p : Nat} {cs : List Nat} (h : Keeps a s) : Keeps a (cellsFree s p cs) := h.tmPut

theorem Keeps.pipePut {p : Nat} {v : Pipe} (h : Keeps a s) : Keeps a (pipePut s p v) := h.upd

theorem Keeps.headDrop {n : Option Nat} (h : Keeps a s) : Keeps a (headDrop s n) := by
  unfold Machine.headDrop
  split
  exacts [h.pipePut, h]

theorem Keeps.frameUnref {h' : Nat} (h : Keeps a s) : Keeps a (frameUnref s h') := by
  unfold Machine.frameUnref
  split
  exacts [h, .ite h.upd.headDrop.cellsFree h.framePut]

theorem Keeps.frameRef {h' : Nat} (h : Keeps a s) : Keeps a (frameRef s h') := by
  unfold Machine.frameRef
  split
  exacts [h, h.framePut]

theorem Keeps.sharePut {p : Nat} {v : Share} (h : Keeps a s) : Keeps a (sharePut s p v) := h.upd

theorem Keeps.entPut {p : Nat} {ep : Bool} {i : Nat} {v : Option GEnt} (h : Keeps a s) : Keeps a (entPut s p ep i v) := h.sharePut

theorem Keeps.entVs {p i uid : Nat} {f : VState → VState} (h : Keeps a s) : Keeps a (entVs s p i uid f) := by
  unfold Machine.entVs
  split
  exacts [.ite h.entPut h, h]

theorem Keeps.vdPut {p : Nat} {v : Vd} (h : Keeps a s) : Keeps a (vdPut s p v) := h.upd

theorem Keeps.qcCharge {p k len : Nat} (h : Keeps a s) : Keeps a (qcCharge s p k len) := h.vdPut

theorem Keeps.flowCharge {p k : Nat} {up : Bool} {frames bytes : Nat} (h : Keeps a s) : Keeps a (flowCharge s p k up frames bytes) := h.vdPut

theorem Keeps.slotPut {p i : Nat} {v : Option LSlot} (h : Keeps a s) : Keeps a (slotPut s p i v) := h.vdPut

theorem Keeps.slotSettle {p i : Nat} (h : Keeps a s) : Keeps a (slotSettle s p i) := by
  unfold Machine.slotSettle
  split
  exacts [.ite h.slotPut h, h]

theorem Keeps.slotResolve {p i : Nat} (h : Keeps a s) : Keeps a (slotResolve s p i) := by
  unfold Machine.slotResolve
  split
  exacts [h, h.slotPut.entVs.slotSettle]

theorem Keeps.slotStood {p i : Nat} (h : Keeps a s) : Keeps a (slotStood s p i) := by
  unfold Machine.slotStood
  split
  exacts [.ite h.slotResolve.bump h, h]

theorem Keeps.slotLeft {p i : Nat} (h : Keeps a s) : Keeps a (slotLeft s p i) := by
  unfold Machine.slotLeft
  split
  exacts [h.slotPut.slotSettle, h]


/-! ### PeerOps -/

theorem Keeps.linkPut {l : Nat} {v : PLink} (h : Keeps a s) : Keeps a (linkPut s l v) := h.upd

theorem Keeps.peerPut {d : Nat} {v : Peer} (h : Keeps a s) : Keeps a (peerPut s d v) := h.upd

theorem Keeps.sendFlit {l : Nat} {m : Msg} {i : Nat} (h : Keeps a s) : Keeps a (sendFlit s l m i) := h.linkPut.bumpDiv.cinc

theorem Keeps.linkPump {l n : Nat} (h : Keeps a s) : Keeps a (linkPump l n s) := by
  induction n generalizing s with
  | zero => exact h
  | succ n ih =>
    unfold Machine.linkPump
    extract_lets
    split
    exacts [h, ih h.sendFlit]

theorem Keeps.linkDrain {l : Nat} (h : Keeps a s) : Keeps a (linkDrain s l) := h.linkPump

theorem Keeps.linkQueue {l : Nat} {m : Msg} (h : Keeps a s) : Keeps a (linkQueue s l m) := h.linkPut.linkDrain

theorem Keeps.idleSlot {l : Nat} (h : Keeps a s) : Keeps a (idleSlot s l) := .ite h h.linkPut

theorem Keeps.replayAll {l : Nat} (h : Keeps a s) : Keeps a (replayAll s l) := by
  unfold Machine.replayAll
  extract_lets
  split
  exacts [h, h.linkPut.bumpDiv.cinc]

theorem Keeps.plSend {kind dst dpart : Nat} {b : Bytes} (h : Keeps a s) : Keeps a (plSend s kind dst dpart b).2 := by
  unfold Machine.plSend
  extract_lets
  split
  exacts [h.upd.bump, h.upd.linkQueue]

theorem Keeps.fwdPut {p i : Nat} {v : Option Fwd} (h : Keeps a s) : Keeps a (fwdPut s p i v) := h.upd


/-! ### Traffic -/

theorem Keeps.polPut {p i : Nat} {v : Policer} (h : Keeps a s) : Keeps a (polPut s p i v) := h.tmPut

theorem Keeps.qPut {p q : Nat} {v : TmQueue} (h : Keeps a s) : Keeps a (qPut s p q v) := h.tmPut

theorem Keeps.gPut {p g : Nat} {v : TmGroup} (h : Keeps a s) : Keeps a (gPut s p g v) := h.tmPut

theorem Keeps.aqmActs {p k d : Nat} (h : Keeps a s) : Keeps a (aqmActs s p k d).2 := by
  unfold Machine.aqmActs
  extract_lets
  split
  · exact h
  · split
    · exact h
    · split
      exacts [h, h.tmPut]

theorem Keeps.tmDropped {p : Nat} (h : Keeps a s) : Keeps a (tmDropped s p) := h.cinc

theorem Keeps.queueDrop {p q : Nat} (h : Keeps a s) : Keeps a (queueDrop s p q) := h.qPut.tmDropped

theorem Keeps.admitAt {n m q : Nat} {e : QEnt} {ecn : Nat} (h : Keeps a s) : Keeps a (admitAt s n m q e ecn).2 := by
  unfold Machine.admitAt
  extract_lets
  split
  · exact h.bump.queueDrop
  · split
    · exact h.bump.queueDrop
    · split
      · rename_i _ t e
        have h1 : Keeps a t := Keeps.snd e h.aqmActs
        extract_lets
        split
        exacts [h1.bump.queueDrop, (Keeps.ite h1.bump.cinc h1).qPut.cinc]

theorem Keeps.egressEdit {n : Nat} {e : QEnt} {b : Bytes} (h : Keeps a s) : Keeps a (egressEdit s n e b).2 := by
  unfold Machine.egressEdit
  extract_lets
  split
  · exact (Keeps.ite h.bump h).bump
  · split <;> exact .ite h.bump h

theorem Keeps.settleDc {n m q : Nat} (h : Keeps a s) : Keeps a (settleDc s n m q) := .ite h (.ite h.qPut h.qPut.gPut)

theorem Keeps.txStrike {p q : Nat} {hit : TxHit} (h : Keeps a s) : Keeps a (txStrike s p q hit) := by
  unfold Machine.txStrike
  split
  exacts [h.strike, h.strike, h]

theorem Keeps.linkFault {p q : Nat} (h : Keeps a s) : Keeps a (linkFault s p q) := by
  unfold Machine.linkFault
  split
  · extract_lets _ s1 _
    have h1 : Keeps a s1 := by
      unfold s1
      refine h.foldl fun _ _ h2 => ?_
      extract_lets s3
      have h3 : Keeps a s3 := by
        unfold s3
        split
        exacts [h2.slotLeft, h2]
      split
      exacts [.ite h3.tmPut.upd h3.tmPut.framePut, h3]
    exact h1.qPut.tierMiss
  · exact h

theorem Keeps.stampsRead (h : Keeps a s) : Keeps a (stampsRead s) := .ite h h.upd

theorem Keeps.txStamp {n h' : Nat} (h : Keeps a s) : Keeps a (txStamp s n h') := by
  unfold Machine.txStamp
  split
  exacts [.ite h.upd h, h]

theorem Keeps.dequeueHead {n m q : Nat} {hit : TxHit} (h : Keeps a s) : Keeps a (dequeueHead s n m q hit) := by
  unfold Machine.dequeueHead
  extract_lets
  split
  · exact h.txStrike.linkFault
  · rename_i x rest _
    extract_lets _ _ _ _ _ _ _ s1 s2 b s3
    have h1 : Keeps a s1 := h.txStrike.linkFault.qPut.gPut.settleDc.qcCharge
    have h2 : Keeps a s2 := by
      unfold s2
      split
      exacts [h1.slotLeft, h1]
    have h3 : Keeps a (Machine.egressEdit s3 n x b).2 := h2.txStamp.egressEdit
    clear_value s3
    split
    rename_i s4 e
    have h4 : Keeps a s4 := h3.snd e
    split
    rename_i s5 e
    have h5 : Keeps a s5 := by
      refine Keeps.snd e ?_
      split
      exacts [h4.bump.tierMiss, h4]
    exact h5.tmPut.bump.cinc

theorem Keeps.schedPrio {n m pri : Nat} {hit : TxHit} {fuel : Nat} (h : Keeps a s) : Keeps a (schedPrio n m pri hit fuel s).1 := by
  induction fuel generalizing s with
  | zero => exact h
  | succ fuel ih =>
    unfold Machine.schedPrio
    extract_lets
    split
    · exact h
    · extract_lets
      split
      · exact h.gPut
      · extract_lets
        split
        exacts [h.gPut.qPut.dequeueHead, ih (.ite (Keeps.ite h.gPut.qPut.qPut.gPut h.gPut.qPut).gPut.tmPut (.ite h.gPut.qPut.qPut.gPut h.gPut.qPut))]

theorem Keeps.schedule {n m : Nat} {hit : TxHit} (h : Keeps a s) : Keeps a (schedule s n m hit) := by
  unfold Machine.schedule
  refine Keeps.foldlOn Prod.fst h fun _ _ h1 => ?_
  split
  exacts [h1, h1.schedPrio]

theorem Keeps.dequeueEnd {n m : Nat} (h : Keeps a s) : Keeps a (dequeueEnd s n m) := by
  unfold Machine.dequeueEnd
  extract_lets
  split
  · exact h
  · extract_lets
    split
    exacts [h.tmPut.cinc.cinc.frameUnref, h.tmPut.cinc.cinc]

theorem Keeps.subFlush {n m : Nat} (h : Keeps a s) : Keeps a (subFlush s n m) := by
  unfold Machine.subFlush
  extract_lets
  split
  · extract_lets
    refine h.foldl fun _ _ h1 => ?_
    extract_lets _ s2
    have h2 : Keeps a s2 := by
      unfold s2
      refine h1.foldl fun _ _ h3 => ?_
      extract_lets _ s4
      have h4 : Keeps a s4 := by
        unfold s4
        split
        exacts [h3.bump.tmDropped.slotLeft, h3.bump.tmDropped]
      exact h4.frameUnref
    exact h2.qPut.settleDc

theorem Keeps.pauseSet {n m pri time : Nat} (h : Keeps a s) : Keeps a (pauseSet s n m pri time) := h.tmPut

theorem Keeps.pauseExpire {n m pri : Nat} (h : Keeps a s) : Keeps a (pauseExpire s n m pri) := .ite h.tmPut h

theorem Keeps.pfcRelay {n m : Nat} {b : Bytes} (h : Keeps a s) : Keeps a (pfcRelay s n m b) := .ite h.tmPut.bump h

theorem Keeps.sringPut {p : Nat} {r : Bytes} (h : Keeps a s) : Keeps a (sringPut s p r) := .ite h.bump h.memW.rgw

theorem Keeps.sampleSweep {p : Nat} {late : Bool} (h : Keeps a s) : Keeps a (sampleSweep s p late) :=
  .ite h ((Keeps.ite h.bump h).tmPut.sringPut.foldl fun _ _ h => h.sringPut)

theorem Keeps.tmRegRead {p o : Nat} (h : Keeps a s) : KeepsSome a Prod.snd (tmRegRead s p o) := by
  unfold Machine.tmRegRead
  extract_lets
  split
  · split
    exacts [.snd h, .snd h, .snd h, .snd h, .snd h, .snd h, .snd h, .snd h, .snd h, .snd h.qPut,
      .snd h, .snd h, .snd h, .snd h, .snd h, .snd h, .snd h, .snd h, .snd h, .none]

theorem Keeps.policerWrite {p i word v : Nat} (h : Keeps a s) : Keeps a (policerWrite s p i word v) := h.polPut

theorem Keeps.shaperWrite {p : Nat} {group : Bool} {i word v : Nat} (h : Keeps a s) : Keeps a (shaperWrite s p group i word v) := .ite h.gPut h.qPut

theorem Keeps.aqmSeedWrite {p v : Nat} (h : Keeps a s) : Keeps a (aqmSeedWrite s p v) := h.rgw.tmPut

theorem Keeps.tmRegWrite {p o v : Nat} (h : Keeps a s) : KeepsSome a id (tmRegWrite s p o v) := by
  unfold Machine.tmRegWrite
  extract_lets
  split
  exacts [.some h.aqmSeedWrite, .some h.qPut, .some h.qPut, .some h.shaperWrite, .some h.shaperWrite, .some h.gPut,
    .some h.shaperWrite, .some h.shaperWrite, .some h.policerWrite, .some h.policerWrite,
    .some h.policerWrite, .some h.policerWrite, .none]

theorem Keeps.cellPoolReclaim {p : Nat} (h : Keeps a s) : Keeps a (cellPoolReclaim s p) := h.tmPut.cellsFree


/-! ### Verdict -/

theorem Keeps.ctxPut {c : Nat} {v : Machine.Ctx} (h : Keeps a s) : Keeps a (ctxPut s c v) := h.upd

theorem Keeps.sampPut {p c : Nat} {v : Samp} (h : Keeps a s) : Keeps a (sampPut s p c v) := h.vdPut

theorem Keeps.demand {p c : Nat} (h : Keeps a s) : Keeps a (demand s p c) := h.sampPut

theorem Keeps.sampleWindowEnd {p : Nat} (h : Keeps a s) : Keeps a (sampleWindowEnd s p) := h.foldl fun _ _ h => h.sampPut

theorem Keeps.reclass {p i b : Nat} {final : Bool} {x : Verdict} (h : Keeps a s) : Keeps a (reclass s p i b final x) := by
  unfold Machine.reclass
  split
  · exact h
  · extract_lets _ _ s1 s2 s3 _ _ _ _ _
    have h1 : Keeps a s1 := .ite (Keeps.ite h.flowCharge h).flowCharge (.ite h.flowCharge h)
    have h2 : Keeps a s2 := by
      unfold s2
      split
      exacts [h1.polPut, h1]
    have h3 : Keeps a s3 := by
      unfold s3
      split
      exacts [h2.polPut, h2]
    exact (Keeps.ite h3.slotPut.stage h3.slotPut).bump.cinc

theorem Keeps.slotJoin {p entry uid : Nat} {x : Verdict} (h : Keeps a s) : Keeps a (slotJoin s p entry uid x).2.2 := by
  unfold Machine.slotJoin
  split
  · exact h
  · split
    · exact h
    · split
      · split
        exacts [h, h.reclass]
      · split
        · exact h.bump
        · dsimp only
          exact h.slotPut.entVs

theorem Keeps.slotTally {p i n len mb : Nat} {queued : Bool} (h : Keeps a s) : Keeps a (slotTally s p i n len mb queued) := by
  unfold Machine.slotTally
  split
  exacts [h.slotPut, h]

theorem Keeps.capWrite {base size n : Nat} {b : Bytes} {off : Nat} (h : Keeps a s) : Keeps a (capWrite s base size n b off).1 := by
  induction n generalizing s b off with
  | zero => exact h
  | succ n ih => exact ih h.memW

theorem Keeps.captureCopy {p : Nat} {f : Frame} {x : Verdict} {d entry len : Nat} (h : Keeps a s) : Keeps a (captureCopy s p f x d entry len) :=
  .ite h.upd.bump (h.upd.capWrite.foldl fun _ _ h => h.rgw)

theorem Keeps.mirrorCopy {p h' : Nat} {f : Frame} {x : Verdict} {d entry : Nat} (h : Keeps a s) : Keeps a (mirrorCopy s p h' f x d entry) :=
  .ite h (.ite h (.ite h.captureCopy (.ite h.frameRef.admitAt h.frameRef.admitAt.frameUnref)))

theorem Keeps.admission {p h' : Nat} {f : Frame} {x : Verdict} {d : Nat} {slot : Option Nat} {entry : Nat} (h : Keeps a s) :
    Keeps a (admission s p h' f x d slot entry).2.2 := by
  unfold Machine.admission
  extract_lets
  split
  · exact h.bump.tmDropped.frameUnref
  · split
    · rename_i _ _ _ t e
      have h1 : Keeps a t := Keeps.fth e <| by
        split
        exacts [h.polPut, h]
      split
      · exact h1.bump.tmDropped.frameUnref
      · extract_lets
        split
        exacts [(Keeps.ite h1.bump h1).frameUnref, .ite (Keeps.ite h1.bump h1).admitAt (Keeps.ite h1.bump h1).admitAt.frameUnref]

theorem Keeps.applyFrame {h' : Nat} {x : Verdict} {dcls : Nat} {slot : Option Nat} {entry : Nat} (h : Keeps a s) :
    Keeps a (applyFrame s h' x dcls slot entry) := by
  unfold Machine.applyFrame
  split
  · exact h
  · extract_lets _ _ _ _ _ s1 _
    have h1 : Keeps a s1 := (Keeps.ite h.framePut.bump h.framePut).mirrorCopy
    split
    · rename_i _ _ t e
      have h2 : Keeps a t := Keeps.thd e (Keeps.ite h1.flowCharge h1).admission
      split
      exacts [h2.slotTally, h2]

theorem Keeps.formVerdict {p : Nat} {flow : Option (Nat × Nat)} {entry : Nat} {x : Verdict} {dcls : Nat} {frame : Option Nat} (h : Keeps a s) :
    Keeps a (formVerdict s p flow entry x dcls frame) := by
  unfold Machine.formVerdict
  extract_lets _ _ s1 slot _
  have h1 : Keeps a s1 := by
    unfold s1
    split
    exacts [h.entVs, h]
  split
  · rename_i _ t e
    have h2 : Keeps a t := by
      refine Keeps.snd e ?_
      clear_value slot
      split
      · exact h1
      · extract_lets
        split
        · exact (Keeps.ite h1.reclass h1.bump).slotResolve
        · split
          exacts [h1.reclass, h1]
    split
    · rename_i _ _ t e
      have h3 : Keeps a t := Keeps.thd e <| by
        split
        · split
          exacts [h2.slotJoin, h2]
        · exact h2
      extract_lets _ _ _ _ _ s4 _ s5
      have h4 : Keeps a s4 := .ite (Keeps.ite h3.stage h3).bump.cinc.bump.cinc (Keeps.ite h3.stage h3).bump.cinc
      have h5 : Keeps a s5 := .ite (Keeps.ite h4.bump h4).bump (.ite h4.bump h4)
      split
      exacts [h5.applyFrame, h5]

theorem Keeps.proceedFlow {h' entry uid dcls ctx : Nat} {smp : Bool} (h : Keeps a s) : Keeps a (proceedFlow s h' entry uid dcls ctx smp) := by
  unfold Machine.proceedFlow
  split
  · exact h
  · extract_lets
    split
    exacts [h.entVs.applyFrame, .ite h.entVs.slotJoin.applyFrame h.entVs.applyFrame]

theorem Keeps.proceedDefault {h' dcls : Nat} (h : Keeps a s) : Keeps a (proceedDefault s h' dcls) := by
  unfold Machine.proceedDefault
  split
  exacts [h, h.applyFrame]

theorem Keeps.jPut {p i : Nat} {v : Option JSlot} (h : Keeps a s) : Keeps a (jPut s p i v) := h.upd

theorem Keeps.jNew {p i : Nat} {v : JSlot} (h : Keeps a s) : Keeps a (jNew s p i v) := h.jPut.generalW

theorem Keeps.sendRsp {peer : Nat × Nat × Nat × Nat} {rec : Bytes} {gen ply status ctx : Nat} (h : Keeps a s) :
    Keeps a (sendRsp s peer rec gen ply status ctx) := h.plSend

theorem Keeps.vdTake {p : Nat} {refusal : Bool} (h : Keeps a s) : Keeps a (vdTake s p refusal) := by
  unfold Machine.vdTake
  extract_lets
  split
  · exact h
  · refine .ite ?_ ?_
    · exact h
    · extract_lets
      split
      · exact h.vdPut
      · extract_lets
        split
        exacts [.ite h.vdPut.jPut.sendRsp h.vdPut.jPut.sendRsp, h.vdPut.jPut.formVerdict]

theorem Keeps.vdPush {p : Nat} {i : VdIn} (h : Keeps a s) : Keeps a (vdPush s p i) := h.vdPut

theorem Keeps.refuse {p slot ctx : Nat} (h : Keeps a s) : Keeps a (refuse s p slot ctx) := h.vdPush

theorem Keeps.latencyExpiry {h' : Nat} (h : Keeps a s) : Keeps a (latencyExpiry s h') := by
  unfold Machine.latencyExpiry
  split
  · exact h
  · split
    · exact h
    · extract_lets
      refine .ite ?_ ?_
      · exact h
      · split
        · rename_i _ _ _ t e
          have h1 : Keeps a t := Keeps.fth e <| by
            split
            · split
              exacts [h.fwdPut, h]
            · split
              exacts [h.jPut, h]
          exact h1.formVerdict

theorem Keeps.ledgerHold {p i : Nat} (h : Keeps a s) : Keeps a (ledgerHold s p i) := by
  unfold Machine.ledgerHold
  split
  exacts [h, .ite h.slotStood h]

theorem Keeps.vdRegRead {p o : Nat} (h : Keeps a s) : KeepsSome a Prod.snd (vdRegRead s p o) := by
  unfold Machine.vdRegRead
  extract_lets
  split
  exacts [.snd h, .snd h, .snd h, .snd h, .snd h, .snd h, .snd h, .snd h.rgw, .none]

theorem Keeps.actWrite {p k i v : Nat} (h : Keeps a s) : Keeps a (actWrite s p k i v) := h.vdPut

theorem Keeps.vdCntWrite {p part v : Nat} (h : Keeps a s) : Keeps a (vdCntWrite s p part v) := .ite h.vdPut h.vdPut

theorem Keeps.vdRegWrite {p o v : Nat} (h : Keeps a s) : KeepsSome a Prod.fst (vdRegWrite s p o v) := by
  unfold Machine.vdRegWrite
  extract_lets
  split
  exacts [.fst h.actWrite, .fst h.actWrite, .fst h.actWrite, .fst h.actWrite, .fst h.vdCntWrite, .fst h.vdCntWrite, .fst h.vdCntWrite, .none]


/-! ### Requests -/

theorem Keeps.tilePut {l : Nat} {v : Tile} (h : Keeps a s) : Keeps a (tilePut s l v) := h.upd

theorem Keeps.holdFrame {h' : Nat} {w : Hold} (h : Keeps a s) : Keeps a (holdFrame s h' w) := by
  unfold Machine.holdFrame
  split
  exacts [h.framePut, h]

theorem Keeps.refuseFired {r : Fired} {dcls ctx : Nat} {smp : Bool} (h : Keeps a s) : Keeps a (refuseFired s r dcls ctx smp) := h.formVerdict

theorem Keeps.enqueueReq {p slot ctx : Nat} (h : Keeps a s) : Keeps a (enqueueReq s p slot ctx) := .ite h.bump.cinc.refuse h.tilePut

theorem Keeps.sendLocal {r : Fired} {ctx : Nat} {smp : Bool} (h : Keeps a s) : Keeps a (sendLocal s r ctx smp) := by
  unfold Machine.sendLocal
  split
  · exact h.bump.refuseFired
  · extract_lets _ _ _ s1
    have h1 : Keeps a s1 := by
      unfold s1
      split
      exacts [h.jNew.cinc.holdFrame, h.jNew.cinc]
    exact h1.enqueueReq

theorem Keeps.sendForward {r : Fired} {ctx dev dpart : Nat} {smp : Bool} (h : Keeps a s) : Keeps a (sendForward s r ctx dev dpart smp) := by
  unfold Machine.sendForward
  split
  · exact h.bump.refuseFired
  · extract_lets
    split
    · rename_i _ t e
      have h1 : Keeps a t := Keeps.snd e h.fwdPut.plSend
      extract_lets _ s2
      have h2 : Keeps a s2 := by
        unfold s2
        split
        exacts [.ite h1.bump.cinc.cinc.demand h1.bump.cinc.cinc, h1.bump.cinc.cinc]
      split
      exacts [h2.holdFrame, h2]

theorem Keeps.sendHead {q p h' cls dev dpart ctx fired : Nat} {trig : Option (Nat × Nat × Option Nat × Bool)} (h : Keeps a s) :
    Keeps a (sendHead s q p h' cls dev dpart ctx fired trig) := by
  unfold Machine.sendHead
  split
  · exact h
  · extract_lets
    split
    · exact .ite h.bump h.plSend.bump
    · split
      · exact (Keeps.ite h.bump.bump h.bump.plSend.bump).formVerdict
      · extract_lets
        split
        · rename_i _ t e
          have h1 : Keeps a t := Keeps.snd e h.fwdPut.plSend
          extract_lets _ s2
          have h2 : Keeps a s2 := by
            unfold s2
            split
            exacts [.ite h1.bump.cinc.demand h1.bump.cinc, h1.bump.cinc]
          exact h2.holdFrame

theorem Keeps.fire {r : Fired} (h : Keeps a s) : Keeps a (fire s r) := by
  unfold Machine.fire
  extract_lets
  split
  · exact h.cinc.bump.refuseFired
  · extract_lets _ _ _ fwd
    refine .ite ?_ ?_
    · extract_lets
      split
      · exact h.cinc.sampPut.bump.cinc
      · extract_lets s1
        have h1 : Keeps a s1 := by
          unfold s1
          clear_value fwd
          split
          exacts [.ite h.cinc.sampPut.bump.cinc.sendHead h.cinc.sampPut.bump.cinc, h.cinc.sampPut.bump.cinc]
        exact h1.proceedFlow
    · clear_value fwd
      split
      · exact h.cinc.sampPut.sendLocal
      · refine .ite ?_ ?_
        · exact h.cinc.sampPut.sendForward
        · split
          exacts [h.cinc.sampPut.sendHead, h.cinc.sampPut]


/-! ### Granary -/

theorem Keeps.grnRecord {p : Nat} {ep : Bool} {event detail index : Nat} {static pinned : Bool} {key8 : Bytes} (h : Keeps a s) :
    Keeps a (grnRecord s p ep event detail index static pinned key8) := h.stage

theorem Keeps.entStood {p : Nat} {e : GEnt} (h : Keeps a s) : Keeps a (entStood s p e) := by
  unfold Machine.entStood
  split
  exacts [h.slotStood, h]

theorem Keeps.fsPut {p i : Nat} {b : Bytes} (h : Keeps a s) : Keeps a (fsPut s p i b) := h.generalW

theorem Keeps.entRemove {p : Nat} {ep : Bool} {i : Nat} {e : GEnt} (h : Keeps a s) : Keeps a (entRemove s p ep i e) := (Keeps.ite h h.entStood).entPut

theorem Keeps.entEof {q p i : Nat} {e : GEnt} (h : Keeps a s) : Keeps a (entEof s q p i e) := by
  unfold Machine.entEof
  split
  · refine .ite ?_ ?_
    · split
      exacts [h.tierMiss, h.fire]
    · exact h

theorem Keeps.asRead {e : GEnt} (h : Keeps a s) : Keeps a (asRead s e).2.2.2 := by
  unfold Machine.asRead
  split
  · rename_i _ _ t e
    have h1 : Keeps a t := Keeps.thd e <| by
      split
      exacts [h.upd, h]
    split
    · rename_i _ t e
      have h2 : Keeps a t := Keeps.snd e <| by
        split
        exacts [h1.upd, h1]
      exact h2

theorem Keeps.parityKill {p : Nat} {ep : Bool} {i : Nat} (h : Keeps a s) : Keeps a (parityKill s p ep i) := by
  unfold Machine.parityKill
  split
  exacts [h, h.asRead.entRemove.bump.grnRecord.faultInstant]

theorem Keeps.parityStrike {p : Nat} {ep : Bool} {i words : Nat} (h : Keeps a s) : Keeps a (parityStrike s p ep i words) := by
  unfold Machine.parityStrike
  split
  exacts [h.entPut, h]

theorem Keeps.parityCheck {p : Nat} {ep : Bool} {par : List ParHit} {reads : List Nat} (h : Keeps a s) : Keeps a (parityCheck s p ep par reads) := by
  unfold Machine.parityCheck
  extract_lets s1
  have h1 : Keeps a s1 := h.foldl fun _ _ h => .ite h.parityStrike h
  refine h1.foldl fun _ _ h2 => ?_
  split
  exacts [.ite h2.parityKill h2, h2]

theorem Keeps.probeWays {p : Nat} {ep : Bool} {key : Bytes} {par : List ParHit} (h : Keeps a s) : Keeps a (probeWays s p ep key par).2 := by
  unfold Machine.probeWays
  extract_lets
  split
  exacts [h.parityCheck, h.parityCheck.parityCheck]

theorem Keeps.lookup {q p : Nat} {ep : Bool} {key : Bytes} {par : List ParHit} (h : Keeps a s) : Keeps a (lookup s q p ep key par).2 := by
  unfold Machine.lookup
  split
  · rename_i t e
    have h1 : Keeps a t := Keeps.snd e h.probeWays
    exact h1
  · rename_i _ t e
    have h2 : Keeps a t := Keeps.snd e h.probeWays
    split
    · exact h2
    · split
      exacts [(Keeps.ite h2 h2.entEof).entRemove.bump, h2]

theorem Keeps.evict {q p : Nat} {ep : Bool} {key : Bytes} (h : Keeps a s) : Keeps a (evict s q p ep key).2 := by
  unfold Machine.evict
  split
  · exact h
  · split
    · rename_i _ t e
      have h1 : Keeps a t := Keeps.snd e <| by
        split
        exacts [h, h.sharePut]
      split
      exacts [h1, (Keeps.ite h1 h1.entEof).entRemove.bump.cinc]

theorem Keeps.slotForInsert {q p : Nat} {ep : Bool} {key : Bytes} (h : Keeps a s) : Keeps a (slotForInsert s q p ep key).2 := by
  unfold Machine.slotForInsert
  split
  exacts [h, h.evict]

theorem Keeps.putEntry {p : Nat} {ep : Bool} {i : Nat} {e : GEnt} (h : Keeps a s) : Keeps a (putEntry s p ep i e) :=
  .ite h.upd.entPut h.upd.entPut.fsPut

theorem Keeps.insertMiss {q p : Nat} {ep : Bool} {key : Bytes} {cls port gt : Nat} (h : Keeps a s) :
    Keeps a (insertMiss s q p ep key cls port gt).2 := by
  unfold Machine.insertMiss
  extract_lets
  split
  · exact h.bump.cinc
  · split
    · rename_i _ t e
      have h1 : Keeps a t := Keeps.snd e h.slotForInsert
      exact h1.sharePut.putEntry.cinc
    · rename_i t e
      have h2 : Keeps a t := Keeps.snd e h.slotForInsert
      exact h2.bump.grnRecord

theorem Keeps.learnPort {p : Nat} {ep : Bool} {i port : Nat} (h : Keeps a s) : Keeps a (learnPort s p ep i port).2 := by
  unfold Machine.learnPort
  split
  · exact h
  · split
    · exact h
    · extract_lets
      split
      · exact h.entPut.sharePut.bump
      · split
        exacts [h.bump.sharePut.grnRecord, h.bump]

theorem Keeps.learn {q p : Nat} {ep : Bool} {key : Bytes} {cls port gt : Nat} {par : List ParHit} (h : Keeps a s) :
    Keeps a (learn s q p ep key cls port gt par).2 := by
  unfold Machine.learn
  split
  · rename_i _ t e
    have h1 : Keeps a t := Keeps.snd e h.lookup
    split
    · rename_i _ t e
      have h2 : Keeps a t := Keeps.snd e h1.learnPort
      extract_lets s3
      have h3 : Keeps a s3 := by
        unfold s3
        split
        exacts [h2.entPut, h2]
      exact h3
  · rename_i t e
    have h4 : Keeps a t := Keeps.snd e h.lookup
    exact h4.insertMiss

theorem Keeps.passPut {p : Nat} {ep : Bool} {v : Option (Nat × Tab Nat)} (h : Keeps a s) : Keeps a (passPut s p ep v) := h.sharePut

theorem Keeps.scanStart {p : Nat} {ep : Bool} (h : Keeps a s) : Keeps a (scanStart s p ep) := by
  unfold Machine.scanStart
  refine .ite ?_ ?_
  · exact h
  · split
    exacts [h.passPut, .ite h.passPut h]

theorem Keeps.ageEntry {q p : Nat} {ep : Bool} {way i : Nat} (h : Keeps a s) : Keeps a (ageEntry s q p ep way i) := by
  unfold Machine.ageEntry
  split
  exacts [h, .ite (Keeps.ite h h.entEof).entRemove.bump.cinc (.ite h.entPut h)]

theorem Keeps.ageBucket {p : Nat} {ep : Bool} {way n : Nat} {par : List ParHit} (h : Keeps a s) : Keeps a (ageBucket s p ep way n par) := by
  unfold Machine.ageBucket
  refine .ite ?_ ?_
  · exact h
  · split
    exacts [h, .ite h (h.passPut.parityCheck.foldl fun _ _ h => .ite h h.ageEntry)]

theorem Keeps.tableClear {p : Nat} {ep statics : Bool} (h : Keeps a s) : Keeps a (tableClear s p ep statics) := by
  unfold Machine.tableClear
  extract_lets
  refine h.foldl fun _ _ h1 => ?_
  split
  exacts [.ite h1 h1.entRemove, h1]

theorem Keeps.staleClear {p : Nat} (h : Keeps a s) : Keeps a (staleClear s p) := h.tableClear.tableClear.sharePut.grnRecord

theorem Keeps.grnEnable {p : Nat} {ep : Bool} (h : Keeps a s) : Keeps a (grnEnable s p ep) := h.tableClear.sharePut.passPut

theorem Keeps.grnCfgWrite {p : Nat} {ep : Bool} {v : Nat} (h : Keeps a s) : Keeps a (grnCfgWrite s p ep v) := .ite h.rgw (.ite h.rgw.grnEnable h.rgw)

theorem Keeps.evictSeedWrite {p v : Nat} (h : Keeps a s) : Keeps a (evictSeedWrite s p v) := h.rgw.sharePut

theorem Keeps.grnStatus {p result index : Nat} (h : Keeps a s) : Keeps a (grnStatus s p result index) := h.rgw

theorem Keeps.hostFind {p : Nat} {ep : Bool} {key : Bytes} {par : List ParHit} (h : Keeps a s) : Keeps a (hostFind s p ep key par).2 := h.parityCheck

theorem Keeps.grnCommand {p op : Nat} {ep : Bool} {ksize : Nat} {statics : Bool} {par : List ParHit} (h : Keeps a s) :
    Keeps a (grnCommand s p op ep ksize statics par) := by
  unfold Machine.grnCommand
  refine .ite ?_ ?_
  · exact h.grnStatus
  · refine .ite ?_ ?_
    · exact h.grnStatus
    · extract_lets
      refine .ite ?_ ?_
      · exact h.tableClear.grnStatus
      · split
        · rename_i _ t e
          have h1 : Keeps a t := Keeps.snd e h.hostFind
          split
          · exact h1.grnStatus
          · split
            exacts [h1.entPut.grnStatus, h1.entRemove.grnStatus, (h1.foldl fun _ _ h => h.rgw).grnStatus, h1.entPut.grnStatus, h1.entPut.grnStatus]
        · rename_i t e
          have h2 : Keeps a t := Keeps.snd e h.hostFind
          refine .ite ?_ ?_
          · split
            · rename_i _ t e
              have h3 : Keeps a t := Keeps.snd e h2.slotForInsert
              exact h3.putEntry.grnStatus
            · rename_i t e
              have h4 : Keeps a t := Keeps.snd e h2.slotForInsert
              exact h4.grnStatus
          · exact h2.grnStatus

theorem Keeps.grnRegWrite {p o v : Nat} (h : Keeps a s) : KeepsSome a Prod.fst (grnRegWrite s p o v) := by
  unfold Machine.grnRegWrite
  split
  · exact .fst h.grnCfgWrite
  · split
    · exact .fst h.evictSeedWrite
    · split
      · exact .fst h
      · split
        · exact .fst h
        · split
          · exact .fst h
          · split
            · exact .fst h.rgw.sharePut
            · split
              · exact .fst h.rgw.sharePut
              · split
                exacts [.fst h.grnCommand, .none]


/-! ### Intake -/

theorem Keeps.macBad {n k : Nat} (h : Keeps a s) : Keeps a (macBad s n k) := by
  unfold Machine.macBad
  split
  exacts [h.bump.cinc, h.bump, h.bump.cinc]

theorem Keeps.macGood {n len : Nat} (h : Keeps a s) : Keeps a (macGood s n len) := h.bump.cinc.cinc

theorem Keeps.pfcReceive {n m : Nat} {b : Bytes} {fecBad : Bool} (h : Keeps a s) : Keeps a (pfcReceive s n m b fecBad) := by
  unfold Machine.pfcReceive
  split
  exacts [h.macBad, (h.foldl fun _ _ h => .ite (.ite h.bump.cinc.pauseSet h.bump.cinc) h).pfcRelay]

theorem Keeps.bypassFrame {q h' : Nat} {f : Frame} (h : Keeps a s) : Keeps a (bypassFrame s q h' f) :=
  .ite h.bump.cinc.frameUnref (.ite h.framePut h.bump.cinc.proceedDefault)

theorem Keeps.pipeArrive {h' : Nat} {f : Frame} (h : Keeps a s) : Keeps a (pipeArrive s h' f) := .ite h.pipePut.bypassFrame h.pipePut.pipePut

theorem Keeps.cellsWrite {p : Nat} {l : List Nat} {b : Bytes} (h : Keeps a s) : Keeps a (cellsWrite p l b s) := by
  induction l generalizing s b with
  | nil => exact h
  | cons c r ih => exact ih h.generalW.generalW

theorem Keeps.frameStore {p : Nat} {f : Frame} (h : Keeps a s) : Keeps a (frameStore s p f).2.2 := by
  unfold Machine.frameStore
  split
  · rename_i _ t e
    have h1 : Keeps a t := Keeps.snd e h.cellsTake
    extract_lets _ _ _ _ _ slot s2 _ _
    have h2 : Keeps a s2 := by
      unfold s2
      clear_value slot
      split
      exacts [h1.cellsWrite.pipePut.pipePut, h1.cellsWrite.pipePut]
    exact h2.generalW.framePut

theorem Keeps.frameArrive {n m : Nat} {b : Bytes} {fecBad ptp : Bool} (h : Keeps a s) : Keeps a (frameArrive s n m b fecBad ptp) := by
  unfold Machine.frameArrive
  extract_lets
  refine .ite ?_ ?_
  · exact h.bump.cinc
  · extract_lets
    split
    exacts [h.macBad, (Keeps.ite h.subPut h.subPut.macGood).frameStore.pipeArrive]

theorem Keeps.macReceive {n m : Nat} {b : Bytes} {fecBad ptp : Bool} (h : Keeps a s) : Keeps a (macReceive s n m b fecBad ptp) :=
  .ite h (.ite h.arrivalNote.pfcReceive (.ite h.arrivalNote h.arrivalNote.frameArrive))

theorem Keeps.parseCount {q : Nat} {w : Walk} (h : Keeps a s) : Keeps a (parseCount s q w) := (Keeps.ite h h.bump).bumpN

theorem Keeps.epCommit {q : Nat} {f : Frame} {x : Parsed} {par : List ParHit} (h : Keeps a s) : Keeps a (epCommit s q f x par).2 := by
  unfold Machine.epCommit
  split
  · exact h
  · split
    rename_i e
    exact Keeps.snd e h.learn

theorem Keeps.peerRefuse {peer : Nat × Nat × Nat × Nat} {c : Option Nat} (h : Keeps a s) : Keeps a (peerRefuse s peer c) := by
  unfold Machine.peerRefuse
  split <;> exact h.sendRsp

theorem Keeps.sendPeer {q p cls entry : Nat} {uid : Option Nat} {trig : Nat} {tok : Bool} {load : Bytes} {gt : Nat} {peer : Nat × Nat × Nat × Nat}
    (h : Keeps a s) : Keeps a (sendPeer s q p cls entry uid trig tok load gt peer) := by
  unfold Machine.sendPeer
  split
  · exact h.bump.peerRefuse
  · split
    exacts [h.bump.peerRefuse, h.jNew.cinc.enqueueReq]

theorem Keeps.noEntry {q h' : Nat} {f : Frame} {cls : Nat} (h : Keeps a s) : Keeps a (noEntry s q h' f cls) :=
  .ite (Keeps.ite h h.peerRefuse).frameUnref h.proceedDefault

theorem Keeps.markSet {p port seq : Nat} (h : Keeps a s) : Keeps a (markSet s p port seq) := h.sharePut

theorem Keeps.committedFrame {q h' : Nat} {f : Frame} {x : Parsed} (h : Keeps a s) : Keeps a (committedFrame s q h' f x) := by
  unfold Machine.committedFrame
  refine .ite ?_ ?_
  · exact .ite h.frameUnref h.noEntry
  · split
    · rename_i t e
      have h1 : Keeps a t := Keeps.snd e h.probeWays
      exact h1.noEntry
    · rename_i _ t e
      have h2 : Keeps a t := Keeps.snd e h.probeWays
      exact h2.framePut.proceedFlow

theorem Keeps.commitFrame {q h' : Nat} {f : Frame} {x : Parsed} {par : List ParHit} (h : Keeps a s) : Keeps a (commitFrame s q h' f x par) := by
  unfold Machine.commitFrame
  extract_lets
  split
  extract_lets +onlyGivenNames f
  clear_value f
  extract_lets +onlyGivenNames s1
  have h1 : Keeps a s1 := h.parseCount.cinc.framePut
  clear_value s1
  refine .ite h1.committedFrame ?_
  split
  rename_i s2 e
  have h2 : Keeps a s2 := h1.epCommit.snd e
  extract_lets +onlyGivenNames s3
  have h3 : Keeps a s3 := h2.markSet
  clear_value s3
  refine .ite h3.noEntry ?_
  split
  rename_i s4 e
  have h4 : Keeps a s4 := h3.learn.snd e
  split
  · exact h4.noEntry
  split
  · extract_lets s5
    have h5 : Keeps a s5 := by
      unfold s5
      split
      exacts [h4.entRemove, h4]
    exact h5.tierMiss.noEntry
  extract_lets +onlyGivenNames uid s5
  have h5 : Keeps a s5 := h4.framePut
  clear_value s5
  split
  extract_lets +onlyGivenNames k old
  clear_value k old
  split
  extract_lets +onlyGivenNames s6
  have h6 : Keeps a s6 := h5.fsPut.bumpN
  clear_value s6
  refine .ite (Keeps.ite h6 h6.sendPeer).frameUnref (.ite ?_ h6.fire)
  split
  extract_lets s7
  have h7 : Keeps a s7 := by
    unfold s7
    split
    exacts [.ite h6.sendHead h6, h6]
  exact h7.proceedFlow

theorem Keeps.underTables {f : Frame} (h : Keeps a s) : Keeps a (underTables s f) := by
  unfold Machine.underTables
  split
  exacts [h.upd, h]

theorem Keeps.earlyProbe {f : Frame} {x : Parsed} {par : List ParHit} (h : Keeps a s) : Keeps a (earlyProbe s f x par) := by
  unfold Machine.earlyProbe
  extract_lets s1
  have h1 : Keeps a s1 := by
    unfold s1
    split
    exacts [h.probeWays, h]
  exact .ite h1.probeWays h1

theorem Keeps.headFetch {q : Nat} {f : Frame} (h : Keeps a s) : Keeps a (headFetch s q f).2 := by
  unfold Machine.headFetch
  split
  exacts [h, h.bump]

theorem Keeps.pipeTake {q : Nat} {par : List ParHit} (h : Keeps a s) : Keeps a (pipeTake s q par) := by
  unfold Machine.pipeTake
  extract_lets
  split
  · exact h
  · split
    · exact h.pipePut
    · extract_lets
      refine .ite ?_ ?_
      · exact h
      · split
        · rename_i _ t e
          have h1 : Keeps a t := Keeps.snd e h.pipePut.headFetch
          exact h1.tierMiss.bypassFrame
        · rename_i t e
          have h2 : Keeps a t := Keeps.snd e h.pipePut.headFetch
          exact .ite h2.framePut.earlyProbe h2.commitFrame

theorem Keeps.endStatus {h' : Nat} (h : Keeps a s) : Keeps a (endStatus s h') := by
  unfold Machine.endStatus
  split
  · exact h
  · refine .ite ?_ ?_
    · exact h
    · split
      · exact h.pipePut.frameUnref.macBad
      · extract_lets
        split
        exacts [h.macGood.bump.cinc.framePut.proceedDefault, h.macGood.underTables.commitFrame.upd, h.macGood.framePut]

theorem Keeps.commitApart {p port seq : Nat} (h : Keeps a s) : Keeps a (commitApart s p port seq) := by
  unfold Machine.commitApart
  split
  exacts [h.framePut, h]

theorem Keeps.bankCommit {p : Nat} {key : Bytes} {ep : Option Bytes} {cls port gt seq : Nat} {st : Bytes} {par : List ParHit} (h : Keeps a s) :
    Keeps a (bankCommit s p key ep cls port gt seq st par) := by
  unfold Machine.bankCommit
  refine .ite ?_ ?_
  · exact h
  · extract_lets _ s1 s2
    have h1 : Keeps a s1 := by
      unfold s1
      split
      exacts [.ite h.learn h, h]
    have h2 : Keeps a s2 := by
      unfold s2
      refine .ite ?_ ?_
      · split
        · rename_i _ t e
          have h3 : Keeps a t := Keeps.snd e h1.learn
          split
          exacts [h3.fsPut, h3]
      · exact h1
    exact h2.markSet.commitApart

theorem Keeps.subDown {n m : Nat} (h : Keeps a s) : Keeps a (subDown s n m) := h.rgwb.rgwb.subPut.subFlush.cinc

theorem Keeps.laneFail {n m : Nat} (h : Keeps a s) : Keeps a (laneFail s n m) := .ite h (Keeps.ite h.subDown h.subPut.rgwb).faultInstant

theorem Keeps.fpLinkUp {n m : Nat} (h : Keeps a s) : Keeps a (fpLinkUp s n m) := .ite h h.subPut.rgwb.rgwb


/-! ### Contexts -/

theorem Keeps.mslotPut {c k : Nat} {v : ModelSlot} (h : Keeps a s) : Keeps a (mslotPut s c k v) := h.upd

theorem Keeps.modelRecord {rq event status tag c slot gen detail : Nat} {digest : Bytes} (h : Keeps a s) :
    Keeps a (modelRecord s rq event status tag c slot gen detail digest) := h.stage

theorem Keeps.sessionClose {i rq tag : Nat} (h : Keeps a s) : Keeps a (sessionClose s i rq tag) := by
  unfold Machine.sessionClose
  split
  exacts [h, h.upd.modelRecord]

theorem Keeps.waitFail {i status detail : Nat} (h : Keeps a s) : Keeps a (waitFail s i status detail) := by
  unfold Machine.waitFail
  split
  · exact h
  · split
    exacts [h, (Keeps.ite h.upd.mslotPut h.upd).modelRecord.mboxDone]

theorem Keeps.sessionFail {i status detail : Nat} (h : Keeps a s) : Keeps a (sessionFail s i status detail) := by
  unfold Machine.sessionFail
  split
  · exact h
  · split
    exacts [h, h.waitFail.sessionClose]

theorem Keeps.spCount {l : Nat} {v : SlotImg} {sp a' n : Nat} (h : Keeps a s) : Keeps a (spCount s l v sp a' n) := h.foldl fun _ _ h => h.lpCount

theorem Keeps.spW {l : Nat} {v : SlotImg} {sp a' : Nat} {b : Bytes} (h : Keeps a s) : Keeps a (spW s l v sp a' b) := by
  unfold Machine.spW
  refine Keeps.foldlOn Prod.fst h fun _ _ h1 => ?_
  exact h1.memW

theorem Keeps.knotPut {l : Nat} {v : SlotImg} {o x : Nat} (h : Keeps a s) : Keeps a (knotPut s l v o x) := h.upd

theorem Keeps.knotsInit {l : Nat} {v : SlotImg} (h : Keeps a s) : Keeps a (knotsInit s l v) := h.foldl fun _ _ h => h.knotPut

theorem Keeps.refuseBufs {c : Nat} {bufs : Tab (Option RBuf)} (h : Keeps a s) : Keeps a (refuseBufs s c bufs) :=
  h.foldl fun _ _ h => h.bump.cinc.refuse

theorem Keeps.passLeave {c : Nat} (h : Keeps a s) : Keeps a (passLeave s c) := .ite h.tilePut.tilePut h.tilePut

theorem Keeps.slotsDown {c : Nat} (h : Keeps a s) : Keeps a (slotsDown s c) :=
  (h.foldl fun _ _ h => h.sessionFail).foldl fun _ _ h => .ite h.mslotPut (.ite h.refuseBufs.mslotPut h)

theorem Keeps.teardown {c : Nat} (h : Keeps a s) : Keeps a (teardown s c) := h.refuseBufs.slotsDown.passLeave.ctxPut

theorem Keeps.ctxFault {c unit : Nat} {f : CtxFlt} (h : Keeps a s) : Keeps a (ctxFault s c unit f) := by
  unfold Machine.ctxFault
  extract_lets
  split
  exacts [h.bump.cinc.teardown.ctxPut, .ite h h.ctxPut, h]

theorem Keeps.ctxRestart {c : Nat} {retake : Bool} (h : Keeps a s) : Keeps a (ctxRestart s c retake) := .ite h h.passLeave.knotsInit.ctxPut

theorem Keeps.bufWrite {l : Nat} {v : SlotImg} {i ply : Nat} {j : JSlot} (h : Keeps a s) : Keeps a (bufWrite s l v i ply j) := h.spW

theorem Keeps.waitDone {c : Nat} (h : Keeps a s) : Keeps a (waitDone s c) := h.upd.foldl fun _ _ h => .ite h h.faultEnd

theorem Keeps.applyActions {p : Nat} {l : List (Nat × List Nat)} (h : Keeps a s) : Keeps a (applyActions s p l) := h.foldl fun _ _ h => h.vdPut

theorem Keeps.commitSlot {c k : Nat} (h : Keeps a s) : Keeps a (commitSlot s c k) :=
  ((h.upd.when fun h => h.mslotPut).mslotPut.knotsInit.ctxPut.when fun h => h.applyActions).epochAdvance.modelRecord

theorem Keeps.restartEnd {c : Nat} (h : Keeps a s) : Keeps a (restartEnd s c) := by
  unfold Machine.restartEnd
  extract_lets +onlyGivenNames x l
  split
  · exact h
  · refine .ite h ?_
    extract_lets s1 s2 _ s3
    have h1 : Keeps a s1 := h.foldl fun _ _ h => h.memW
    have h2 : Keeps a s2 := by
      unfold s2
      split
      · refine h1.foldl fun _ _ h => ?_
        split
        · split
          exacts [h.bufWrite.faultRedisp, h]
        · exact h
      · exact h1
    have h3 : Keeps a s3 := h2.ctxPut.waitDone
    clear_value s3
    split
    exacts [.ite h3.commitSlot h3, h3]

theorem Keeps.ctxRelease {c : Nat} (h : Keeps a s) : Keeps a (ctxRelease s c) := by
  unfold Machine.ctxRelease
  extract_lets
  split
  exacts [(Keeps.ite h h.stage).ctxPut.waitDone.commitSlot, (Keeps.ite h h.stage).ctxPut.waitDone]

theorem Keeps.quiesceEnd {c : Nat} (h : Keeps a s) : Keeps a (quiesceEnd s c) := .ite h (.ite h.ctxRelease (.ite h.restartEnd h))

theorem Keeps.purge {c : Nat} (h : Keeps a s) : Keeps a (purge s c) := h.tilePut.bumpN

theorem Keeps.quiesceTimeout {c : Nat} (h : Keeps a s) : Keeps a (quiesceTimeout s c) := .ite h.purge.quiesceEnd h


/-! ### Operands -/

theorem Keeps.waitsTake {l : Nat} {v : SlotImg} {w : List Nat} (h : Keeps a s) : Keeps a (waitsTake s l v w) := by
  unfold Machine.waitsTake
  refine h.foldl fun _ _ h1 => ?_
  split
  exacts [.ite h1.knotPut h1, h1]


/-! ### Flags -/

theorem Keeps.pwrPut {p : Nat} {v : PwrPart} (h : Keeps a s) : Keeps a (pwrPut s p v) := h.upd

theorem Keeps.charge {p c : Nat} (h : Keeps a s) : Keeps a (charge s p c) := h.pwrPut.cinc

theorem Keeps.sbPut {l i : Nat} {v : Option SbEnt} (h : Keeps a s) : Keeps a (sbPut s l i v) := h.tilePut

theorem Keeps.shfAssign {l : Nat} (h : Keeps a s) : Keeps a (shfAssign s l) := by
  unfold Machine.shfAssign
  extract_lets
  refine Keeps.foldlOn Prod.fst h fun _ _ h1 => ?_
  split
  · exact h1
  · split
    exacts [h1.sbPut, h1]

theorem Keeps.shfBump {l mask : Nat} {reg f : Nat → Nat} (h : Keeps a s) : Keeps a (shfBump s l mask reg f) :=
  .ite (.ite h h.bumpN) (Keeps.ite h h.bumpN).bumpN


/-! ### TierImage -/

theorem Keeps.slotWrite {p : Nat} {ep : Bool} {i : Nat} {b : Bytes} (h : Keeps a s) : Keeps a (slotWrite s p ep i b) := h.upd.entPut

theorem Keeps.tierStrike {a' : Nat} (h : Keeps a s) : Keeps a (tierStrike s a') := by
  unfold Machine.tierStrike
  extract_lets
  split
  exacts [h.parityStrike, h.strike]


/-! ### Issue -/

theorem Keeps.admitRefuse {l p slot c : Nat} (h : Keeps a s) : Keeps a (admitRefuse s l p slot c) := h.bump.cinc.refuse

theorem Keeps.journalRead {p i : Nat} {ue : Bool} (h : Keeps a s) : Keeps a (journalRead s p i ue).2 := .ite h.strike h

/-- A choice on a journal slot that may be empty. -/
theorem Keeps.matchJSlot {o : Option JSlot} {f : JSlot → State} (h : Keeps a s) (hf : ∀ j, Keeps a (f j)) :
    Keeps a (match o with | none => s | some j => f j) := by
  cases o with
  | none => exact h
  | some j => exact hf j

theorem Keeps.requestAdmit {l : Nat} {ue : Bool} (h : Keeps a s) : Keeps a (requestAdmit s l ue) := by
  unfold Machine.requestAdmit
  extract_lets +onlyGivenNames t
  split
  · exact h
  rename_i r _ _
  extract_lets +onlyGivenNames s1
  have h1 : Keeps a s1 := h.tilePut
  have h2 : Keeps a (Machine.journalRead s1 r.part r.slot ue).2 := h1.journalRead
  clear_value s1
  generalize Machine.journalRead s1 r.part r.slot ue = read at h2 ⊢
  refine .matchJSlot h1 fun j => ?_
  extract_lets +onlyGivenNames c x
  split
  · exact h2.tierMiss.admitRefuse
  rename_i s2
  have h2 : Keeps a s2 := h2
  split
  extract_lets +onlyGivenNames i
  refine .ite h2.admitRefuse.ctxFault (.ite h2.admitRefuse ?_)
  extract_lets +onlyGivenNames s3 s4 b y s5
  have h4 : Keeps a s4 := h2.jPut.upd.bufWrite
  clear_value s4
  have h5 : Keeps a s5 := by
    unfold s5
    split
    exacts [h4.mslotPut, h4.ctxPut]
  exact (Keeps.ite h5.demand h5).cinc

theorem Keeps.signal {l c unit : Nat} {v : SlotImg} {sig : Option (Nat × Nat)} (h : Keeps a s) : Keeps a (signal s l c unit v sig) := by
  unfold Machine.signal
  split
  exacts [h, .ite h.knotPut.ctxFault h.knotPut]

theorem Keeps.opTake {c : Nat} (h : Keeps a s) : Keeps a (opTake s c) := h.ctxPut

theorem Keeps.opPost {l c : Nat} {w : List Nat} (h : Keeps a s) : Keeps a (opPost s l c w).1 := by
  unfold Machine.opPost
  extract_lets +onlyGivenNames x at_
  split
  · exact h
  · split
    · exact h
    · extract_lets s1 _
      have h1 : Keeps a s1 := by
        unfold s1
        refine h.foldl fun _ _ h2 => ?_
        split
        exacts [h2, h2.vdPush.cinc]
      exact h1.ctxPut

theorem Keeps.dispOp {l c : Nat} {w : List Nat} (h : Keeps a s) : Keeps a (dispOp s l c w).1 := by
  unfold Machine.dispOp
  split
  exacts [h.opTake, h.opPost, h.knotPut, h]

theorem Keeps.engFault {l c e unit : Nat} {f : CtxFlt} (h : Keeps a s) : Keeps a (engFault s l c e unit f) :=
  (Keeps.ite h (.ite h.tierMiss h.faultUe)).ctxFault

theorem Keeps.traceCmd {on : Bool} {l c e : Nat} {isEnd retried dropped : Bool} {index quarters ply : Nat} (h : Keeps a s) :
    Keeps a (traceCmd s on l c e isEnd retried dropped index quarters ply) := .ite h.traceRec h

theorem Keeps.cmdStopped {l c i : Nat} (h : Keeps a s) : Keeps a (cmdStopped s l c i) := by
  unfold Machine.cmdStopped
  split
  exacts [h, h.sbPut.traceCmd]

theorem Keeps.enqueueCmd {l c i : Nat} {x : Machine.Ctx} {w : List Nat} {hits : List EngHit} (h : Keeps a s) :
    Keeps a (enqueueCmd s l c i x w hits) := (Keeps.ite h.upd.sbPut.shfAssign h.upd.sbPut).traceCmd

theorem Keeps.issueTaken {l c : Nat} {x : Machine.Ctx} {w : List Nat} (h : Keeps a s) : Keeps a (issueTaken s l c x w) :=
  h.waitsTake.charge.ctxPut.tilePut.bump.cinc.scopeStart

theorem Keeps.hitsStrike {hits : List EngHit} (h : Keeps a s) : Keeps a (hitsStrike s hits) := by
  unfold Machine.hitsStrike
  refine h.foldl fun _ _ h1 => ?_
  split
  exacts [h1.tierStrike, h1.bankCe, .ite h1.sramCorrected h1, h1]

theorem Keeps.mismatchNote {key : Nat} (h : Keeps a s) : Keeps a (mismatchNote s key).2 := h.upd

theorem Keeps.siteTell {t : Nat} {cube : Option Nat} {lanes : Nat} (h : Keeps a s) : Keeps a (siteTell s t cube lanes) := h.upd

theorem Keeps.tileCheck {l engine : Nat} (h : Keeps a s) : Keeps a (tileCheck s l engine) := h.lifeSite.faultInstant

theorem Keeps.dupCheck {l engine : Nat} (h : Keeps a s) : Keeps a (dupCheck s l engine) :=
  .ite h.tileCheck.mismatchNote.siteTell h.tileCheck.mismatchNote

theorem Keeps.dupMismatch {l engine : Nat} {hits : List EngHit} (h : Keeps a s) : Keeps a (dupMismatch s l engine hits).2 := by
  unfold Machine.dupMismatch
  refine Keeps.foldlOn Prod.snd h fun _ _ h1 => ?_
  split
  · split
    exacts [h1.dupCheck.dupCheck, h1.dupCheck]
  · exact h1

theorem Keeps.issueCmd {l c : Nat} {w : List Nat} {hits : List EngHit} (h : Keeps a s) : Keeps a (issueCmd s l c w hits) := by
  unfold Machine.issueCmd
  extract_lets
  split
  · exact h.ctxFault
  · refine .ite ?_ ?_
    · split
      · rename_i t e
        have h1 : Keeps a t := Keeps.snd e h.hitsStrike.dupMismatch
        exact h1
      · rename_i t e
        have h2 : Keeps a t := Keeps.snd e h.hitsStrike.dupMismatch
        split
        · rename_i t _ e
          have h3 : Keeps a t := Keeps.fst e h2.issueTaken.traceCmd.dispOp
          exact h3.engFault
        · rename_i t e
          have h4 : Keeps a t := Keeps.fst e h2.issueTaken.traceCmd.dispOp
          exact h4.signal
    · extract_lets
      refine .ite ?_ ?_
      · exact h.issueTaken.traceCmd.traceCmd.signal
      · split
        exacts [h.issueTaken, h.issueTaken.enqueueCmd]

theorem Keeps.issueRow {e op l : Nat} {hits : List EngHit} (h : Keeps a s) : Keeps a (issueRow e op l hits s) := by
  unfold Machine.issueRow
  extract_lets bad
  clear_value bad
  split
  · split
    exacts [h.engFault, h]
  · split
    exacts [.ite h.issueCmd h, h]

theorem Keeps.commandComplete {l i : Nat} (h : Keeps a s) : Keeps a (commandComplete s l i) := by
  unfold Machine.commandComplete
  split
  exacts [h, .ite h ((h.sbPut.fork id fun h => .ite h.shfBump (h.when fun h => h.bump)).traceCmd.fork (fun h => h.bump.cinc) fun h => h.signal)]

theorem Keeps.ctxResult {c r : Nat} (h : Keeps a s) : Keeps a (ctxResult s c r) := h.ctxPut

theorem Keeps.ctxCommand {op c : Nat} (h : Keeps a s) : Keeps a (ctxCommand s op c) := by
  unfold Machine.ctxCommand
  extract_lets
  refine .ite ?_ ?_
  · exact h.ctxResult
  · split
    exacts [.ite h.teardown.ctxResult h.ctxResult, .ite h.ctxFault.ctxResult h.ctxResult, .ite h.ctxResult (.ite h.ctxResult h.rgw.ctxResult),
      .ite h.ctxResult (.ite h.ctxResult h.knotPut.ctxResult), h.ctxResult]

theorem Keeps.tilRegWrite {t o v : Nat} (h : Keeps a s) : KeepsSome a id (tilRegWrite s t o v) := by
  unfold Machine.tilRegWrite
  extract_lets
  split
  · exact .some h
  · split
    · refine .some ?_
      split
      exacts [h.ctxCommand, h]
    · refine .some ?_
      split
      exacts [h.ctxPut, h]
    · refine .some ?_
      split
      exacts [h.ctxPut, h]
    · refine .some ?_
      split
      exacts [h.ctxPut, h]
    · exact .none


/-! ### Access -/

theorem Keeps.wrChk {l : Nat} {v : SlotImg} {sp a' : Nat} {b : Bytes} (h : Keeps a s) : Keeps a (wrChk s l v sp a' b).1 := by
  unfold Machine.wrChk
  split
  · exact h
  · split
    exacts [h, h.spW]

theorem Keeps.wrAll {l : Nat} {v : SlotImg} {sp : Nat} {ws : List (Nat × Bytes)} (h : Keeps a s) : Keeps a (wrAll l v sp ws s).1 := by
  induction ws generalizing s with
  | nil => exact h
  | cons e r ih =>
    unfold Machine.wrAll
    split
    · rename_i e
      exact ih (.fst e h.wrChk)
    · exact h.wrChk

theorem Keeps.iterate {n : Nat} {f : State → Nat → State × Option CtxFlt} (h : Keeps a s) (hf : ∀ t j, Keeps a t → Keeps a (f t j).1) :
    Keeps a (iterate n f s).1 := by
  refine Keeps.foldlOn Prod.fst h fun x j hx => ?_
  split
  exacts [hx, hf _ _ hx]


/-! ### Sheaf -/

theorem Keeps.shfFail {l q cube : Nat} (h : Keeps a s) : Keeps a (shfFail s l q cube) := h.rgwb.siteTell

theorem Keeps.shfMismatch {l q cube : Nat} (h : Keeps a s) : Keeps a (shfMismatch s l q cube) :=
  .ite h.tileCheck.bump.mismatchNote.shfFail h.tileCheck.bump.mismatchNote

theorem Keeps.mmHit {l slot : Nat} {x : Mm} {q cube : Nat} {recurs again : Bool} (h : Keeps a s) :
    Keeps a (mmHit s l slot x q cube recurs again).1 := by
  unfold Machine.mmHit
  extract_lets +onlyGivenNames s1
  have h1 : Keeps a s1 := h.shfMismatch
  clear_value s1
  split
  · exact h1
  · split
    · exact h1.shfFail
    · extract_lets s2 s3
      have h3 : Keeps a s3 := by
        unfold s3
        split
        exacts [h1.bump.sbPut, h1.bump]
      clear_value s3
      split
      exacts [h3.shfMismatch.shfFail, h3]

theorem Keeps.mmStep {l slot : Nat} {v : SlotImg} {x : Mm} {hits : List EngHit} {r : MmRun} {t : Nat × Nat} (h : Keeps a r.s) :
    Keeps a (mmStep l slot v x hits r t).s := by
  unfold Machine.mmStep
  split
  · exact h
  · split
    · exact h
    · split
      · exact h
      · extract_lets
        split
        · split
          · rename_i t _ e
            have h1 : Keeps a t := Keeps.fst e h.mmHit
            exact h1
          · rename_i t e
            have h2 : Keeps a t := Keeps.fst e h.mmHit
            exact h2.wrAll
        · exact h.wrAll

theorem Keeps.runMatmul {l slot : Nat} {job : Job} (h : Keeps a s) : Keeps a (runMatmul s l slot job).1 := by
  unfold Machine.runMatmul
  extract_lets _ go
  have hgo : ∀ x j, Keeps a x.1.s → Keeps a (go x j).1.s := by
    intro x j hx
    unfold go
    split
    · exact hx
    · split
      · exact hx
      · exact Keeps.foldlOn MmRun.s hx fun _ _ h => h.mmStep
  split
  rename_i r _ e
  have h1 : Keeps a r.s := by
    rw [show r = (r, _).1 from rfl, ← e]
    exact Keeps.foldlOn (fun x : MmRun × Nat => x.1.s) h hgo
  extract_lets _ s2
  have h2 : Keeps a s2 := .ite (Keeps.ite h1 h1.bumpDiv) (Keeps.ite h1 h1.bumpDiv).bumpDiv
  exact .ite h2.shfBump h2


/-! ### Vector -/

theorem Keeps.vxPut {l : Nat} {v : SlotImg} {o : Opd} {c fmt r : Nat} {e : List Nat} (h : Keeps a s) : Keeps a (vxPut s l v o c fmt r e).1 := h.wrChk

theorem Keeps.vxRows {n : Nat} {f : State → Nat → Except CtxFlt (List Nat)} {put : State → Nat → List Nat → State × Option CtxFlt} (h : Keeps a s)
    (hf : ∀ t r e, Keeps a t → Keeps a (put t r e).1) : Keeps a (vxRows n f put s).1 := by
  refine h.iterate fun _ _ ht => ?_
  split
  exacts [ht, hf _ _ _ ht]

theorem Keeps.quantBlock {l : Nat} {v : SlotImg} {src dst sc : Opd} {sf mode start rows cols b : Nat} (h : Keeps a s) :
    Keeps a (quantBlock l v src dst sc sf mode start rows cols s b).1 := by
  unfold Machine.quantBlock
  extract_lets
  split
  · exact h
  · extract_lets
    split
    · rename_i t _ e
      have h1 : Keeps a t := Keeps.fst e (h.foldl fun _ _ h => .ite h h.cinc).wrChk
      exact h1
    · rename_i t e
      have h2 : Keeps a t := Keeps.fst e (h.foldl fun _ _ h => .ite h h.cinc).wrChk
      split
      · rename_i t _ e
        have h3 : Keeps a t := Keeps.fst e h2.wrAll
        exact h3
      · rename_i t e
        have h4 : Keeps a t := Keeps.fst e h2.wrAll
        exact h4.wrChk

theorem Keeps.dequantBlock {l : Nat} {v : SlotImg} {data sc dst : Opd} {fmt df rows cols : Nat} {x : Machine.State × Option CtxFlt × Option Nat} {b : Nat}
    (h : Keeps a x.1) : Keeps a (dequantBlock l v data sc dst fmt df rows cols x b).1 := by
  unfold Machine.dequantBlock
  extract_lets s _ _ r
  have h : Keeps a s := h
  clear_value s r
  split
  · assumption
  · split
    · exact h
    · exact h.iterate fun _ _ h => h.vxPut

/-- An operation on the vector engine keeps: what it does to the state are its writes, row by row. -/
theorem Keeps.vxOp {l : Nat} {x : Job} {j : Nat} (h : Keeps a s) : Keeps a (vxOp s l x j).1 := by
  unfold Machine.vxOp
  extract_lets v w o f row bad
  have hb : Keeps a bad.1 := h
  clear_value row bad
  split
  · split
    · exact hb
    · split
      exacts [h, h.vxRows fun _ _ _ h => h.vxPut]
  · exact h
  · split
    exacts [hb, h.vxRows fun _ _ _ h => h.vxPut]
  · split
    exacts [hb, h.vxRows fun _ _ _ h => h.vxPut]
  · split
    exacts [hb, h.vxRows fun _ _ _ h => h.vxPut]
  · split
    exacts [hb, h.vxRows fun _ _ _ h => h.vxPut]
  · split
    exacts [hb, h.vxRows fun _ _ _ h => h.vxPut]
  · split
    · exact hb
    · split
      exacts [h, h.vxRows fun _ _ _ h => h.vxPut]
  · split
    exacts [hb, h.iterate fun _ _ h => h.quantBlock]
  · split
    · exact hb
    · split
      · exact h
      · extract_lets
        split
        exacts [hb, Keeps.foldlOn Prod.fst h fun _ _ h => h.dequantBlock]
  · split
    · exact hb
    · refine h.iterate fun _ _ h => ?_
      split
      exacts [h, (Keeps.ite h.cinc h).vxPut]

/-- An operation of the mover keeps. -/
theorem Keeps.movOp {l : Nat} {x : Job} {j : Nat} (h : Keeps a s) : Keeps a (movOp s l x j).1 := by
  unfold Machine.movOp
  extract_lets v w o f n bad _ fmt
  have hb : Keeps a bad.1 := h
  clear_value bad
  split
  · split
    · exact hb
    · split
      exacts [h, h.spCount.wrChk]
  · split
    · exact hb
    · split
      · exact h
      · refine h.spCount.iterate fun _ _ h => ?_
        split
        exacts [h, h.spCount.wrChk]
  · split
    · exact hb
    · split
      · exact h
      · refine h.spCount.iterate fun _ _ h => ?_
        split
        exacts [h, h.spCount.wrChk]
  · split
    · exact hb
    · split
      · exact h
      · split
        · exact h
        · exact (h.foldl fun _ _ h => h.spCount).iterate fun _ _ h => h.vxPut
  · split
    exacts [hb, h.wrChk]

theorem Keeps.runVx {l k : Nat} {x : Job} (h : Keeps a s) : Keeps a (runVx s l k x).1 := by
  unfold Machine.runVx
  split
  · rename_i t e
    have h1 : Keeps a t := Keeps.snd e h.dupMismatch
    exact h1
  · rename_i t e
    have h2 : Keeps a t := Keeps.snd e h.dupMismatch
    exact h2.iterate fun _ _ h => h.vxOp

theorem Keeps.runMov {l k : Nat} {x : Job} (h : Keeps a s) : Keeps a (runMov s l k x).1 := by
  unfold Machine.runMov
  split
  · rename_i t e
    have h1 : Keeps a t := Keeps.snd e h.dupMismatch
    exact h1
  · rename_i t e
    have h2 : Keeps a t := Keeps.snd e h.dupMismatch
    exact h2.iterate fun _ _ h => h.movOp


/-! ### ScorePort -/

theorem Keeps.devW {a' : Nat} {b : Bytes} (h : Keeps a s) : Keeps a (devW s a' b).1 := by
  unfold Machine.devW
  split
  exacts [h, h.memW]

theorem Keeps.devWAll {ws : List (Nat × Bytes)} (h : Keeps a s) : Keeps a (devWAll ws s).1 := by
  induction ws generalizing s with
  | nil => exact h
  | cons e r ih =>
    unfold Machine.devWAll
    split
    · rename_i e
      exact ih (.fst e h.devW)
    · exact h.devW

theorem Keeps.spillCount {h' : Hist} (h : Keeps a s) : Keeps a (spillCount s h') := (h.foldl fun _ _ h => h.lpCount).bumpDiv

theorem Keeps.attendOp {l c : Nat} {x : Job} {j : Nat} (h : Keeps a s) : Keeps a (attendOp s l c x j).1 := by
  unfold Machine.attendOp
  extract_lets _ _ r
  clear_value r
  split
  exacts [h, h.spillCount.wrAll]

theorem Keeps.topkOp {l c : Nat} {x : Job} {j : Nat} (h : Keeps a s) : Keeps a (topkOp s l c x j).1 := by
  unfold Machine.topkOp
  extract_lets _ _ r
  clear_value r
  split
  exacts [h, h.spillCount.wrAll]

theorem Keeps.happendOp {l c : Nat} {x : Job} {j : Nat} (h : Keeps a s) : Keeps a (happendOp s l c x j).1 := by
  unfold Machine.happendOp
  extract_lets _ _ _ _ _ _ r
  clear_value r
  split
  · exact h
  · extract_lets
    split
    · rename_i t _ e
      have h1 : Keeps a t := Keeps.fst e (Keeps.ite h h.cinc).devWAll
      exact h1
    · rename_i t e
      have h2 : Keeps a t := Keeps.fst e (Keeps.ite h h.cinc).devWAll
      split
      exacts [h2, h2.devW]

theorem Keeps.gemvOp {l c : Nat} {x : Job} {j : Nat} (h : Keeps a s) : Keeps a (gemvOp s l c x j).1 := by
  unfold Machine.gemvOp
  split
  · exact h
  · extract_lets _ s1
    have h1 : Keeps a s1.1 := by
      unfold s1
      refine Keeps.foldlOn Prod.fst h fun _ _ h2 => ?_
      split
      · exact h2
      · extract_lets r
        clear_value r
        split
        exacts [h2, h2.wrAll]
    exact h1

theorem Keeps.xposeOp {l : Nat} {x : Job} {j : Nat} (h : Keeps a s) : Keeps a (xposeOp s l x j).1 := by
  unfold Machine.xposeOp
  extract_lets _ _ _ _ _ r
  clear_value r
  split
  exacts [h, h.wrAll]

theorem Keeps.runScore {c l i : Nat} {x : Job} (h : Keeps a s) : Keeps a (runScore c s l i x).1 := by
  refine (h.foldl fun _ _ h => ?_).iterate fun _ _ h => ?_
  · split
    exacts [h.bseMismatch, h]
  · split
    exacts [h.attendOp, h.topkOp, h.happendOp, h.gemvOp, h.xposeOp]


/-! ### Banks -/

theorem Keeps.bankReply {h' : BankHdr} {status : Nat} {data : Bytes} (h : Keeps a s) : Keeps a (bankReply s h' status data) := h.upd

theorem Keeps.bankMeet {n : Nat} {hit : BankHit} (h : Keeps a s) : Keeps a (bankMeet s n hit) := by
  unfold Machine.bankMeet
  split
  · exact h
  · split
    exacts [h.parityStrike, h.bankCe]
  · exact h.tierStrike
  · exact h.bseMismatch

theorem Keeps.bankFail {h' : BankHdr} {n a' : Nat} (h : Keeps a s) : Keeps a (bankFail s h' n a') :=
  .ite h.bankReply (.ite h.faultUe.bankReply h.tierMiss.bankReply)

theorem Keeps.bankRun {hd : BankHdr} {n : Nat} {hit : BankHit} {f : State → Except CtxFlt (State × Bytes)} (h : Keeps a s)
    (hf : ∀ t, Keeps a t → KeepsOk a (f t)) : Keeps a (bankRun s hd n hit f) := by
  unfold Machine.bankRun
  refine .ite h (.ite h.bankReply ?_)
  extract_lets
  refine .ite h.bankMeet.bankReply ?_
  split
  · rename_i e
    exact (hf _ h.bankMeet _ e).bankReply
  · exact .ite h.bankMeet h.bankMeet.bankFail

theorem Keeps.scoreRun {hd : BankHdr} {n : Nat} {hit : BankHit} {op : Instr} {f : State → Except CtxFlt (State × Bytes)} (h : Keeps a s)
    (hf : ∀ t, Keeps a t → KeepsOk a (f t)) : Keeps a (scoreRun s hd n hit op f) := .ite h.upd (h.bankRun hf)

theorem Keeps.bankRead {hd : BankHdr} {n opc off len : Nat} {hit : BankHit} (h : Keeps a s) : Keeps a (bankRead s hd n opc off len hit) := by
  have hrun : Keeps a (Machine.bankRun s hd n hit fun s => do
      let _ ← devR s (bankA n + 64 * off) (64 * len)
      return (s, tierR s (bankA n + 64 * off) (64 * len))) := h.bankRun fun t ht => .bind fun _ => .ok ht
  exact .ite h.bump.bankReply (.ite h (.ite hrun.bankReply hrun))

theorem Keeps.writeAll {ws : List (Nat × Bytes)} (h : Keeps a s) : KeepsOk a (writeAll s ws) := by
  unfold Machine.writeAll
  split
  · exact .error
  · rename_i e
    exact .ok (.fst e h.devWAll)

theorem Keeps.unitW {n u : Nat} {b : Bytes} (h : Keeps a s) : Keeps a (unitW s n u b) := by
  unfold Machine.unitW
  split
  exacts [h.slotWrite, h.memW]

theorem Keeps.bankWrite {hd : BankHdr} {n off : Nat} {data : Bytes} {hit : BankHit} (h : Keeps a s) : Keeps a (bankWrite s hd n off data hit) :=
  .ite h (h.bankRun fun _ ht => .ok (ht.foldl fun _ _ h => h.unitW))

theorem Keeps.bankScore {hd : BankHdr} {n x nq : Nat} {codes : Bytes} {hit : BankHit} (h : Keeps a s) : Keeps a (bankScore s hd n x nq codes hit) :=
  h.scoreRun fun _ ht => .bind fun _ => .guard fun _ => .bind fun _ => .ok ht.upd

theorem Keeps.bankValue {hd : BankHdr} {n x : Nat} {ms : List Int} {cs : List Nat} {hit : BankHit} (h : Keeps a s) :
    Keeps a (bankValue s hd n x ms cs hit) :=
  h.scoreRun fun _ ht => .bind fun _ => .bind fun _ => .ok ht

theorem Keeps.bankTopk {hd : BankHdr} {n x nq k : Nat} {codes : Bytes} {hit : BankHit} (h : Keeps a s) : Keeps a (bankTopk s hd n x nq k codes hit) :=
  h.scoreRun fun _ ht => .bind fun _ => .guard fun _ => .bind fun _ => .ok ht

theorem Keeps.bankDot {hd : BankHdr} {n x nv : Nat} {codes : Bytes} {hit : BankHit} (h : Keeps a s) : Keeps a (bankDot s hd n x nv codes hit) := by
  refine h.scoreRun fun _ ht => .bind fun _ => ?_
  split
  exact .guard fun _ => .bind fun _ => .ok ht

theorem Keeps.bankXpose {hd : BankHdr} {n off spitch dst dpitch : Nat} {two : Bool} {hit : BankHit} (h : Keeps a s) :
    Keeps a (bankXpose s hd n off spitch dst dpitch two hit) :=
  .ite h (h.scoreRun fun _ ht => .bind fun _ => ht.writeAll)

theorem Keeps.bankAppend {hd : BankHdr} {n x pos : Nat} {key val : Bytes} {hit : BankHit} (h : Keeps a s) :
    Keeps a (bankAppend s hd n x pos key val hit) :=
  h.scoreRun fun _ ht => .bind fun _ => .guard fun _ => ht.writeAll

theorem Keeps.bankOp {i : Instr} (h : Keeps a s) : Keeps a (bankOp i s) := by
  unfold Machine.bankOp
  split
  exacts [h.bankScore, h.bankValue, h.bankTopk, h.bankDot, h.bankXpose, h.bankAppend, h]

theorem Keeps.bankPump (h : Keeps a s) : Keeps a (bankPump s) := .ite h (h.upd.foldl fun _ _ h => h.bankOp)

theorem Keeps.patrolScrub {hd : BankHdr} {n unit : Nat} {hit : BankHit} (h : Keeps a s) : Keeps a (patrolScrub s hd n unit hit) :=
  .ite h (h.bankRun fun _ ht => .bind fun _ => .ok ht)

theorem Keeps.migrationCopy {h' : BankHdr} {n k : Nat} (h : Keeps a s) : Keeps a (migrationCopy s h' n k) := h.bankReply.groupPut

theorem Keeps.bankRemap {n : Nat} (h : Keeps a s) : Keeps a (bankRemap s n) := by
  unfold Machine.bankRemap
  extract_lets +onlyGivenNames g v
  clear_value v
  split
  · exact h
  · extract_lets +onlyGivenNames s1 old s2 raw s3 s4
    have h2 : Keeps a s2 := h.bump.lifeInc.bankRecord.groupPut
    clear_value s2
    have h4 : Keeps a s4 := h2.upd.repairSet.repairCommit.epochAdvance
    clear_value s4
    split
    exacts [h4.faultEnd, h4]

theorem Keeps.bankRefresh {n : Nat} (h : Keeps a s) : Keeps a (bankRefresh s n) := .ite h h.upd

theorem Keeps.groupWindow {a' : Machine.State × Bool} {e : Nat × List Nat} (h : Keeps a a'.1) : Keeps a (groupWindow a' e).1 := by
  unfold Machine.groupWindow
  split
  exacts [h, .ite (h.groupPut.cinc.foldl fun _ _ h => h.demand) h.groupPut.cinc]

theorem Keeps.activationWindow {acts : List (Nat × List Nat)} (h : Keeps a s) : Keeps a (activationWindow s acts) := by
  unfold Machine.activationWindow
  extract_lets +onlyGivenNames s1
  have h1 : Keeps a s1 := h.foldl fun _ _ h => .ite h h.groupPut
  clear_value s1
  split
  rename_i s2 w e
  have h2 : Keeps a s2 := Keeps.fst e (Keeps.foldlOn Prod.fst h1 fun _ _ h => h.groupWindow)
  extract_lets +onlyGivenNames s3
  have h3 : Keeps a s3 := h2.foldl fun _ _ h => .ite h h.groupPut
  exact .ite h3.bump h3

theorem Keeps.btRegWrite {o : Nat} (h : Keeps a s) : KeepsSome a id (btRegWrite s o) := by
  unfold Machine.btRegWrite
  split
  exacts [.some h, .none]


/-! ### Models -/

theorem Keeps.placeSects {l : Nat} {v : SlotImg} {b : Bytes} {keep : Sect → Bool} {only : Nat → Bool} (h : Keeps a s) :
    Keeps a (placeSects s l v b keep only) := by
  unfold Machine.placeSects
  refine h.foldl fun _ _ h1 => ?_
  split
  exacts [.ite h1 h1.spW, h1]

theorem Keeps.applyReloc {l : Nat} {v : SlotImg} {b : Bytes} {keep : Sect → Bool} (h : Keeps a s) : Keeps a (applyReloc s l v b keep) := by
  unfold Machine.applyReloc
  refine h.foldl fun _ _ h1 => ?_
  split
  exacts [.ite h1 h1.spW, h1]

theorem Keeps.placeDecl {c : Nat} {b : Bytes} {m : ModelSlot} {d : Placed} (h : Keeps a s) : KeepsSome a Prod.fst (placeDecl s c b m d) := by
  unfold Machine.placeDecl
  extract_lets
  split
  · exact .fst h
  · split
    · exact .fst h.spW
    · split
      · exact .none
      · split
        exact .fst h.spW

theorem Keeps.placeDecls {c : Nat} {b : Bytes} {l : List (Nat × Placed)} {m : ModelSlot} (h : Keeps a s) :
    KeepsSome a Prod.fst (placeDecls c b l s m) := by
  induction l generalizing s m with
  | nil => exact .fst h
  | cons e l ih =>
    unfold Machine.placeDecls
    split
    · rename_i e
      exact ih (h.placeDecl _ e)
    · exact .none

theorem Keeps.loadImage {c k : Nat} {b cmd : Bytes} {fetchBad : Bool} {at_ : Option Nat} (h : Keeps a s)
    (e : loadImage s c k b cmd fetchBad at_ = .ok t) : Keeps a t := by
  unfold Machine.loadImage at e
  split at e
  · cases e
  split at e
  · cases e
  extract_lets +onlyGivenNames m at e
  clear_value m
  split at e
  · cases e
  split at e
  · cases e
  split at e
  · cases e
  split at e
  · cases e
  extract_lets keep t1 t2 at e
  have h2 : Keeps a t2 := h.memW.memW.placeSects
  clear_value t2
  split at e
  · cases e
  · rename_i e3
    cases e
    exact Keeps.mslotPut (h2.applyReloc.placeDecls _ e3)

theorem Keeps.retained {m : ModelSlot} (h : Keeps a s) : KeepsSome a Prod.snd (retained s m) := by
  unfold Machine.retained
  extract_lets
  split
  · exact .snd (.ite h.lpCount.lpCount h.lpCount.lpCount.memW)
  · split
    exacts [.snd h.lpCount.lpCount.memW, .none]

theorem Keeps.refill {c k : Nat} (h : Keeps a s) : KeepsSome a id (refill s c k) := by
  unfold Machine.refill
  extract_lets
  split
  · exact .none
  · rename_i _ t e
    have h1 : Keeps a t := h.retained _ e
    exact .some h1.placeSects.applyReloc

theorem Keeps.ctxQueue {c rq : Nat} (h : Keeps a s) : Keeps a (ctxQueue s c rq) := h.foldl fun _ _ h => .ite h h.mslotPut

theorem Keeps.armSlot {c k rq tag : Nat} (h : Keeps a s) : Keeps a (armSlot s c k rq tag) :=
  .ite h.mslotPut.modelRecord.commitSlot h.mslotPut.modelRecord

theorem Keeps.modelEnd {b : Bytes} {event status c k detail : Nat} {digest : Bytes} (h : Keeps a s) :
    Keeps a (modelEnd s b event status c k detail digest) := h.modelRecord.mboxDone

theorem Keeps.modelFail {b : Bytes} {status detail : Nat} (h : Keeps a s) : Keeps a (modelFail s b status detail) := h.modelEnd

theorem Keeps.stagingRead {b : Bytes} {n : Nat} (h : Keeps a s) : Keeps a (stagingRead s b n) := h.lpCount

theorem Keeps.sourceRead {b : Bytes} (h : Keeps a s) : Keeps a (sourceRead s b) := .ite h.stagingRead h

theorem Keeps.consume {b : Bytes} (h : Keeps a s) : Keeps a (consume s b) := .ite h.sessionClose h

theorem Keeps.loadFinish {b : Bytes} {c k : Nat} {img : Bytes} {bad : Bool} (h : Keeps a s) : Keeps a (loadFinish s b c k img bad) := by
  unfold Machine.loadFinish
  split
  · exact h.mslotPut.modelEnd.consume
  · rename_i t e
    have h1 : Keeps a t := h.loadImage e
    exact .ite h1.modelEnd.consume.armSlot h1.modelEnd.consume

theorem Keeps.loadHead {i : Nat} (h : Keeps a s) : Keeps a (loadHead s i) := by
  unfold Machine.loadHead
  split
  · split
    · extract_lets
      split
      · refine .ite ?_ ?_
        · exact h
        · extract_lets
          split
          · exact h.sessionFail
          · split
            exacts [h.sessionFail, h.mslotPut]
      · exact h
    · exact h
  · exact h

theorem Keeps.runLoad {fetchBad : Bool} {b : Bytes} (h : Keeps a s) : Keeps a (runLoad fetchBad s b) := by
  unfold Machine.runLoad
  extract_lets
  refine .ite ?_ ?_
  · exact h.modelFail
  · extract_lets
    split
    · exact h.ctxQueue.modelFail
    · split
      · exact h.ctxQueue.modelFail.consume
      · exact h.ctxQueue.loadFinish.sourceRead
      · split
        exacts [h.ctxQueue.upd.mslotPut.loadHead, h.ctxQueue]

theorem Keeps.libFinish {b img : Bytes} {bad : Bool} (h : Keeps a s) : Keeps a (libFinish s b img bad) := by
  unfold Machine.libFinish
  extract_lets +onlyGivenNames i cap log used st
  clear_value st
  split
  exacts [h.modelFail.consume, h.upd.fUnitPut.flsUpdate.modelEnd.consume]

theorem Keeps.runLibstore {fetchBad : Bool} {b : Bytes} (h : Keeps a s) : Keeps a (runLibstore fetchBad s b) := by
  unfold Machine.runLibstore
  refine .ite ?_ ?_
  · exact h.modelFail
  · split
    · exact h.modelFail.consume
    · exact h.libFinish.sourceRead
    · split
      exacts [h.upd, h]

theorem Keeps.runLibdelete {b : Bytes} (h : Keeps a s) : Keeps a (runLibdelete s b) :=
  .ite h.modelFail (.ite h.modelFail h.upd.fUnitDrop.flsUpdate.modelEnd)

theorem Keeps.runArm {b : Bytes} (h : Keeps a s) : Keeps a (runArm s b) := by
  unfold Machine.runArm
  extract_lets
  refine .ite ?_ ?_
  · exact h.modelFail
  · extract_lets
    split
    exacts [h.ctxQueue.modelFail, h.ctxQueue.mslotPut.armSlot.mboxDone]

theorem Keeps.runUnload {b : Bytes} (h : Keeps a s) : Keeps a (runUnload s b) := by
  unfold Machine.runUnload
  extract_lets
  refine .ite ?_ ?_
  · exact h.modelFail
  · extract_lets
    split
    exacts [h.ctxQueue.modelFail, h.ctxQueue.mslotPut.modelEnd]

theorem Keeps.runChanOpen {b : Bytes} (h : Keeps a s) : Keeps a (runChanOpen s b) := by
  unfold Machine.runChanOpen
  extract_lets
  refine .ite ?_ ?_
  · exact h.modelFail
  · split
    exacts [h.modelFail, h.upd.upd.modelEnd]

theorem Keeps.runChanClose {b : Bytes} (h : Keeps a s) : Keeps a (runChanClose s b) := by
  unfold Machine.runChanClose
  extract_lets
  refine .ite ?_ ?_
  · exact h.modelFail
  · split
    exacts [h.modelFail, (Keeps.ite h.waitFail h).sessionClose.mboxDone]

theorem Keeps.sessionReady {i : Nat} {fetchBad : Bool} (h : Keeps a s) : Keeps a (sessionReady s i fetchBad) := by
  unfold Machine.sessionReady
  split
  · exact h
  · split
    · exact h
    · refine .ite ?_ ?_
      · exact h.loadHead
      · extract_lets
        refine .ite ?_ ?_
        · split
          exacts [h.upd.loadFinish, h.upd.modelFail.consume]
        · exact h.upd.libFinish

theorem Keeps.chunkTake {i : Nat} {p : Bytes} (h : Keeps a s) : Keeps a (chunkTake s i p) := by
  unfold Machine.chunkTake
  split
  exacts [h, (Keeps.ite h.memW h).upd.sessionReady]

theorem Keeps.chunkFrame {n m : Nat} {b : Bytes} {fecBad : Bool} (h : Keeps a s) : Keeps a (chunkFrame s n m b fecBad) := by
  unfold Machine.chunkFrame
  refine .ite ?_ ?_
  · exact h
  · split
    · exact h
    · split
      exacts [h.macBad, h.chunkTake]

theorem Keeps.channelTimeout {i : Nat} (h : Keeps a s) : Keeps a (channelTimeout s i) := by
  unfold Machine.channelTimeout
  split
  exacts [.ite h.sessionFail h, h]

theorem Keeps.slotCommit {c : Nat} (h : Keeps a s) : Keeps a (slotCommit s c) := by
  unfold Machine.slotCommit
  split
  exacts [h, .ite h.commitSlot h]

theorem Keeps.forcedCommit {c : Nat} (h : Keeps a s) : Keeps a (forcedCommit s c) := by
  unfold Machine.forcedCommit
  extract_lets
  split
  exacts [h, .ite h.mslotPut.refuseBufs.passLeave.ctxPut h]

theorem Keeps.drainEnd {c k : Nat} (h : Keeps a s) : Keeps a (drainEnd s c k) := .ite h.mslotPut.modelRecord h


/-! ### Peers -/

theorem Keeps.peerRecord {event link dev lanes : Nat} (h : Keeps a s) : Keeps a (peerRecord s event link dev lanes) := h.stage

theorem Keeps.resend {k : Nat} {m : Msg} (h : Keeps a s) : Keeps a (resend s k m) := by
  unfold Machine.resend
  extract_lets
  refine .ite ?_ ?_
  · exact .ite h.linkQueue h.bump
  · split
    exacts [h.bump, h.linkQueue]

theorem Keeps.linkFall {l : Nat} (h : Keeps a s) : Keeps a (linkFall s l) := .ite h (h.linkPut.peerRecord.foldl fun _ _ h => h.resend)

theorem Keeps.plLaneFail {l : Nat} (h : Keeps a s) : Keeps a (plLaneFail s l) :=
  .ite h (.ite h.faultInstant.linkFall h.faultInstant.linkPut.peerRecord)

theorem Keeps.retrain {l lanes : Nat} (h : Keeps a s) : Keeps a (retrain s l lanes) :=
  .ite h (.ite (.ite h h.linkPut.bump.cinc.faultInstant.peerRecord) (.ite h.linkFall (Keeps.ite h.linkPut.peerRecord h.linkPut).replayAll.linkDrain))

theorem Keeps.plLinkUp {l lanes neighbour : Nat} (h : Keeps a s) : Keeps a (plLinkUp s l lanes neighbour) :=
  .ite h (.ite h.linkPut.peerRecord h.linkPut)

theorem Keeps.flitControl {l : Nat} {f : Bytes} (h : Keeps a s) : Keeps a (flitControl s l f) :=
  (Keeps.ite h.linkPut.replayAll.bump.cinc h.linkPut).linkDrain

theorem Keeps.flitReject {l : Nat} {f : Bytes} (h : Keeps a s) : Keeps a (flitReject s l f) := .ite h.linkPut h.linkPut.bump.cinc.faultInstant

theorem Keeps.flitRx {l : Nat} {f : Bytes} (h : Keeps a s) : Keeps a (flitRx s l f).1 := by
  unfold Machine.flitRx
  extract_lets
  split
  · exact h
  · split
    · exact h.flitReject
    · split
      · exact h.flitControl
      · split
        · exact h.flitReject
        · split
          exacts [h.linkPut.bump.cinc.flitControl, h.linkPut.bumpDiv.cinc.flitControl]

theorem Keeps.relay {l : Nat} {m : Msg} (h : Keeps a s) : Keeps a (relay s l m) := by
  unfold Machine.relay
  extract_lets m out
  clear_value m out
  split
  exacts [h.bump, .ite h.bump h.bump.cinc.linkQueue]

theorem Keeps.reqIn {m : Msg} (h : Keeps a s) : Keeps a (reqIn s m) := h.sendPeer

theorem Keeps.headIn {m : Msg} (h : Keeps a s) : Keeps a (headIn s m) := .ite h.bump.cinc h.subPut.frameStore.pipeArrive

theorem Keeps.rspIn {m : Msg} (h : Keeps a s) : Keeps a (rspIn s m) := by
  unfold Machine.rspIn
  extract_lets
  split
  exacts [h.bump, .ite h.bump h.fwdPut.formVerdict]

theorem Keeps.loadIn {m : Msg} (h : Keeps a s) : Keeps a (loadIn s m) := by
  unfold Machine.loadIn
  split
  · exact h.chunkTake
  · split
    exacts [h.chunkTake, h]

theorem Keeps.msgIn {l : Nat} {m : Msg} (h : Keeps a s) : Keeps a (msgIn s l m) := by
  unfold Machine.msgIn
  refine .ite ?_ ?_
  · exact h
  · refine .ite ?_ ?_
    · exact h.relay
    · refine .ite ?_ ?_
      · exact h.bump
      · extract_lets
        split
        exacts [h.upd.reqIn, h.upd.rspIn, h.upd.headIn, h.upd.loadIn]

theorem Keeps.fplyAdvance {d : Nat} (h : Keeps a s) : Keeps a (fplyAdvance s d) := by
  unfold Machine.fplyAdvance
  refine h.foldl fun _ _ h1 => ?_
  extract_lets
  refine h1.upd.foldl fun _ _ h2 => ?_
  split
  exacts [h2.fwdPut.formVerdict, h2]

theorem Keeps.liveSend (h : Keeps a s) : Keeps a (liveSend s) := .ite h (h.upd.upd.foldl fun _ _ h => .ite h.linkQueue h)

theorem Keeps.liveIn {l : Nat} {m : Msg} (h : Keeps a s) : Keeps a (liveIn s l m) :=
  .ite h ((Keeps.ite h.peerPut (.ite (Keeps.ite h h.peerRecord).peerPut.fplyAdvance (Keeps.ite h h.peerRecord).peerPut)).foldl fun _ _ h => .ite h.linkQueue h)

theorem Keeps.peerLost {d : Nat} (h : Keeps a s) : Keeps a (peerLost s d) := .ite h.peerPut.peerRecord.fplyAdvance h

theorem Keeps.peerBack {d : Nat} (h : Keeps a s) : Keeps a (peerBack s d) := .ite h.peerPut.peerRecord.fplyAdvance h

theorem Keeps.fwdExpire {p i : Nat} (h : Keeps a s) : Keeps a (fwdExpire s p i) := by
  unfold Machine.fwdExpire
  split
  exacts [.ite h.fwdPut.bump h, h]

theorem Keeps.flitsIn {l kind : Nat} {fs : List Bytes} {take : State → Nat → Msg → State} (h : Keeps a s)
    (hf : ∀ t l m, Keeps a t → Keeps a (take t l m)) : Keeps a (flitsIn s l kind fs take) := by
  refine .ite h (h.foldl fun _ _ h => ?_)
  split
  · rename_i e
    exact hf _ _ _ (.fst e h.flitRx)
  · rename_i e
    exact .fst e h.flitRx

theorem Keeps.flitError {l : Nat} {f : Bytes} (h : Keeps a s) : Keeps a (flitError s l f) := .ite h.flitReject h

theorem Keeps.idleFlit {l : Nat} {f : Bytes} (h : Keeps a s) : Keeps a (idleFlit s l f) := .ite h.flitControl h


/-! ### WeaveOps -/

theorem Keeps.wvRecord {q event : Nat} {i : WvInfo} (h : Keeps a s) : Keeps a (wvRecord s q event i) := h.stage

theorem Keeps.wvHold {q event : Nat} {i : WvInfo} (h : Keeps a s) : Keeps a (wvHold s q event i) := by
  unfold Machine.wvHold
  extract_lets
  refine .ite ?_ ?_
  · exact h.upd
  · split <;> exact h.upd

theorem Keeps.wvLast {q event : Nat} {i : WvInfo} (h : Keeps a s) : Keeps a (wvLast s q event i) := h.upd

theorem Keeps.ringUpdate (h : Keeps a s) : Keeps a (ringUpdate s) := .ite h h.upd

theorem Keeps.digestGraceEnd (h : Keeps a s) : Keeps a (digestGraceEnd s) := .ite h.upd h


/-! ### Reset -/

theorem Keeps.stageEnter {c : Nat} (h : Keeps a s) (hc : stageLegal c = true := by decide) : Keeps a (stageEnter s c) := by
  have h1 : Keeps a (if s.boot.stage = c then s else Machine.rgwb s rHP_ISR 2 true) := .ite h h.rgwb
  exact h1.change (hs := fun _ => hc)

theorem Keeps.startRecord {type : Nat} {b : Bytes} (h : Keeps a s) : Keeps a (startRecord s type b) := h.smpEvent

theorem Keeps.startFail (h : Keeps a s) : Keeps a (startFail s) := (Keeps.ite h.updBoot.lifeInc.startRecord h.updBoot.lifeInc).upd.stageEnter

theorem Keeps.startBegin {kind : Nat} (h : Keeps a s) : Keeps a (startBegin s kind) := h.updBoot.startRecord

theorem Keeps.safeStart (h : Keeps a s) : Keeps a (safeStart s) := h.startRecord.updBoot.stageEnter

theorem Keeps.stageFive {kind : Nat} (h : Keeps a s) : Keeps a (stageFive s kind) := .ite h.safeStart h.startBegin.stageEnter

theorem Keeps.warmStart (h : Keeps a s) : Keeps a (warmStart s) := h.updBoot.stageFive

theorem Keeps.assignSites {p : Nat} (h : Keeps a s) : Keeps a (assignSites s p) :=
  (h.foldl fun _ _ h => h.sitePut.repairRegs).foldl fun _ _ h => h.tilePut

theorem Keeps.capStart {scope part cause cls : Nat} (h : Keeps a s) : Keeps a (capStart s scope part cause cls) := h.upd

theorem Keeps.capWrite_ {c : Capt} {k : Nat} (h : Keeps a s) : Keeps a (capWrite_ s c k) :=
  .ite h.upd.bump.smpEvent h.upd.bump.smpEvent.memW.bumpN.upd

theorem Keeps.clearCounters {p : Nat} (h : Keeps a s) : Keeps a (clearCounters s p) := h.change (hr := fun w => regsWf_filter _ w)

theorem Keeps.framesLost {p : Nat} (h : Keeps a s) : Keeps a (framesLost s p) := by
  unfold Machine.framesLost
  extract_lets _ _ _ _ _ s1 _
  have h1 : Keeps a s1 := by
    unfold s1
    refine h.tmPut.foldl fun _ _ h2 => ?_
    split
    exacts [h2.headDrop, h2]
  exact h1.upd

theorem Keeps.verdictsLost {p : Nat} (h : Keeps a s) : Keeps a (verdictsLost s p) := h.vdPut.sharePut.upd

theorem Keeps.foreignRefused {p : Nat} (h : Keeps a s) : Keeps a (foreignRefused s p) := h.foldl fun _ _ h => h.refuse

theorem Keeps.linksDown {p : Nat} (h : Keeps a s) : Keeps a (linksDown s p) := (h.foldl fun _ _ h => (Keeps.ite h.subDown h).subPut.upd).linkFall

theorem Keeps.slotsEmpty {c : Nat} (h : Keeps a s) : Keeps a (slotsEmpty s c) :=
  (h.foldl fun _ _ h => h.sessionFail).foldl fun _ _ h => .ite h h.mslotPut

theorem Keeps.ctxReset {c : Nat} (h : Keeps a s) : Keeps a (ctxReset s c) := by
  unfold Machine.ctxReset
  extract_lets
  split
  · split
    · rename_i t e
      have h1 : Keeps a t := h.slotsEmpty.refill _ e
      exact h1.ctxPut.knotsInit
    · exact h.slotsEmpty.ctxPut.mslotPut.modelRecord
  · exact h.slotsEmpty.ctxPut.ctxRelease
  · split
    · rename_i t e
      have h2 : Keeps a t := h.slotsEmpty.refill _ e
      exact h2.ctxPut
    · exact h.slotsEmpty
  · exact h.slotsEmpty

theorem Keeps.sitesReturn {p : Nat} (h : Keeps a s) : Keeps a (sitesReturn s p) := by
  unfold Machine.sitesReturn
  extract_lets _ _ s1
  have h1 : Keeps a s1 := (h.foldl fun _ _ h => .ite h.rgw.rgw h).assignSites
  refine h1.foldl fun _ _ h2 => ?_
  split
  exacts [.ite h2.sitePut h2, h2]

theorem Keeps.faultsEnd {cap : Nat} {pick : OutFault → Bool} (h : Keeps a s) : Keeps a (faultsEnd s cap pick) := h.foldl fun _ _ h => h.faultEnd

theorem Keeps.sramLost {p : Nat} (h : Keeps a s) : Keeps a (sramLost s p) := h.change (hm := fun w => twf_filter _ w)

theorem Keeps.partReset {p cap : Nat} (h : Keeps a s) : Keeps a (partReset s p cap) := by
  unfold Machine.partReset
  extract_lets +onlyGivenNames away s1 s2 s3 s4 _ s5 s6 _ _ _ s7 s8
  have h3 : Keeps a s3 := h.foreignRefused.linksDown.framesLost.verdictsLost.sramLost
  have h5 : Keeps a s5 := h3.clearCounters.pipePut
  have h6 : Keeps a s6 := by
    unfold s6
    clear_value away s5
    split
    exacts [.ite h5.staleClear h5, h5]
  clear_value s6
  have h8 : Keeps a s8 := h6.upd.sitesReturn
  clear_value s8
  exact (h8.foldl fun _ _ h => h.ctxReset).bump.lifeInc.faultsEnd

theorem Keeps.ctxsKept (h : Keeps a s) : Keeps a (ctxsKept s) := (h.foldl fun _ _ h => h.slotsEmpty).upd

theorem Keeps.mainClear (h : Keeps a s) : Keeps a (mainClear s) := h.change (hm := fun w => twf_filter _ w) (hr := fun w => regsWf_filter _ w)

theorem Keeps.patchCancel (h : Keeps a s) : Keeps a (patchCancel s) := by
  unfold Machine.patchCancel
  split
  exacts [h.upd.wvHold.mboxDone, h]

theorem Keeps.chipReset {cap : Nat} (h : Keeps a s) : Keeps a (chipReset s cap) :=
  h.smbLatch.ctxsKept.patchCancel.mainClear.bump.lifeInc.upd.faultsEnd.warmStart

theorem Keeps.runReset {scope p cap : Nat} (h : Keeps a s) : Keeps a (runReset s scope p cap) := .ite h.chipReset h.partReset

theorem Keeps.startReset {scope p cause cls : Nat} (h : Keeps a s) : Keeps a (startReset s scope p cause cls) :=
  .ite h (.ite (Keeps.ite (h.foldl fun _ _ h => h.capWrite_) h).capStart.upd (Keeps.ite (h.foldl fun _ _ h => h.capWrite_) h).runReset)

theorem Keeps.captureEnd {num k : Nat} (h : Keeps a s) : Keeps a (captureEnd s num k) := by
  unfold Machine.captureEnd
  split
  exacts [h, .ite h.smbLatch.capWrite_.upd.runReset h.smbLatch.capWrite_.upd]


/-! ### Faults -/

theorem Keeps.faultEscalate {f : OutFault} (h : Keeps a s) : Keeps a (faultEscalate s f) := h.upd.faultRecord.upd

theorem Keeps.partEscalate {fs : List OutFault} {p lvl cause cls : Nat} (h : Keeps a s) : Keeps a (partEscalate s fs p lvl cause cls) :=
  (h.bump.foldl fun _ _ h => h.faultEscalate).startReset

theorem Keeps.partFault {cls unit p : Nat} {dbl : Bool} (h : Keeps a s) : Keeps a (partFault s cls unit p dbl) := by
  unfold Machine.partFault
  extract_lets lvl _ s1
  have h1 : Keeps a s1 := h.faultDetect
  clear_value lvl s1
  split
  exacts [h1.partEscalate, h1.startReset]

theorem Keeps.passesClear {l : Nat} (h : Keeps a s) : Keeps a (passesClear s l) := .ite h.tilePut.tilePut h.tilePut

theorem Keeps.engineClear {l e : Nat} (h : Keeps a s) : Keeps a (engineClear s l e).1 :=
  (Keeps.ite h.tilePut.passesClear h.tilePut).foldl fun _ _ h => h.ctxRestart

theorem Keeps.awaitRestarts {cls unit : Nat} {cs : List Nat} (h : Keeps a s) : Keeps a (awaitRestarts s cls unit cs) := .ite h.faultEnd h.upd

theorem Keeps.engineReset {l e : Nat} (h : Keeps a s) : Keeps a (engineReset s l e).1 := h.engineClear.bump.lifeSite

theorem Keeps.tileStop {l : Nat} (h : Keeps a s) : Keeps a (tileStop s l) := h.tilePut.passesClear

theorem Keeps.ctxMoveIn {c : Nat} (h : Keeps a s) : Keeps a (ctxMoveIn s c) := .ite h.ctxRestart.ctxPut h.ctxRestart

theorem Keeps.restoreQueue {l : Nat} {cs : List Nat} (h : Keeps a s) : Keeps a (restoreQueue s l cs) := h.upd

theorem Keeps.ctxRename {c d : Nat} {recs : List Nat} (h : Keeps a s) : Keeps a (ctxRename s c d recs) :=
  (h.foldl fun _ _ h => .ite h.rgw h).upd.tilePut.tilePut.foldl fun _ _ h => h.memW

theorem KeepsSome.bind {β γ : Type} {π : γ → State} {x : Option β} {k : β → Option γ} (hk : ∀ v, KeepsSome a π (k v)) : KeepsSome a π (x >>= k) := by
  cases x with
  | none => exact .none
  | some v => exact hk v

theorem Keeps.ctxMove {c l : Nat} (h : Keeps a s) : KeepsSome a Prod.fst (ctxMove s c l) := by
  unfold Machine.ctxMove
  extract_lets +onlyGivenNames ks ms fits
  refine .bind fun _ => .bind fun d => .bind fun sram => .bind fun kn => ?_
  extract_lets +onlyGivenNames recs x _ s1 s2 s3
  have h1 : Keeps a s1 := h.ctxPut.ctxPut
  clear_value s1
  have h2 : Keeps a s2 := h1.foldl fun _ _ h => h.mslotPut.mslotPut
  clear_value s2
  have h3 : Keeps a s3 := h2.upd
  clear_value s3
  exact .fst h3.ctxRename

theorem Keeps.ctxsSpread {p l : Nat} (h : Keeps a s) : Keeps a (ctxsSpread s p l).1 := by
  refine Keeps.foldlOn Prod.fst h fun x c hx => ?_
  split
  · rename_i e
    obtain ⟨k, -, hk⟩ := List.exists_of_findSome?_eq_some e
    exact (hx.ctxMove _ hk).ctxMoveIn.restoreQueue
  · exact hx.ctxFault

theorem Keeps.takeoverEnd {p : Nat} (h : Keeps a s) : Keeps a (takeoverEnd s p) := .ite h.upd h

theorem Keeps.siteMarker {l k : Nat} (h : Keeps a s) : Keeps a (siteMarker s l k) := h.upd

theorem Keeps.siteTold {t : Nat} (h : Keeps a s) : Keeps a (siteTold s t).2 := h.upd

theorem Keeps.siteFail {t : Nat} {cube : Option Nat} {drops : Nat} (h : Keeps a s) : Keeps a (siteFail s t cube drops) := by
  unfold Machine.siteFail
  extract_lets +onlyGivenNames v p
  split
  rename_i s1 e
  have h1 : Keeps a s1 := h.siteTold.snd e
  extract_lets +onlyGivenNames cube
  refine .ite h1 ?_
  extract_lets +onlyGivenNames spare again fs masked action s2 cause took s3 s4 s5
  have h5 : Keeps a s5 := h1.faultDetect.lifeSite.repairSite.repairLanes.repairCommit.epochAdvance.sitePut.bumpN
  clear_value s5 spare again
  refine .ite h5.faultEnd ?_
  split
  · extract_lets +onlyGivenNames s6 _ s7 s8
    have h7 : Keeps a s7 := h5.tileStop.tilePut
    have h8 : Keeps a s8 := by
      unfold s8
      clear_value s7
      split
      exacts [h7.sitePut.siteMarker, h7.ctxsSpread]
    exact h8.partEscalate
  · extract_lets +onlyGivenNames l s6
    have h6 : Keeps a s6 := h5.tileStop.bump
    clear_value s6
    split
    · exact (h6.sitePut.siteMarker.tilePut.foldl fun _ _ h => h.ctxMoveIn).restoreQueue.awaitRestarts.takeoverEnd
    · extract_lets _ s7
      have h7 : Keeps a s7 := h6.tilePut
      split
      rename_i e
      exact (h7.ctxsSpread.fst e).awaitRestarts

theorem Keeps.sitesOut (h : Keeps a s) : Keeps a (sitesOut s) := h.foldl fun _ _ h => h.siteFail

theorem Keeps.armedRefill {c : Nat} (h : Keeps a s) : Keeps a (armedRefill s c) := by
  unfold Machine.armedRefill
  split
  · exact h
  · extract_lets
    refine h.foldl fun _ _ h1 => ?_
    split
    exacts [h1.bufWrite.faultRedisp, h1]

theorem Keeps.regionRestoreEnd {c : Nat} (h : Keeps a s) : Keeps a (regionRestoreEnd s c) := by
  unfold Machine.regionRestoreEnd
  extract_lets
  split
  · refine .ite ?_ ?_
    · exact h
    · extract_lets
      split
      · rename_i t _ e
        have h1 : Keeps a t := Keeps.fst e <| by
          refine Keeps.foldlOn Prod.fst h.upd fun _ _ h2 => ?_
          split
          · split
            · rename_i t e
              have h3 : Keeps a t := h2.refill _ e
              exact h3
            · exact h2
          · exact h2
        exact (Keeps.ite h1.ctxPut.armedRefill.ctxFault h1.ctxPut.armedRefill.restartEnd).takeoverEnd
  · exact h

theorem Keeps.engineHang {l e : Nat} (h : Keeps a s) : Keeps a (engineHang s l e) :=
  .ite h (.ite h.faultDetect.upd.faultEnd.siteFail h.faultDetect.upd.engineReset.awaitRestarts)

theorem Keeps.steerCtx {q c : Nat} (h : Keeps a s) : Keeps a (steerCtx s q c) := by
  unfold Machine.steerCtx
  extract_lets +onlyGivenNames x held
  refine .ite h ?_
  extract_lets +onlyGivenNames r0 rs s1 _ s2 s3
  have h2 : Keeps a s2 := h.ctxRestart.ctxPut
  have h3 : Keeps a s3 := by
    unfold s3
    clear_value s2
    split
    exacts [h2.mslotPut, h2]
  refine h3.foldl fun _ _ h => ?_
  split
  · exact h
  · extract_lets
    split
    exacts [h.faultRedisp.jPut.enqueueReq, h.faultRedisp.bump.refuse]

theorem Keeps.ringReplay {p q h' : Nat} (h : Keeps a s) : Keeps a (ringReplay s p q h') := by
  unfold Machine.ringReplay
  split
  · exact h
  · split
    exacts [h.tmPut.upd.tierMiss, h.framePut.pipePut]

theorem Keeps.pipeSteer {p : Nat} (h : Keeps a s) : Keeps a (pipeSteer s p) := by
  unfold Machine.pipeSteer
  extract_lets +onlyGivenNames v q
  refine .ite h ?_
  extract_lets +onlyGivenNames others again fs action s1 cause s2 own s3 w s4 s5
  have h2 : Keeps a s2 := h.faultDetect.bump.pipePut
  clear_value s2
  have h3 : Keeps a s3 := h2.foldl fun _ _ h => h.ringReplay
  clear_value s3
  have h5 : Keeps a s5 := h3.pipePut.foldl fun _ _ h => h.steerCtx
  clear_value s5 again
  split
  exacts [h5.partEscalate, h5]

theorem Keeps.pipeReplayEnd {p : Nat} (h : Keeps a s) : Keeps a (pipeReplayEnd s p) := .ite h.faultEnd h

theorem Keeps.tmHang {p : Nat} (h : Keeps a s) : Keeps a (tmHang s p) := .ite h.partFault h

theorem Keeps.pairFail {p b : Nat} {copy : Option Nat} (h : Keeps a s) : Keeps a (pairFail s p b copy) := by
  unfold Machine.pairFail
  refine .ite ?_ ?_
  · exact h
  · extract_lets
    split
    exacts [.ite h.upd.faultInstant h.partFault, h.partFault]

theorem Keeps.pllLoss {p : Nat} (h : Keeps a s) : Keeps a (pllLoss s p) :=
  .ite h (.ite h.partFault h.upd.repairSet.repairCommit.epochAdvance.faultInstant)

theorem Keeps.islandDisagree {k : Nat} (h : Keeps a s) : Keeps a (islandDisagree s k) := by
  unfold Machine.islandDisagree
  refine .ite ?_ ?_
  · exact h
  · split <;> exact h.upd.faultDetect

theorem Keeps.islandResync (h : Keeps a s) : Keeps a (islandResync s) := .ite h h.upd.faultEnd

theorem Keeps.chipEscalate (h : Keeps a s) : Keeps a (chipEscalate s) := (h.bump.foldl fun _ _ h => h.faultEscalate).startFail

theorem Keeps.islandWatchdog (h : Keeps a s) : Keeps a (islandWatchdog s) := .ite h (.ite h.smbLatch.upd.chipEscalate h.smbLatch.upd.startReset)

theorem Keeps.escalationTimeout {level u : Nat} (h : Keeps a s) : Keeps a (escalationTimeout s level u) := by
  unfold Machine.escalationTimeout
  split
  · split
    exacts [h.bump.faultEscalate.startReset, h]
  · exact (h.bump.foldl fun _ _ h => h.faultEscalate).startReset
  · exact h.chipEscalate
  · exact h

theorem Keeps.fltCommand {v : Nat} (h : Keeps a s) : Keeps a (fltCommand s v) := by
  unfold Machine.fltCommand
  extract_lets
  split
  exacts [.ite h.rgw (.ite h.rgw (.ite h.rgw h.engineReset.rgw)), .ite h.rgw h.rgw.startReset, .ite h.rgw h.rgw.startReset, .ite h.rgw h.rgw.capStart, h.rgw]

theorem Keeps.fltRegRead {o : Nat} (h : Keeps a s) : KeepsSome a Prod.snd (fltRegRead s o) := by
  unfold Machine.fltRegRead
  extract_lets
  split
  exacts [.snd h, .snd h, .snd h, .snd h.rgw, .snd h.rgw, .none]

theorem Keeps.fltRegWrite {o v : Nat} (h : Keeps a s) : KeepsSome a id (fltRegWrite s o v) := by
  unfold Machine.fltRegWrite
  split
  exacts [.some h.fltCommand, .none]


/-! ### Power -/

theorem Keeps.budgetGrade (h : Keeps a s) : Keeps a (budgetGrade s) := (Keeps.ite h.rgw h).upd

theorem Keeps.pwrRecord {event p trig : Nat} (h : Keeps a s) : Keeps a (pwrRecord s event p trig) := h.stage

theorem Keeps.pwrLatch (h : Keeps a s) : Keeps a (pwrLatch s) := h.upd

theorem Keeps.demandNow (h : Keeps a s) : Keeps a (demandNow s) := by
  unfold Machine.demandNow
  split
  exacts [h, (h.foldl fun _ _ h => h.demand).upd]

theorem Keeps.demandAll (h : Keeps a s) : Keeps a (demandAll s) := .ite h.demandNow.upd.bump h.demandNow

theorem Keeps.budgetStep (h : Keeps a s) : Keeps a (budgetStep s).2 := by
  unfold Machine.budgetStep
  extract_lets
  split
  exacts [h, h.upd.pwrRecord]

theorem Keeps.grantPart {t : Int} {fell : Bool} {eMeas : List Nat} {p : Nat} (h : Keeps a s) : Keeps a (grantPart t fell eMeas s p) := h.pwrPut

theorem Keeps.capUnmet {t : Int} (h : Keeps a s) : Keeps a (capUnmet s t) := .ite h (.ite h.bump.upd.pwrRecord h.bump)

theorem Keeps.stepPart {p : Nat} (h : Keeps a s) : Keeps a (stepPart s p) := .ite h.pwrPut.bump.pwrRecord (.ite h.pwrPut.pwrRecord h.pwrPut)

theorem Keeps.windowBoundary {pOther : Nat} {eMeas : List Nat} (h : Keeps a s) : Keeps a (windowBoundary s pOther eMeas) :=
  (h.demandAll.pwrLatch.upd.cinc.rgw.rgw.budgetStep.capUnmet.foldl fun _ _ h => h.grantPart).foldl fun _ _ h => h.stepPart

theorem Keeps.stepGlideEnd {p : Nat} (h : Keeps a s) : Keeps a (stepGlideEnd s p) := .ite h.pwrPut h

theorem Keeps.droop {p : Nat} (h : Keeps a s) : Keeps a (droop s p) := .ite h h.pwrPut.bump

theorem Keeps.stretchEnd {p : Nat} (h : Keeps a s) : Keeps a (stretchEnd s p) := .ite h.pwrPut h

theorem Keeps.sensorsTake {first n cls unit part : Nat} {vs : List Int} (h : Keeps a s) : Keeps a (sensorsTake s first n cls unit part vs) :=
  h.foldl fun _ _ h => .ite h.upd.faultInstant h.upd

theorem Keeps.groupHeat {g : Nat} {t : Int} (h : Keeps a s) : Keeps a (groupHeat s g t) :=
  .ite (Keeps.ite h.groupPut.stage h.groupPut).stage (.ite h.groupPut.stage h.groupPut)

theorem Keeps.minuteStep {tj tier : Int} (h : Keeps a s) : Keeps a (minuteStep s tj tier) := by
  unfold Machine.minuteStep
  extract_lets
  split
  exacts [h.upd, .ite h.upd h.lifeInc.lifeInc.upd]

theorem Keeps.thermTrip {part sensor : Nat} {t : Int} (h : Keeps a s) : Keeps a (thermTrip s part sensor t) :=
  .ite h (h.pwrRecord.upd.smpEvent.foldl fun _ _ h => h.framesLost)

theorem Keeps.tripCount {key : Nat} {above : Bool} {part sensor : Nat} {t : Int} (h : Keeps a s) : Keeps a (tripCount s key above part sensor t) :=
  .ite h.upd.thermTrip h.upd

theorem Keeps.sensorSample {die tier : List Int} (h : Keeps a s) : Keeps a (sensorSample s die tier) := 
  (((((h.foldl fun _ _ h => h.sensorsTake).foldl fun _ _ h => h.sensorsTake).foldl fun _ _ h => h.groupHeat).foldl
    fun _ _ h => h.pwrPut).minuteStep.foldl fun _ _ h => h.tripCount).foldl fun _ _ h => h.tripCount

theorem Keeps.pwrFailAssert (h : Keeps a s) : Keeps a (pwrFailAssert s) := 
  .ite h ((((h.foldl fun _ _ h => h.captureEnd).upd.foldl fun _ _ h => .ite h.pwrPut.bump.pwrRecord h).pwrRecord.smpAccept.when
    fun h => h.smpFlush).lifeCommit)

theorem Keeps.pwrFailDeassert (h : Keeps a s) : Keeps a (pwrFailDeassert s) := h.upd


/-! ### Thresher -/

theorem Keeps.thrLaneFail {l lane : Nat} (h : Keeps a s) : Keeps a (thrLaneFail s l lane) := h.rgwb.siteTell

theorem Keeps.thrMismatch {l lane : Nat} (h : Keeps a s) : Keeps a (thrMismatch s l lane) :=
  .ite h.tileCheck.bump.mismatchNote.thrLaneFail h.tileCheck.bump.mismatchNote

theorem Keeps.thrRepeat {l lane : Nat} {recurs : Bool} (h : Keeps a s) : Keeps a (thrRepeat s l lane recurs).1 := by
  unfold Machine.thrRepeat
  extract_lets s1
  have h1 : Keeps a s1 := h.bump
  clear_value s1
  split
  exacts [h1.thrMismatch.thrLaneFail, h1]

theorem Keeps.thrCount {l : Nat} {a' : ThrAcc} (h : Keeps a s) : Keeps a (thrCount s l a') := .ite (Keeps.ite h.bump h).bump (.ite h.bump h)

theorem Keeps.nanLatch {c i : Nat} (h : Keeps a s) : Keeps a (nanLatch s c i) := by
  unfold Machine.nanLatch
  extract_lets
  split
  exacts [h.ctxPut, h]

theorem Keeps.evalSample {l lm c : Nat} {x : Job} {y : Thr} {j i : Nat} (h : Keeps a s) : Keeps a (evalSample l lm c x y j s i).1 := by
  unfold Machine.evalSample
  extract_lets +onlyGivenNames v r hit s1
  have h1 : Keeps a s1 := by
    unfold s1
    clear_value hit
    split
    exacts [h.thrMismatch, h]
  clear_value s1 r hit
  split
  · exact h1
  split
  rename_i s2 _ e
  have h2 : Keeps a s2 := by
    refine Keeps.fst e ?_
    split
    exacts [h1.thrRepeat, h1]
  split
  · exact h2
  split
  rename_i s3 _ e
  have h3 : Keeps a s3 := h2.wrChk.fst e
  split
  · exact h3
  extract_lets s4 s5
  have h4 : Keeps a s4 := h3.thrCount.bumpDiv
  clear_value s4
  have h5 : Keeps a s5 := by
    unfold s5
    split
    · split
      exacts [h4.nanLatch, h4]
    · exact h4
  exact h5

theorem Keeps.runEval {c m l k : Nat} {x : Job} (h : Keeps a s) : Keeps a (runEval c m s l k x).1 := by
  unfold Machine.runEval
  split
  exacts [h, h.iterate fun _ _ h => h.iterate fun _ _ h => h.evalSample]

theorem Keeps.runStream {l lm slot : Nat} {e : SbEnt} {x : Job} (h : Keeps a s) : Keeps a (runStream s l lm slot e x).1 := by
  unfold Machine.runStream
  split
  · exact h
  · extract_lets s1
    have h1 : Keeps a s1 := by
      unfold s1
      split
      exacts [h.spCount, h]
    split
    exacts [h1, h1.tilePut.sbPut]

theorem Keeps.passStart {l : Nat} (h : Keeps a s) : Keeps a (passStart s l) := by
  unfold Machine.passStart
  extract_lets
  split
  · refine .ite ?_ ?_
    · extract_lets
      split
      exacts [.ite (h.tilePut.foldl fun _ _ h => h.demand) h.tilePut, h.tilePut]
    · exact h
  · exact h

theorem Keeps.passDrop {l c slot : Nat} {e : CtxFlt} (h : Keeps a s) : Keeps a (passDrop s l c slot e) := h.tilePut.cmdStopped.engFault

theorem Keeps.passLeft {l slot : Nat} (h : Keeps a s) : Keeps a (passLeft s l slot) := by
  unfold Machine.passLeft
  extract_lets
  split
  exacts [.ite h h.sbPut, h]

theorem Keeps.passWrite {l : Nat} {p : Pass} {m : PMember} (h : Keeps a s) : Keeps a (passWrite s l p m) := by
  unfold Machine.passWrite
  refine .ite ?_ ?_
  · exact h
  · extract_lets
    split
    · rename_i t _ e
      have h1 : Keeps a t := Keeps.fst e h.wrAll
      split
      · exact h1.passDrop
      · extract_lets _ s2 _
        have h2 : Keeps a s2 := by
          unfold s2
          refine (h1.foldl fun _ _ h => h.thrCount).foldl fun _ _ h3 => ?_
          split
          exacts [.ite h3.nanLatch h3, h3]
        exact h2.bumpN.bumpDiv

theorem Keeps.passFault {l : Nat} {p : Pass} {e : CtxFlt} (h : Keeps a s) : Keeps a (passFault s l p e) := h.foldl fun _ _ h => h.passDrop

theorem Keeps.chunkHits {l : Nat} {hits : List EngHit} (h : Keeps a s) : Keeps a (chunkHits s l hits).1 := by
  unfold Machine.chunkHits
  extract_lets ms
  clear_value ms
  split
  · exact h
  · extract_lets s1
    have h1 : Keeps a s1 := h.thrMismatch
    clear_value s1
    split
    exacts [h1.thrRepeat, h1.thrRepeat.thrMismatch.thrLaneFail]

theorem Keeps.passChunk {l : Nat} {hits : List EngHit} (h : Keeps a s) : Keeps a (passChunk s l hits) := by
  unfold Machine.passChunk
  split
  · exact h
  split
  extract_lets +onlyGivenNames at_ size
  clear_value at_ size
  split
  · exact h.passFault
  extract_lets +onlyGivenNames s1
  have h1 : Keeps a s1 := h.lpCount
  clear_value s1
  split
  rename_i s2 _ e
  have h2 : Keeps a s2 := h1.chunkHits.fst e
  refine .ite h2.passFault ?_
  extract_lets +onlyGivenNames trees rs good _ s3 s4
  have h3 : Keeps a s3 := h2.tilePut
  clear_value good rs s3
  have h4 : Keeps a s4 := by
    refine h3.foldl fun _ _ h => ?_
    split
    exacts [h.passDrop, h]
  clear_value s4
  exact .ite h4 ((h4.foldl fun _ _ h => h.passWrite).tilePut.bump.foldl fun _ _ h => h.passLeft)


/-! ### Registers -/

theorem Keeps.doorbell (h : Keeps a s) : Keeps a (doorbell s) := .ite h.rgwb h.upd

theorem Keeps.mboxPop (h : Keeps a s) : Keeps a (mboxPop s).2 := by
  unfold Machine.mboxPop
  split
  exacts [h, h.upd]

theorem Keeps.epochRead (h : Keeps a s) : Keeps a (epochRead s).2 := h.rgw

theorem Keeps.timeRead (h : Keeps a s) : Keeps a (timeRead s).2 := h.rgw

theorem Keeps.glbRegRead {o : Nat} (h : Keeps a s) : KeepsSome a Prod.snd (glbRegRead s o) := by
  unfold Machine.glbRegRead
  split
  exacts [.snd h.rgw, .snd h.epochRead, .snd h.timeRead, .snd h, .none]

theorem Keeps.hpRegRead {o : Nat} (h : Keeps a s) : KeepsSome a Prod.snd (hpRegRead s o) := by
  unfold Machine.hpRegRead
  split
  exacts [.snd h, .snd h, .snd h.rgw, .snd h, .snd h, .snd h.mboxPop, .none]

theorem Keeps.regSpecial {b : Block} {i o : Nat} (h : Keeps a s) : KeepsSome a Prod.snd (regSpecial s b i o) := by
  have hpure : ∀ v : Option Nat, KeepsSome a Prod.snd (v.map fun v => (v, s)) := by
    intro v r hr
    obtain ⟨_, _, rfl⟩ := Option.mem_map.1 hr
    exact h
  unfold Machine.regSpecial
  split
  case h_1 =>
    split
    exacts [hpure _, .none]
  case h_4 => exact .none
  case h_5 => exact h.vdRegRead
  case h_6 => exact h.tmRegRead
  case h_15 => exact h.fltRegRead
  case h_17 => exact h.smpRegRead
  case h_18 => exact h.obsRegRead
  case h_19 => exact h.hpRegRead
  case h_20 => exact h.glbRegRead
  all_goals exact hpure _

theorem Keeps.regRead {a' : Nat} (h : Keeps a s) : Keeps a (regRead s a').2 := by
  unfold Machine.regRead
  split
  · exact h
  · split
    · rename_i t e
      have h1 : Keeps a t.2 := h.regSpecial _ e
      exact h1
    · split
      exacts [h, .ite h h.rgw]

theorem Keeps.pairDown {n : Nat} (h : Keeps a s) : Keeps a (pairDown s n) := h.foldl fun _ _ h => .ite h (h.foldl fun _ _ h => .ite h.subDown h)

theorem Keeps.fpCfgWrite {n v : Nat} (h : Keeps a s) : Keeps a (fpCfgWrite s n v) := h.rgw.pairDown

theorem Keeps.rowWrite {a' v : Nat} {r : RegRow} (h : Keeps a s) : Keeps a (rowWrite s a' v r) := .ite h.rgw.epochAdvance h.rgw

theorem Keeps.regWrite {a' v : Nat} (h : Keeps a s) : Keeps a (regWrite s a' v) := by
  unfold Machine.regWrite
  split
  · extract_lets
    refine .ite ?_ ?_
    · exact h
    · split
      · exact .ite h.fpCfgWrite h.rowWrite
      · split
        · rename_i t _ e
          have h1 : Keeps a t := h.grnRegWrite _ e
          exact .ite h1.epochAdvance h1
        · exact h.rowWrite
      · split
        · rename_i t _ e
          have h2 : Keeps a t := h.vdRegWrite _ e
          exact .ite h2.epochAdvance h2
        · exact h.rowWrite
      · split
        · rename_i t e
          have h3 : Keeps a t := h.tmRegWrite _ e
          exact h3.epochAdvance
        · exact h.rowWrite
      · exact .getD h.tilRegWrite h.rowWrite
      · exact .getD h.btRegWrite h.rowWrite
      · exact .getD h.rqRegWrite h.rowWrite
      · exact .ite h (.ite h.rowWrite.ringUpdate h.rowWrite)
      · split
        · rename_i t e
          have h4 : Keeps a t := h.fltRegWrite _ e
          exact h4
        · exact .ite h.smbLatch.rowWrite h.rowWrite
      · exact .ite h.flsCommand h.rowWrite
      · exact .ite h.smpCommand h.rowWrite
      · split
        · rename_i t e
          have h5 : Keeps a t := h.obsRegWrite _ e
          exact h5.rowWrite
        · exact h.rowWrite
      · exact .ite h.doorbell h.rowWrite
      · exact h.rowWrite
      · exact h.rowWrite
      · exact h.rowWrite
      · exact h.rowWrite
      · exact h.rowWrite
      · exact h.rowWrite
      · exact h.rowWrite
      · exact h.rowWrite
  · exact h


/-! ### Electrical -/

theorem Keeps.tsrcShow (h : Keeps a s) : Keeps a (tsrcShow s) := h.rgwf

theorem Keeps.timeSlew {off : Int} (h : Keeps a s) : Keeps a (timeSlew s off) := .ite h.upd.tsrcShow h.upd.tsrcShow

theorem Keeps.ppsEdge {off : Int} (h : Keeps a s) : Keeps a (ppsEdge s off) := .ite h.timeSlew h

theorem Keeps.timeRecord (h : Keeps a s) : Keeps a (timeRecord s) := h.upd.upd.upd.smpEvent

theorem Keeps.timeChange {ref pps ptp : Bool} {off : Int} (h : Keeps a s) : Keeps a (timeChange s ref pps ptp off) :=
  .ite h.upd (Keeps.ite h.upd.upd.tsrcShow h.upd.timeSlew).timeRecord

theorem Keeps.smbSample (h : Keeps a s) : Keeps a (smbSample s) := h.upd

theorem Keeps.smbReply {code : Nat} {data : Bytes} (h : Keeps a s) : Keeps a (smbReply s code data) := h.upd

theorem Keeps.smbReadWord {addr code : Nat} (h : Keeps a s) : Keeps a (smbReadWord s addr code) := by
  unfold Machine.smbReadWord
  refine .ite ?_ ?_
  · split
    exacts [h.smbReply, h.upd]
  · exact h.upd

theorem Keeps.smbBlockRead {addr code : Nat} (h : Keeps a s) : Keeps a (smbBlockRead s addr code) := .ite h.upd.smbReply h.upd

theorem Keeps.smbAlertResponse (h : Keeps a s) : Keeps a (smbAlertResponse s) := .ite h.upd.upd h.upd


/-! ### Engines -/

theorem Keeps.engineStart {l i : Nat} {x : SbEnt} {run : EngineRun} (h : Keeps a s) (hf : ∀ t l i j, Keeps a t → Keeps a (run t l i j).1) :
    Keeps a (engineStart s l i x run) := by
  unfold Machine.engineStart
  split
  · exact h
  · refine .ite h.sbPut ?_
    split
    · rename_i e
      exact .fst e (hf _ _ _ _ h.sbPut.hitsStrike)
    · rename_i e
      exact (Keeps.fst e (hf _ _ _ _ h.sbPut.hitsStrike)).cmdStopped.engFault

theorem Keeps.shfPump {l n : Nat} (h : Keeps a s) : Keeps a (shfPump l n s) := by
  induction n generalizing s with
  | zero => exact h
  | succ n ih =>
    unfold Machine.shfPump
    extract_lets
    split
    exacts [ih (h.shfAssign.engineStart fun _ _ _ _ h => h.runMatmul), h.shfAssign]

theorem Keeps.fifoPump {l e : Nat} {run : EngineRun} {n : Nat} (h : Keeps a s) (hf : ∀ t l i j, Keeps a t → Keeps a (run t l i j).1) :
    Keeps a (fifoPump l e run n s) := by
  induction n generalizing s with
  | zero => exact h
  | succ n ih =>
    unfold Machine.fifoPump
    extract_lets
    split
    exacts [h, .ite (ih (h.engineStart hf)) h]

theorem Keeps.streamStart {l m i : Nat} {x : SbEnt} {j : Job} (h : Keeps a s) : Keeps a (streamStart s l m i x j) := by
  unfold Machine.streamStart
  refine .ite ?_ ?_
  · exact h.sbPut
  · extract_lets
    split
    · rename_i t e
      have h1 : Keeps a t := Keeps.fst e h.sbPut.hitsStrike.runStream
      exact h1
    · rename_i t _ e
      have h2 : Keeps a t := Keeps.fst e h.sbPut.hitsStrike.runStream
      exact h2.cmdStopped.engFault

theorem Keeps.thrPump {l m n : Nat} (h : Keeps a s) : Keeps a (thrPump l m n s) := by
  induction n generalizing s with
  | zero => exact h
  | succ n ih =>
    unfold Machine.thrPump
    split
    · exact h
    · refine .ite (.ite h (ih (h.engineStart fun _ _ _ _ h => h.runEval))) ?_
      split
      exacts [h, .ite h.streamStart (ih h.streamStart)]

theorem Keeps.spMark {l : Nat} (h : Keeps a s) : Keeps a (spMark s l) := h.foldl fun _ _ h => h.sbPut

theorem Keeps.spPump {l n : Nat} (h : Keeps a s) : Keeps a (spPump l n s) := by
  induction n generalizing s with
  | zero => exact h
  | succ n ih =>
    unfold Machine.spPump
    extract_lets
    split
    exacts [ih (h.spMark.engineStart fun _ _ _ _ h => h.runScore), h.spMark]

theorem Keeps.enginesPump {l : Nat} (h : Keeps a s) : Keeps a (enginesPump s l) :=
  .ite h ((h.shfPump.thrPump.thrPump.fifoPump fun _ _ _ _ h => h.runVx).fifoPump fun _ _ _ _ h => h.runMov).spPump

theorem Keeps.enginesAll (h : Keeps a s) : Keeps a (enginesAll s) := (h.foldl fun _ _ h => h.enginesPump).bankPump

theorem Keeps.issueRun {e op l : Nat} {hits : List EngHit} (h : Keeps a s) : Keeps a (issueRun e op l hits s) := h.issueRow.enginesPump


/-! ### LpOps -/

theorem Keeps.lpMount (h : Keeps a s) : Keeps a (lpMount s) := h.rgwf

theorem Keeps.lpOut {c : Nat} (h : Keeps a s) : Keeps a (lpOut s c) := h.repairSet.repairCommit.rgwb.epochAdvance.lpMount

theorem Keeps.lpRebuild {c k : Nat} (h : Keeps a s) : Keeps a (lpRebuild s c k) := by
  unfold Machine.lpRebuild
  extract_lets +onlyGivenNames m
  refine .ite ?_ ?_
  · exact h
  · extract_lets s1
    have h1 : Keeps a s1 := by
      unfold s1
      split
      · rename_i _ t e
        have h2 : Keeps a t := h.retained _ e
        exact h2.memW.memW
      · exact h
    split
    exacts [.ite h1 h1.placeSects, h1]

theorem Keeps.lpRetire {c : Nat} (h : Keeps a s) : Keeps a (lpRetire s c) :=
  .ite h (((h.faultDetect.lpOut.obsRestart.foldl fun _ _ h => h.rgw.rgw).foldl fun _ _ h => h.lpRebuild).foldl fun _ _ h => h.ctxFault).faultEnd

theorem Keeps.lpZero {a' : Nat} (h : Keeps a s) : Keeps a (lpZero s a') := .ite h.memW.bump h

theorem Keeps.lpCe {a' : Nat} (h : Keeps a s) : Keeps a (lpCe s a') := h.bump.cinc.upd

theorem Keeps.lpPatrol {from_ upTo : Nat} {ces : List Nat} (h : Keeps a s) : Keeps a (lpPatrol s from_ upTo ces) :=
  (h.lpCount.foldl fun _ _ h => h.lpCe).foldl fun _ _ h => h.lpUe.lpZero

theorem Keeps.lpRetrain {c : Nat} (h : Keeps a s) : Keeps a (lpRetrain s c) := .ite h.bump h

theorem Keeps.sramPatrol {site : Nat} {ces : List Nat} (h : Keeps a s) : Keeps a (sramPatrol s site ces) :=
  .ite h ((h.foldl fun _ _ h => h.sramCorrected).foldl fun _ _ h => h.faultInstant)


/-! ### WeaveFields -/

theorem Keeps.clampRec {r : WvRun} {addr req res : Nat} (h : Keeps a r.st) : Keeps a (clampRec r addr req res).st := h

theorem Keeps.nameField {r : WvRun} {k : Nat} (h : Keeps a r.st) : Keeps a (nameField r k).st := h

theorem KeepsSome.run {r : WvRun} (h : Keeps a r.st) : KeepsSome a WvRun.st (Option.some r) := by rintro _ ⟨⟩; exact h

theorem KeepsSome.get {r : WvRun} (h : KeepsSome a WvRun.st (Option.some r)) : Keeps a r.st := h r rfl

theorem Keeps.foldlRun {γ : Type} {f : WvRun → γ → WvRun} {l : List γ} {r : WvRun} (h : Keeps a r.st)
    (hf : ∀ x y, Keeps a x.st → KeepsSome a WvRun.st (Option.some (f x y))) : Keeps a (l.foldl f r).st :=
  .foldlOn WvRun.st h fun x y h => (hf x y h).get

theorem Keeps.runSnd {β : Type} {p : β × WvRun} {b : β} {r : WvRun} (e : p = (b, r)) (h : Keeps a p.2.st) : Keeps a r.st := by rwa [e] at h

theorem Keeps.depRec {r : WvRun} {k addr req res : Nat} (h : Keeps a r.st) : Keeps a (depRec r k addr req res).st := h

theorem Keeps.rejectRec {r : WvRun} {addr : Nat} (h : Keeps a r.st) : Keeps a (rejectRec r addr).st := h

theorem Keeps.put {r : WvRun} (h : Keeps a s) : Keeps a (r.put s).st := h

theorem Keeps.clampField {type i : Nat} {a' : Bytes × WvRun} {f : ElemField} (h : Keeps a a'.2.st) : Keeps a (clampField type i a' f).2.st := by
  unfold Machine.clampField
  extract_lets
  split
  exacts [h, h.clampRec]

theorem Keeps.symCheck {i : Nat} {a' : Bytes × WvRun} (h : Keeps a a'.2.st) : Keeps a (symCheck i a').2.st := by
  unfold Machine.symCheck
  extract_lets
  split
  exacts [h.clampRec, h]

theorem Keeps.featCheck {i : Nat} {x : Bytes × WvRun} (h : Keeps a x.2.st) : Keeps a (featCheck i x).2.st := by
  unfold Machine.featCheck
  extract_lets
  split
  rename_i r1
  have h1 : Keeps a r1.st := h
  extract_lets
  split
  rename_i r2 e
  have h2 : Keeps a r2.st := by
    refine Keeps.runSnd e ?_
    split
    exacts [h1, h1.clampRec]
  extract_lets
  split
  rename_i r3 e
  have h3 : Keeps a r3.st := by
    refine Keeps.runSnd e ?_
    split
    exacts [h2, h2.clampRec]
  split
  rename_i r4 e
  have h4 : Keeps a r4.st := by
    refine Keeps.runSnd e ?_
    split
    exacts [h3.clampRec, h3]
  split
  exacts [h4.clampRec, h4]

theorem Keeps.elemCheck {type i : Nat} {b : Bytes} {r : WvRun} (h : Keeps a r.st) : Keeps a (elemCheck type i b r).2.st := by
  unfold Machine.elemCheck
  extract_lets s1
  have h1 : Keeps a s1.2.st := by
    unfold s1
    exact Keeps.foldlOn (fun x : Bytes × WvRun => x.2.st) h fun _ _ h => h.clampField
  split
  · exact h1.symCheck
  · split
    exacts [h1.featCheck, h1]

theorem Keeps.regClamp {b : Block} {o addr mask w : Nat} {r : WvRun} (h : Keeps a r.st) : Keeps a (regClamp b o addr mask w r).2.st := by
  unfold Machine.regClamp
  refine Keeps.foldlOn (fun x : Nat × WvRun => x.2.st) h fun _ _ h1 => ?_
  dsimp only
  split
  exacts [h1, h1.clampRec]


/-! ### WeaveApply -/

theorem Keeps.putElem {type i : Nat} {b : Bytes} (h : Keeps a s) : Keeps a (putElem s type i b) := by
  unfold Machine.putElem
  extract_lets
  split
  exacts [h.upd, h.upd, h.upd, h.upd, h.upd, h.upd, h.foldl fun _ _ h => h.actWrite, h.upd, h]

theorem Keeps.tableElem {type i : Nat} {b : Bytes} {r : WvRun} (h : Keeps a r.st) : Keeps a (tableElem type i b r).st := h.elemCheck.putElem.put

theorem Keeps.rowPut {a' v mask : Nat} (h : Keeps a s) : Keeps a (rowPut s a' v mask) := h.rgw

theorem Keeps.startPut {a' v : Nat} {b : Block} {i o : Nat} {r : RegRow} (h : Keeps a s) : Keeps a (startPut s a' v b i o r) := by
  unfold Machine.startPut
  extract_lets
  split
  · exact .ite h.rowPut h.rowPut
  · exact .ite h.evictSeedWrite h.rowPut
  · exact .ite h.rqPut (.ite h.rqPut (.ite h.rqPut h.rowPut))
  · split
    · rename_i t e
      have h1 : Keeps a t.1 := h.vdRegWrite _ e
      exact h1
    · exact h.rowPut
  · exact .getD h.tmRegWrite h.rowPut
  · exact h.regWrite
  · exact h.regWrite
  · exact h.rowPut

theorem Keeps.regElem {full : Bool} {e : Bytes} {r : WvRun} (h : Keeps a r.st) : Keeps a (regElem full e r).st := by
  unfold Machine.regElem
  extract_lets
  split
  · exact h.rejectRec
  · split
    · split
      · exact h.rejectRec
      · extract_lets
        split
        · rename_i _ t e
          have h1 : Keeps a t.st := h.regClamp.runSnd e
          split
          · extract_lets s2
            have h2 : Keeps a s2.st := by
              unfold s2
              split <;> exact h1
            exact h2.startPut.put
          · split
            exacts [h.rejectRec, h1.regWrite.put]
    · exact h.rejectRec

theorem Keeps.layoutElem {b : Bytes} {r : WvRun} (h : Keeps a r.st) : Keeps a (layoutElem b r).st := by
  unfold Machine.layoutElem
  extract_lets _ _ s1 _ s2 _
  have h1 : Keeps a s1.st := by
    unfold s1
    split
    exacts [h.nameField.clampRec, h.nameField]
  have h2 : Keeps a s2.st := by
    unfold s2
    split
    exacts [h1, h1.clampRec]
  exact (h2.rgw.foldl fun _ _ h => h.rgwf).put

theorem Keeps.regionPut {n off size : Nat} (h : Keeps a s) : Keeps a (regionPut s n off size) := h.upd

theorem Keeps.placeElem {i : Nat} {b : Bytes} {r : WvRun} (h : Keeps a r.st) : Keeps a (placeElem i b r).st := by
  unfold Machine.placeElem
  extract_lets +onlyGivenNames n
  split
  · exact h.rejectRec
  · extract_lets +onlyGivenNames v x s1
    have h1 : Keeps a s1.st := by
      unfold s1
      split
      exacts [h, h.clampRec]
    exact h1.regionPut.put

theorem Keeps.sectElems {full : Bool} {b : Bytes} {x : WSect} {r : WvRun} (h : Keeps a r.st) : Keeps a (sectElems full b x r).st := by
  unfold Machine.sectElems
  split
  · exact h
  · refine Keeps.foldlOn WvRun.st h fun r _ h => ?_
    extract_lets e r'
    have h1 : Keeps a r'.st := h
    clear_value e r'
    split
    exacts [h1.layoutElem, h1.placeElem, h1.regElem, h1.tableElem]

theorem Keeps.runSects {full : Bool} {b : Bytes} {r : WvRun} (h : Keeps a r.st) : Keeps a (runSects full b r).st := by
  unfold Machine.runSects
  refine Keeps.foldlOn (fun x : WvRun × List Nat => x.1.st) h fun x i h => ?_
  extract_lets y _ r'
  have h1 : Keeps a r'.st := h
  clear_value y r'
  dsimp only
  split
  exacts [h1.rejectRec, h1.sectElems]

theorem Keeps.runOf (h : Keeps a s) : Keeps a (runOf s).st := h

theorem Keeps.lowerAll {f : WvRun → Option WvRun} {n : Nat} {r : WvRun} (h : Keeps a r.st) (hf : ∀ r : WvRun, Keeps a r.st → KeepsSome a WvRun.st (f r)) :
    Keeps a (lowerAll f n r).st := by
  induction n generalizing r with
  | zero => exact h
  | succ n ih =>
    unfold Machine.lowerAll
    split
    · rename_i e
      exact ih (hf _ h _ e)
    · exact h

theorem Keeps.qcountStep {p : Nat} {r : WvRun} (h : Keeps a r.st) : KeepsSome a WvRun.st (qcountStep p r) := by
  unfold Machine.qcountStep
  extract_lets
  split
  exacts [.none, .run h.rgwf.put]

theorem Keeps.qbases {p : Nat} (h : Keeps a s) : Keeps a (qbases s p) := by
  unfold Machine.qbases
  refine Keeps.foldlOn Prod.fst h fun _ _ h1 => ?_
  exact h1.rgwf

theorem Keeps.minFit {r : WvRun} (h : Keeps a r.st) : Keeps a (minFit r).st := by
  unfold Machine.minFit
  refine Keeps.foldlOn WvRun.st h fun r q h => KeepsSome.get ?_
  extract_lets excess v x
  split
  exacts [.run h, .run h.rqPut.put]

theorem Keeps.epStep {r : WvRun} (h : Keeps a r.st) : KeepsSome a WvRun.st (epStep r) := by
  unfold Machine.epStep
  extract_lets
  split
  exacts [.none, .run h.rgwf.put]

theorem Keeps.regionStep {x : WvRun × Nat} {n : Nat} (h : Keeps a x.1.st) : Keeps a (regionStep x n).1.st := by
  unfold Machine.regionStep
  split
  rename_i r at_
  have h : Keeps a r.st := h
  extract_lets z room x y r'
  have h1 : Keeps a r'.st := by
    unfold r'
    split
    exacts [h, Keeps.depRec h]
  clear_value y r'
  exact h1.regionPut.put

theorem Keeps.regionRegs (h : Keeps a s) : Keeps a (regionRegs s) := (h.rgw.rgw.rgw.rgw.foldl fun _ _ h => h.rgw.rgw).foldl fun _ _ h => h.rgw.rgw

theorem Keeps.placeRegions {r : WvRun} (h : Keeps a r.st) : Keeps a (placeRegions r).st := by
  unfold Machine.placeRegions
  split
  rename_i r' _ e
  have h1 : Keeps a r'.st := by
    rw [show r' = (r', _).1 from rfl, ← e]
    exact Keeps.foldlOn (fun x : WvRun × Nat => x.1.st) h fun _ _ h => h.regionStep
  exact h1.upd.regionRegs.put

theorem Keeps.strideFit {p : Nat} {r : WvRun} (h : Keeps a r.st) : Keeps a (strideFit p r).st := by
  unfold Machine.strideFit
  extract_lets
  split
  exacts [h, h.rgwf.put]

theorem Keeps.poolStep {r : WvRun} (h : Keeps a r.st) : KeepsSome a WvRun.st (poolStep r) := by
  unfold Machine.poolStep
  extract_lets
  split
  exacts [.none, .run h.rgwf.put]

theorem Keeps.slotsStep {r : WvRun} (h : Keeps a r.st) : KeepsSome a WvRun.st (slotsStep r) := by
  unfold Machine.slotsStep
  extract_lets
  split
  exacts [.none, .run h.rgw.put]

theorem Keeps.flowStep {p : Nat} {r : WvRun} (h : Keeps a r.st) : KeepsSome a WvRun.st (flowStep p r) := by
  unfold Machine.flowStep
  extract_lets
  split
  exacts [.none, .run h.rgwf.put]

theorem Keeps.dependents {r : WvRun} (h : Keeps a r.st) : Keeps a (dependents r).st := by
  unfold Machine.dependents
  refine KeepsSome.get ?_
  extract_lets r0 r1 r2 r3 r4 r5 r6
  have h0 : Keeps a r0.st := h
  have h1 : Keeps a r1.st := Keeps.foldlOn WvRun.st h0 fun _ _ h => (h.lowerAll fun _ h => h.qcountStep).qbases.put
  clear_value r1
  have h2 : Keeps a r2.st := h1.minFit
  clear_value r2
  have h3 : Keeps a r3.st := h2.lowerAll fun _ h => h.epStep
  clear_value r3
  have h4 : Keeps a r4.st := h3.placeRegions
  clear_value r4
  have h5 : Keeps a r5.st := Keeps.foldlOn WvRun.st h4 fun _ _ h => h.strideFit
  clear_value r5
  have h6 : Keeps a r6.st := (h5.lowerAll fun _ h => h.poolStep).lowerAll fun _ h => h.slotsStep
  clear_value r6
  exact .run (.foldlRun h6 fun _ _ h => .run (h.lowerAll fun _ h => h.flowStep))

theorem Keeps.weaveReset {all : Bool} (h : Keeps a s) : Keeps a (weaveReset s all) := by
  refine Keeps.foldl (.rgwf (.rgwf (.rgwf (h.change (hr := fun w => regsWf_filter _ w))))) fun _ _ h => h.regionPut

theorem Keeps.defaultTables (h : Keeps a s) : Keeps a (defaultTables s) := by
  unfold Machine.defaultTables
  extract_lets s1 s2
  have h1 : Keeps a s1 := h.foldl fun _ _ h => h.putElem
  clear_value s1
  have h2 : Keeps a s2 := h1.foldl fun _ _ h => h.putElem
  clear_value s2
  exact h2.putElem

theorem Keeps.enableTables (h : Keeps a s) : Keeps a (enableTables s) := h.foldl fun _ _ h => h.foldl fun _ _ h => .ite h.grnEnable h

theorem Keeps.holdAll {q : Nat} {l : List (Nat × WvInfo)} (h : Keeps a s) : Keeps a (holdAll s q l) := h.foldl fun _ _ h => h.wvHold

theorem Keeps.applyEnd {r : WvRun} {q : Nat} {structure_ : Bytes} {live : List Nat} {default_ : Bool} {slot : Nat} {oldMode : Bool} (h : Keeps a r.st) :
    Keeps a (applyEnd r q structure_ live default_ slot oldMode) :=
  (h.dependents.upd.enableTables.epochAdvance.ringUpdate.when fun h => h.foldl fun _ _ h => h.assignSites).holdAll.wvLast.foldl
    fun _ _ h => h.fpCfgWrite

theorem Keeps.applyImage {slot : Nat} {b : Bytes} (h : Keeps a s) : Keeps a (applyImage s slot b) := h.weaveReset.runOf.runSects.applyEnd

theorem Keeps.applyDefault (h : Keeps a s) : Keeps a (applyDefault s) := h.weaveReset.defaultTables.runOf.applyEnd

theorem Keeps.weaveStage (h : Keeps a s) : Keeps a (weaveStage s) := by
  unfold Machine.weaveStage
  refine .ite ?_ ?_
  · exact h.applyDefault
  · extract_lets
    split
    exacts [(h.foldl fun _ _ h => h.wvHold).applyImage, (h.foldl fun _ _ h => h.wvHold).applyDefault]

theorem Keeps.patchRun {b : Bytes} (h : Keeps a s) : Keeps a (patchRun s b).st := h.runOf.runSects


/-! ### Start -/

theorem Keeps.enrolMount (h : Keeps a s) : Keeps a (enrolMount s) := by
  unfold Machine.enrolMount
  extract_lets
  refine .ite (.foldl (h.change (he := Nat.le_succ _)) fun _ _ h => .ite h.fUnitDrop h) (h.foldl fun _ _ h => .ite h.fUnitDrop h)

theorem Keeps.claimMount (h : Keeps a s) : Keeps a (claimMount s) := by
  unfold Machine.claimMount
  split
  · rename_i e
    exact h.change (hl := by simp [e.1])
  · exact h

theorem Keeps.hostLoad {cause : Nat} (h : Keeps a s) : Keeps a (hostLoad s cause) := h.updBoot.startRecord.stageEnter

theorem Keeps.heldEnd (h : Keeps a s) : Keeps a (heldEnd s) := by
  unfold Machine.heldEnd
  split
  exacts [h.updBoot, h]

theorem Keeps.firmwareRuns {fw : Bytes} {byHost : Bool} (h : Keeps a s) : Keeps a (firmwareRuns s fw byHost) :=
  .ite h.updBoot.safeStart h.updBoot.stageEnter

theorem Keeps.copyLost {e : Nat × Nat} (h : Keeps a s) : Keeps a (copyLost s e) := by
  unfold Machine.copyLost
  split
  exacts [h, h.upd]

theorem Keeps.fcMount {i : StageIn} (h : Keeps a s) : Keeps a (fcMount s i) := h.upd.rgwb.rgwb.rgwf.rgw

theorem Keeps.mountDamage {i : StageIn} (h : Keeps a s) : Keeps a (mountDamage s i) := (h.foldl fun _ _ h => h.copyLost).upd.bumpN

theorem Keeps.flashFormat {factory : List Nat} (h : Keeps a s) : Keeps a (flashFormat s factory) :=
  (h.upd.rgwb.foldl fun _ _ h => h.blkRetire).checkpoint.checkpoint

theorem Keeps.mapLoad {factory : List Nat} (h : Keeps a s) : Keeps a (mapLoad s factory).1 :=
  (((h.upd.foldl fun _ _ h => h.blkPut).foldl fun _ _ h => h.blkPut).foldl fun _ _ h => h.copyReport).upd.checkpoint.checkpoint

theorem Keeps.smpResume (h : Keeps a s) : Keeps a (smpResume s) := by
  unfold Machine.smpResume
  split
  exacts [h, h.upd]

theorem Keeps.flashMount {i : StageIn} (h : Keeps a s) : Keeps a (flashMount s i) := by
  unfold Machine.flashMount
  extract_lets +onlyGivenNames s1 fresh
  have h1 : Keeps a s1 := h.mountDamage.fcMount
  clear_value s1 fresh
  split
  rename_i s2 _ e
  have h2 : Keeps a s2 := by
    refine Keeps.fst e ?_
    split
    · exact h1.flashFormat
    · split
      rename_i e
      exact (h1.mapLoad.fst e).enrolMount.claimMount
  extract_lets +onlyGivenNames roots s3 s4 s5
  have hroots : ∀ t, Keeps a t → Keeps a (roots t) := fun _ h => .ite h.flsUpdate h
  clear_value roots
  have h3 : Keeps a s3 := (hroots _ h2.mountCopy.mountCopy).mountCopy
  have h4 : Keeps a s4 := by
    unfold s4
    split
    exacts [hroots _ (h2.foldl fun _ _ h => h.flsUpdate), h3.mountCopy.mountCopy.mountCopy]
  have h5 : Keeps a s5 := h4.lifeLoad
  clear_value s5
  exact h5.upd.smpResume.updBoot.startRecord

theorem Keeps.bistBank {n : Nat} (h : Keeps a s) : Keeps a (bistBank s n) := .ite h h.repairSet

theorem Keeps.bist {i : StageIn} (h : Keeps a s) : Keeps a (bist s i) :=
  (((h.foldl fun _ _ h => .ite h.repairSet h).foldl fun _ _ h => .ite h.repairSite h).foldl fun _ _ h => .ite h.repairLanes h).foldl
    fun _ _ h => .ite h.bistBank h

theorem Keeps.groupLoad {g : Nat} (h : Keeps a s) : Keeps a (groupLoad s g) := h.upd.groupPut

theorem Keeps.repairLoad (h : Keeps a s) : Keeps a (repairLoad s) :=
  ((Keeps.ite h.repairCommit h).epochAdvance.foldl fun _ _ h => h.groupLoad).upd.rgwf.foldl fun _ _ h => h.assignSites

theorem Keeps.trainStore (h : Keeps a s) : Keeps a (trainStore s) := .ite h.upd.flsUpdate h.upd

theorem Keeps.lpTrain {i : StageIn} (h : Keeps a s) : Keeps a (lpTrain s i) := 
  ((Keeps.ite h h.rgwf.rgwf.rgwb).foldl fun _ _ h => h.lpRetire).fork (fun h => h.startFail)
    fun h => (h.upd.rgwb.lpMount.fork id fun h => h.trainStore).stageEnter

theorem Keeps.libraryCheck (h : Keeps a s) : Keeps a (libraryCheck s) := by
  unfold Machine.libraryCheck
  refine h.foldl fun _ _ h1 => ?_
  split
  exacts [.ite h1.upd h1, h1]

theorem Keeps.ctxRestore {c : Nat} (h : Keeps a s) : Keeps a (ctxRestore s c) := by
  unfold Machine.ctxRestore
  extract_lets
  split
  · exact h.mslotPut.modelRecord
  · rename_i _ t e
    have h1 : Keeps a t := h.retained _ e
    extract_lets
    split
    · exact h1.mslotPut.placeSects.applyReloc.mslotPut.modelRecord
    · rename_i t _ e
      have h2 : Keeps a t := h1.mslotPut.placeSects.applyReloc.placeDecls _ e
      exact h2.mslotPut.ctxPut.knotsInit

theorem Keeps.startDone (h : Keeps a s) : Keeps a (startDone s) := h.startRecord.updBoot.stageEnter

theorem Keeps.fwAbsent (h : Keeps a s) : Keeps a (fwAbsent s) := .ite h h.copyReport

theorem Keeps.flashWrites (h : Keeps a s) : Keeps a (flashWrites s) := h.upd

theorem Keeps.stageEnd {i : StageIn} (h : Keeps a s) : Keeps a (stageEnd s i) := by
  unfold Machine.stageEnd
  refine .ite ?_ ?_
  · exact h
  · refine .ite ?_ ?_
    · exact h.startFail
    · split
      · exact .ite h.stageEnter h.startFail
      · exact .ite h.rgwf.budgetGrade.stageEnter.flashWrites h.startFail
      · exact .ite h.startBegin.stageEnter (.ite h.rgwf.hostLoad h.flashMount.updBoot.startBegin.stageEnter)
      · split
        · exact h.fwAbsent.hostLoad
        · split
          exacts [.ite h.firmwareRuns h.fwAbsent.hostLoad, h.fwAbsent.hostLoad]
      · exact .ite (h.stageEnter (by split <;> decide)) h.startFail
      · exact h.bist.stageEnter
      · exact h.repairLoad.stageEnter
      · exact h.lpTrain
      · exact (Keeps.ite h.updBoot h.updBoot.trainStore).stageEnter
      · exact h.weaveStage.stageEnter.wvDrain
      · exact (Keeps.ite (h.foldl fun _ _ h => h.ctxRestore) h.libraryCheck).startDone

theorem Keeps.stageTimeout {long : Bool} (h : Keeps a s) : Keeps a (stageTimeout s long) := .ite h.startFail h

theorem Keeps.aonRise {straps : Nat} (h : Keeps a s) : Keeps a (aonRise s straps) := .ite h h.updBoot

theorem Keeps.aonFall (h : Keeps a s) : Keeps a (aonFall s) :=
  h.change (hm := fun _ => rfl) (hx := fun _ => rfl) (hr := fun _ => rfl) (hs := fun _ => rfl)

theorem Keeps.mainRise (h : Keeps a s) : Keeps a (mainRise s) := .ite h (.ite h.updBoot.lifeInc.updBoot.stageFive h.updBoot.lifeInc.stageEnter)

theorem Keeps.mainFall (h : Keeps a s) : Keeps a (mainFall s) := by
  unfold Machine.mainFall
  refine .ite h ?_
  extract_lets +onlyGivenNames cut f _ s1 s2 s3 s4
  have h1 : Keeps a s1 := h.updBoot.lifeInc
  have h2 : Keeps a s2 := .ite (Keeps.ite h1.startRecord h1) h
  clear_value s2
  have h3 : Keeps a s3 := h2.smbLatch.patchCancel
  clear_value s3
  have h4 : Keeps a s4 := h3.foldl fun _ _ h => h.slotsEmpty
  clear_value s4
  extract_lets +onlyGivenNames s5 _ _ s6 _ s7
  have h6 : Keeps a s6 := h4.mainClear.change (hm := fun _ => rfl)
  clear_value s6
  have h7 : Keeps a s7 := h6.updBoot.stageEnter
  clear_value s7
  exact .ite (h7.foldl fun _ _ h => h.samplerRecord).smpFlush h7

theorem Keeps.portReady (h : Keeps a s) : Keeps a (portReady s) := .ite h.updBoot h


/-! ### Trust -/

theorem Keeps.trustEnd {b : Bytes} {st : Nat} (h : Keeps a s) : Keeps a (trustEnd s b st) := h.mboxDone

theorem Keeps.trustRecord {b : Bytes} {arg st : Nat} (h : Keeps a s) : Keeps a (trustRecord s b arg st) := h.startRecord.trustEnd

theorem Keeps.xbufPut {x : Nat} {l : Bytes} (h : Keeps a s) : Keeps a (xbufPut s x l) := h.change (hx := fun w => twf_twrite w)

theorem Keeps.runAttest {b : Bytes} (h : Keeps a s) : Keeps a (runAttest s b) := .ite h.trustEnd (.ite h.trustEnd h.xbufPut.trustEnd)

theorem Keeps.runIdentity {b : Bytes} (h : Keeps a s) : Keeps a (runIdentity s b) := .ite h.trustEnd (.ite h.trustEnd h.xbufPut.trustEnd)

theorem Keeps.enrolBurn {burns : Nat} {b : Bytes} {r : Nat} (h : Keeps a s) : Keeps a (enrolBurn burns s b r) := by
  unfold Machine.enrolBurn
  refine .ite h.trustRecord ?_
  extract_lets _ s1
  have h1 : Keeps a s1 := h.change (he := Nat.le_succ _)
  split
  · rename_i e
    exact .ite h1.trustRecord (Keeps.trustRecord (h1.change (hl := by simp [e.2])))
  · exact h1.trustRecord

theorem Keeps.runEnrol {burns : Nat} {b : Bytes} (h : Keeps a s) : Keeps a (runEnrol burns s b) := by
  unfold Machine.runEnrol
  extract_lets
  refine .ite ?_ ?_
  · exact h.trustRecord
  · split
    exacts [.ite h.trustRecord h.flsUpdate.enrolBurn, h.trustRecord]

theorem Keeps.runFwload {b : Bytes} (h : Keeps a s) : Keeps a (runFwload s b) := by
  unfold Machine.runFwload
  refine .ite ?_ ?_
  · exact h.trustEnd
  · extract_lets
    split
    exacts [.ite h.trustEnd.updBoot.startRecord h.trustEnd.heldEnd.firmwareRuns, h.trustEnd]

theorem Keeps.runFwstore {b : Bytes} (h : Keeps a s) : Keeps a (runFwstore s b) := .ite h.trustRecord (.ite h.trustRecord h.flsUpdate.trustRecord)

theorem Keeps.runSvnRaise {burns : Nat} {b : Bytes} (h : Keeps a s) : Keeps a (runSvnRaise burns s b) :=
  .ite h.trustRecord (.trustRecord (h.change (hv := by simp)))

theorem Keeps.runStart {b : Bytes} (h : Keeps a s) : Keeps a (runStart s b) := .ite h.trustEnd h.trustEnd.heldEnd.updBoot.startBegin.stageEnter


/-! ### HostPort -/

theorem Keeps.rdReply {status : Nat} {data : Bytes} (h : Keeps a s) : Keeps a (rdReply s status data) := h.upd

theorem Keeps.hpPort (h : Keeps a s) : Keeps a (hpPort s) := h.rgwb

theorem Keeps.hpErr {a' : Nat} (h : Keeps a s) : Keeps a (hpErr s a') := h.upd

theorem Keeps.hpUe {a' : Nat} (h : Keeps a s) : Keeps a (hpUe s a') := .ite h.faultUe.lpZero (.ite h.tierMiss h.faultUe)

theorem Keeps.hpMeet {a' n : Nat} {meets : List (Nat × Bool)} (h : Keeps a s) : Keeps a (hpMeet s a' n meets) :=
  h.foldl fun _ _ h => .ite h.tierStrike (.ite h.lpCe (.ite h.bankMeet h.sramCorrected))

theorem Keeps.unitRead {a' : Nat} {hit : RqHit} (h : Keeps a s) : Keeps a (unitRead s a' hit).2 := by
  unfold Machine.unitRead
  split
  · exact h.rqData
  · exact h.smpAperture
  · split
    exacts [h, h.regRead]

theorem Keeps.unitsRead {l : List Nat} {hit : RqHit} (h : Keeps a s) : Keeps a (unitsRead l s hit).2 := by
  induction l generalizing s with
  | nil => exact h
  | cons x l ih => exact ih h.unitRead

theorem Keeps.hpRead {addr len : Nat} {hit : RqHit} {meets : List (Nat × Bool)} (h : Keeps a s) : Keeps a (hpRead s addr len hit meets).2.2 := by
  unfold Machine.hpRead
  extract_lets
  split
  · exact h.hpErr
  · split
    exacts [h, h.unitsRead]
  · exact h
  · split
    · exact h
    · extract_lets
      split
      · exact h.lpCount.hpMeet.hpUe.hpErr
      · split
        · split
          exacts [h.lpCount.hpMeet.hpErr, h.lpCount.hpMeet]
        · exact h.lpCount.hpMeet

theorem Keeps.rdDeliver {status : Nat} {data : Bytes} (h : Keeps a s) : Keeps a (rdDeliver s status data) := (Keeps.ite h.hpPort h).rdReply

theorem Keeps.rdAnswer {addr len status : Nat} {data : Bytes} {ready early : Bool} (h : Keeps a s) :
    Keeps a (rdAnswer s addr len status data ready early) := .ite h.upd.upd (.ite h.upd.rdDeliver h.upd.bump.rdReply)

theorem Keeps.rdFail {len status : Nat} {early : Bool} (h : Keeps a s) : Keeps a (rdFail s len status early) := .ite h.hpPort.upd h.rdDeliver

theorem Keeps.hpRd {addr len crc : Nat} {ready early : Bool} {hit : RqHit} {meets : List (Nat × Bool)} (h : Keeps a s) :
    Keeps a (hpRd s addr len crc ready early hit meets) := by
  unfold Machine.hpRd
  refine .ite ?_ ?_
  · exact h.bump.upd.rdFail
  · split
    exacts [.ite h.rdAnswer (.ite h.upd h.rdReply), .ite h.hpRead.rdFail h.hpRead.rdAnswer]

theorem Keeps.wstat {i : Nat} (h : Keeps a s) : Keeps a (wstat s i) := h.rgwb.hpPort

theorem Keeps.wrCount (h : Keeps a s) : Keeps a (wrCount s) := h.rgwf

theorem Keeps.unitWrite {a' v : Nat} (h : Keeps a s) : Keeps a (unitWrite s a' v) := by
  unfold Machine.unitWrite
  refine .ite ?_ ?_
  · exact h
  · split
    exacts [h, h.regWrite]

theorem Keeps.stagingWrite {a' : Nat} {data : Bytes} (h : Keeps a s) : Keeps a (stagingWrite s a' data) := by
  unfold Machine.stagingWrite
  split
  exacts [h.faultUe.hpErr, h.memW]

theorem Keeps.hpWr {addr len : Nat} {data : Bytes} {crc : Nat} {cut full : Bool} (h : Keeps a s) : Keeps a (hpWr s addr len data crc cut full) := by
  unfold Machine.hpWr
  extract_lets
  refine .ite h (.ite h.wstat.upd.bump (.ite h.wstat.upd.bump ?_))
  split
  · exact h.wstat.hpErr
  · exact .ite h.wstat.hpErr (h.foldl fun _ _ h => h.unitWrite).wrCount
  · exact .wrCount (h.change (hx := fun w => twf_twrite w))
  · exact .ite h.wstat.hpErr (.ite h.wstat.hpErr h.stagingWrite.wrCount)

theorem Keeps.hpRdsr {complete free : Bool} (h : Keeps a s) : Keeps a (hpRdsr s complete free) := h.upd

theorem Keeps.hpRdid (h : Keeps a s) : Keeps a (hpRdid s) := h.upd

theorem Keeps.hpTrans {f : State → State} (h : Keeps a s) (hf : ∀ t, Keeps a t → Keeps a (f t)) : Keeps a (hpTrans s f) := .ite (hf _ h.upd.cinc) h

theorem Keeps.hpRst {armed : Bool} (h : Keeps a s) : Keeps a (hpRst s armed) := .ite h.upd h.upd.bump

theorem Keeps.unknownOp (h : Keeps a s) : Keeps a (unknownOp s) := by
  unfold Machine.unknownOp
  split
  exacts [h, .ite h h.upd.mboxDone]


/-! ### TierMoves -/

theorem Keeps.segCopy {n : Nat} {m : Nat × Nat} (h : Keeps a s) : Keeps a (segCopy s n m) := by
  unfold Machine.segCopy
  extract_lets _ s1 _
  have h1 : Keeps a s1 := by
    unfold s1
    split
    exacts [h.tierMiss, h]
  exact h1.upd.memW.foldl fun _ _ h => h.strike

theorem Keeps.lgMove {a' lg : Nat} {h' : Hist} {places : List (Nat × Nat)} (h : Keeps a s) : Keeps a (lgMove s a' lg h' places) :=
  ((h.foldl fun _ _ h => h.segCopy).foldl fun _ _ h => h.memW).upd.bump.tierRecord

theorem Keeps.lgMigrate {a' lg : Nat} {hits : List EngHit} (h : Keeps a s) : Keeps a (lgMigrate s a' lg hits) := by
  unfold Machine.lgMigrate
  split
  · exact h
  · extract_lets
    refine .ite ?_ ?_
    · exact h
    · split
      exacts [h.hitsStrike.lgMove, h]


/-! ### WeaveCmds -/

theorem Keeps.weaveEnd {b : Bytes} {event status : Nat} (h : Keeps a s) : Keeps a (weaveEnd s b event status) := h.wvRecord.mboxDone

theorem Keeps.weaveFail {b : Bytes} {status : Nat} (h : Keeps a s) : Keeps a (weaveFail s b status) := h.weaveEnd

theorem Keeps.weaveRead {b : Bytes} (h : Keeps a t) : Keeps a (weaveRead s t b) := h.lpCount

theorem Keeps.runWstore {bad : Bool} {b : Bytes} (h : Keeps a s) : Keeps a (runWstore bad s b) := by
  unfold Machine.runWstore
  refine .ite ?_ ?_
  · exact h.weaveFail
  · split
    · exact h.weaveFail
    · refine Keeps.weaveRead ?_
      split
      exacts [h.weaveFail, .ite h.weaveFail (.ite h.fUnitPut.weaveEnd.startReset h.fUnitPut.weaveEnd)]

theorem Keeps.runWpatch {bad : Bool} {b : Bytes} (h : Keeps a s) : Keeps a (runWpatch bad s b) := by
  unfold Machine.runWpatch
  refine .ite ?_ ?_
  · exact h.weaveFail
  · refine .ite ?_ ?_
    · exact h.weaveFail
    · split
      · exact h.weaveFail
      · refine Keeps.weaveRead ?_
        split
        exacts [h.weaveFail, (h.foldl fun _ _ h => h.wvRecord).upd]

theorem Keeps.runWquery {b : Bytes} (h : Keeps a s) : Keeps a (runWquery s b) := .ite h.weaveFail h.weaveEnd

theorem Keeps.patchDrop {p : Patch} (h : Keeps a s) : Keeps a (patchDrop s p) := h.upd.weaveEnd

theorem Keeps.runWcancel {b : Bytes} (h : Keeps a s) : Keeps a (runWcancel s b) := by
  unfold Machine.runWcancel
  refine .ite ?_ ?_
  · exact h.weaveFail
  · split
    exacts [h.weaveFail, .ite h.weaveFail h.patchDrop.weaveEnd]

theorem Keeps.patchSwitch (h : Keeps a s) : Keeps a (patchSwitch s) := by
  unfold Machine.patchSwitch
  split
  exacts [h, .ite h h.upd.epochAdvance.patchRun.ringUpdate.wvRecord.mboxDone]


/-! ### Tick -/

theorem Keeps.tclkEdges {p : Nat} (h : Keeps a s) : Keeps a (tclkEdges s p).2 := h.upd

theorem Keeps.tileTick {p n l : Nat} (h : Keeps a s) : Keeps a (tileTick p n s l) := 
  .ite h ((((h.cinc.cinc.when fun h => h.cinc).when fun h => h.bumpDiv).foldl fun _ _ h => .ite h h.cinc).when
    fun h => h.cinc.cinc.bumpDiv)

theorem Keeps.partTick {p : Nat} (h : Keeps a s) : Keeps a (partTick s p) := by
  unfold Machine.partTick
  refine .ite ?_ ?_
  · exact h
  · split
    · rename_i _ t e
      have h1 : Keeps a t := Keeps.snd e <| by
        split
        exacts [h.cinc.tclkEdges, h.cinc]
      exact h1.foldl fun _ _ h => h.tileTick

theorem Keeps.gtTick (h : Keeps a s) : Keeps a (gtTick s) := .ite h.upd h.upd

theorem Keeps.unitsTick (h : Keeps a s) : Keeps a (unitsTick s) := h.enginesAll.sitesOut.stampsRead

theorem Keeps.tick (h : Keeps a s) : Keeps a (tick s) := 
  .ite h ((((h.unitsTick.demandNow.foldl fun _ _ h => h.partTick).foldl fun _ _ h => h.idleSlot).gtTick.when
    fun h => h.cinc).when fun h => h.smbSample)

/-! ### Every command, and the step -/

/-- Every command answers a next state and keeps. -/
theorem Keeps.exec (h : Keeps a s) (c : Instr) : ∃ t, exec c s = .next t ∧ Keeps a t := by
  cases c with
  | frameReceive => exact ⟨_, rfl, h.macReceive⟩
  | pfcFrameReceive => exact ⟨_, rfl, (.ite h.macReceive h)⟩
  | endStatus => exact ⟨_, rfl, h.endStatus⟩
  | pipeDescriptor => exact ⟨_, rfl, h.pipeTake⟩
  | latencyBoundExpiry => exact ⟨_, rfl, h.latencyExpiry⟩
  | bankRead => exact ⟨_, rfl, h.bankRead⟩
  | bankWrite => exact ⟨_, rfl, h.bankWrite⟩
  | probe =>
    simp only [Machine.exec, execProbe]
    split
    exacts [⟨_, rfl, h.lookup⟩, ⟨_, rfl, h⟩]
  | commit => exact ⟨_, rfl, h.bankCommit⟩
  | age => exact ⟨_, rfl, h.ageBucket⟩
  | scanPassStart => exact ⟨_, rfl, h.scanStart⟩
  | insertTokenAccrue => exact ⟨_, rfl, h.sharePut⟩
  | moveTokenAccrue =>
    simp only [Machine.exec, execMoveTokenAccrue]
    split
    exacts [⟨_, rfl, h⟩, ⟨_, rfl, h.sharePut⟩]
  | score => exact ⟨_, rfl, h.bankPump.bankScore⟩
  | value => exact ⟨_, rfl, h.bankPump.bankValue⟩
  | bankTopk => exact ⟨_, rfl, h.bankPump.bankTopk⟩
  | dot => exact ⟨_, rfl, h.bankPump.bankDot⟩
  | bankXpose => exact ⟨_, rfl, h.bankPump.bankXpose⟩
  | append => exact ⟨_, rfl, h.bankPump.bankAppend⟩
  | migrationCopy => exact ⟨_, rfl, h.migrationCopy⟩
  | patrolScrub => exact ⟨_, rfl, h.patrolScrub⟩
  | bankRemap => exact ⟨_, rfl, h.bankRemap⟩
  | bankRefresh => exact ⟨_, rfl, h.bankRefresh⟩
  | activationWindow => exact ⟨_, rfl, h.activationWindow⟩
  | lgMigrate => exact ⟨_, rfl, h.lgMigrate⟩
  | requestAdmit => exact ⟨_, rfl, h.requestAdmit⟩
  | nop => exact ⟨_, rfl, h.issueRow⟩
  | take => exact ⟨_, rfl, h.issueRow⟩
  | post => exact ⟨_, rfl, h.issueRow⟩
  | kset => exact ⟨_, rfl, h.issueRow⟩
  | commandComplete => exact ⟨_, rfl, h.commandComplete.enginesPump⟩
  | teardown => exact ⟨_, rfl, h.ctxCommand⟩
  | ctxFault => exact ⟨_, rfl, h.ctxCommand⟩
  | knotRead => exact ⟨_, rfl, h.ctxCommand⟩
  | knotWrite => exact ⟨_, rfl, h.ctxCommand⟩
  | quiesceEnd => exact ⟨_, rfl, h.quiesceEnd⟩
  | quiesceTimeout => exact ⟨_, rfl, h.quiesceTimeout.enginesPump⟩
  | matmul => exact ⟨_, rfl, h.issueRun⟩
  | eval => exact ⟨_, rfl, h.issueRun⟩
  | stream => exact ⟨_, rfl, h.issueRun⟩
  | passStart => exact ⟨_, rfl, h.passStart.enginesPump⟩
  | passChunk => exact ⟨_, rfl, h.hitsStrike.passChunk.enginesPump⟩
  | ew => exact ⟨_, rfl, h.issueRun⟩
  | fma => exact ⟨_, rfl, h.issueRun⟩
  | reduce => exact ⟨_, rfl, h.issueRun⟩
  | softmax => exact ⟨_, rfl, h.issueRun⟩
  | norm => exact ⟨_, rfl, h.issueRun⟩
  | lut => exact ⟨_, rfl, h.issueRun⟩
  | quant => exact ⟨_, rfl, h.issueRun⟩
  | dequant => exact ⟨_, rfl, h.issueRun⟩
  | combine => exact ⟨_, rfl, h.issueRun⟩
  | convert => exact ⟨_, rfl, h.issueRun⟩
  | copy => exact ⟨_, rfl, h.issueRun⟩
  | gather => exact ⟨_, rfl, h.issueRun⟩
  | scatter => exact ⟨_, rfl, h.issueRun⟩
  | transpose => exact ⟨_, rfl, h.issueRun⟩
  | fill => exact ⟨_, rfl, h.issueRun⟩
  | attend => exact ⟨_, rfl, h.issueRun⟩
  | topk => exact ⟨_, rfl, h.issueRun⟩
  | happend => exact ⟨_, rfl, h.issueRun⟩
  | gemv => exact ⟨_, rfl, h.issueRun⟩
  | xpose => exact ⟨_, rfl, h.issueRun⟩
  | resultRecord => exact ⟨_, rfl, h.vdTake⟩
  | refusalVerdict => exact ⟨_, rfl, h.vdTake⟩
  | ledgerHoldExpiry => exact ⟨_, rfl, h.ledgerHold⟩
  | sampleWindowEnd => exact ⟨_, rfl, h.sampleWindowEnd⟩
  | schedulerDecision => exact ⟨_, rfl, h.schedule⟩
  | dequeueEnd => exact ⟨_, rfl, h.dequeueEnd⟩
  | pauseExpiry => exact ⟨_, rfl, h.pauseExpire⟩
  | sampleSweep => exact ⟨_, rfl, h.sampleSweep⟩
  | laneFail => exact ⟨_, rfl, h.laneFail⟩
  | recordAccept => exact ⟨_, rfl, h.recordAccept⟩
  | apertureRead => exact ⟨_, rfl, h.rqData.upd⟩
  | rqMark => exact ⟨_, rfl, h.rqCommand⟩
  | rqRewind => exact ⟨_, rfl, h.rqCommand⟩
  | rqRelease => exact ⟨_, rfl, h.rqCommand⟩
  | rqMarkRelease => exact ⟨_, rfl, h.rqCommand⟩
  | rqFlush => exact ⟨_, rfl, h.rqCommand⟩
  | cellReclaim => exact ⟨_, rfl, h.rqReclaim⟩
  | grnInsert => exact ⟨_, rfl, h.grnCommand⟩
  | grnDelete => exact ⟨_, rfl, h.grnCommand⟩
  | grnRead => exact ⟨_, rfl, h.grnCommand⟩
  | grnPin => exact ⟨_, rfl, h.grnCommand⟩
  | grnUnpin => exact ⟨_, rfl, h.grnCommand⟩
  | grnFlush => exact ⟨_, rfl, h.grnCommand⟩
  | grnCfgWrite => exact ⟨_, rfl, h.grnCfgWrite.epochAdvance⟩
  | grnEvictSeedWrite => exact ⟨_, rfl, h.evictSeedWrite.epochAdvance⟩
  | tmAqmSeedWrite => exact ⟨_, rfl, h.aqmSeedWrite.epochAdvance⟩
  | policerCfgWrite => exact ⟨_, rfl, h.policerWrite.epochAdvance⟩
  | shaperCfgWrite => exact ⟨_, rfl, h.shaperWrite.epochAdvance⟩
  | load => exact ⟨_, rfl, (.ite (h.mboxRun fun _ _ h => h.runLoad) h)⟩
  | arm => exact ⟨_, rfl, h.mboxRun fun _ _ h => h.runArm⟩
  | unload => exact ⟨_, rfl, h.mboxRun fun _ _ h => h.runUnload⟩
  | libstore => exact ⟨_, rfl, (.ite (h.mboxRun fun _ _ h => h.runLibstore) h)⟩
  | libdelete => exact ⟨_, rfl, h.mboxRun fun _ _ h => h.runLibdelete⟩
  | chanOpen => exact ⟨_, rfl, h.mboxRun fun _ _ h => h.runChanOpen⟩
  | chanClose => exact ⟨_, rfl, h.mboxRun fun _ _ h => h.runChanClose⟩
  | chunkFrame => exact ⟨_, rfl, h.chunkFrame⟩
  | channelTimeout => exact ⟨_, rfl, h.channelTimeout⟩
  | slotCommit => exact ⟨_, rfl, h.slotCommit⟩
  | forcedCommit => exact ⟨_, rfl, h.forcedCommit⟩
  | drainEnd => exact ⟨_, rfl, h.drainEnd⟩
  | reqMessage => exact ⟨_, rfl, h.flitsIn fun _ _ _ h => h.msgIn⟩
  | rspMessage => exact ⟨_, rfl, h.flitsIn fun _ _ _ h => h.msgIn⟩
  | headMessage => exact ⟨_, rfl, h.flitsIn fun _ _ _ h => h.msgIn⟩
  | loadMessage => exact ⟨_, rfl, h.flitsIn fun _ _ _ h => h.msgIn⟩
  | liveMessage => exact ⟨_, rfl, h.flitsIn fun _ _ _ h => h.liveIn⟩
  | liveSend => exact ⟨_, rfl, h.liveSend⟩
  | peerLost => exact ⟨_, rfl, h.peerLost⟩
  | peerBack => exact ⟨_, rfl, h.peerBack⟩
  | fwdExpire => exact ⟨_, rfl, h.fwdExpire⟩
  | retrain => exact ⟨_, rfl, h.retrain⟩
  | plLaneFail => exact ⟨_, rfl, h.plLaneFail⟩
  | linkUp => exact ⟨_, rfl, h.plLinkUp⟩
  | windowBoundary => exact ⟨_, rfl, h.windowBoundary⟩
  | stepGlideEnd => exact ⟨_, rfl, h.stepGlideEnd⟩
  | pwrLimitChange => exact ⟨_, rfl, h.upd⟩
  | pwrCapWrite => exact ⟨_, rfl, h.rgw⟩
  | droop => exact ⟨_, rfl, h.droop⟩
  | sensorSample => exact ⟨_, rfl, h.sensorSample⟩
  | pwrFailAssert => exact ⟨_, rfl, h.pwrFailAssert⟩
  | pwrFailDeassert => exact ⟨_, rfl, h.pwrFailDeassert⟩
  | engineHang => exact ⟨_, rfl, h.engineHang⟩
  | pipeSteer => exact ⟨_, rfl, h.pipeSteer⟩
  | pipeReplayEnd => exact ⟨_, rfl, h.pipeReplayEnd⟩
  | tmHang => exact ⟨_, rfl, h.tmHang⟩
  | pairMismatch => exact ⟨_, rfl, h.pairFail⟩
  | pllLossOfLock => exact ⟨_, rfl, h.pllLoss⟩
  | islandVoteDisagree => exact ⟨_, rfl, h.islandDisagree⟩
  | islandResyncEnd => exact ⟨_, rfl, h.islandResync⟩
  | islandWatchdog => exact ⟨_, rfl, h.islandWatchdog⟩
  | siteFail => exact ⟨_, rfl, h.siteFail⟩
  | regionRestoreEnd => exact ⟨_, rfl, h.regionRestoreEnd⟩
  | lpChannelRetire => exact ⟨_, rfl, h.lpRetire⟩
  | escalationTimeout => exact ⟨_, rfl, h.escalationTimeout⟩
  | engineReset => exact ⟨_, rfl, h.fltCommand⟩
  | partReset => exact ⟨_, rfl, h.fltCommand⟩
  | chipReset => exact ⟨_, rfl, h.fltCommand⟩
  | capture => exact ⟨_, rfl, h.fltCommand⟩
  | captureEnd => exact ⟨_, rfl, h.captureEnd⟩
  | flashReadComplete => exact ⟨_, rfl, h.flashRead⟩
  | programComplete => exact ⟨_, rfl, h.flashProgram⟩
  | eraseComplete => exact ⟨_, rfl, h.flashErase⟩
  | flashPatrol => exact ⟨_, rfl, h.flashPatrol⟩
  | lifeCommit => exact ⟨_, rfl, h.lifeCommit⟩
  | captureCopy => exact ⟨_, rfl, h.flashCapCopy⟩
  | lifeFetch => exact ⟨_, rfl, h.flsCommand⟩
  | captureFetch => exact ⟨_, rfl, h.flsCommand⟩
  | patrolNow => exact ⟨_, rfl, h.flsCommand⟩
  | samplerRecord => exact ⟨_, rfl, h.samplerRecord⟩
  | logPageCommit => exact ⟨_, rfl, h.logPageCommit⟩
  | samplerRead => exact ⟨_, rfl, h.smpAperture.upd⟩
  | logPageFetch => exact ⟨_, rfl, h.logPageFetch⟩
  | seek => exact ⟨_, rfl, h.smpCommand⟩
  | oldest => exact ⟨_, rfl, h.smpCommand⟩
  | newest => exact ⟨_, rfl, h.smpCommand⟩
  | counterRead => exact ⟨_, rfl, h.counterRead.upd⟩
  | obsClear => exact ⟨_, rfl, h.obsCommand⟩
  | snapshot => exact ⟨_, rfl, h.obsCommand⟩
  | snapshotPeriod => exact ⟨_, rfl, h.snapshotDue⟩
  | wstore => exact ⟨_, rfl, h.mboxRun fun _ _ h => h.runWstore⟩
  | wpatch => exact ⟨_, rfl, h.mboxRun fun _ _ h => h.runWpatch⟩
  | wquery => exact ⟨_, rfl, h.mboxRun fun _ _ h => h.runWquery⟩
  | wcancel => exact ⟨_, rfl, h.mboxRun fun _ _ h => h.runWcancel⟩
  | patchSwitch => exact ⟨_, rfl, h.patchSwitch⟩
  | digestGraceEnd => exact ⟨_, rfl, h.digestGraceEnd⟩
  | pgoodAonRise => exact ⟨_, rfl, h.aonRise⟩
  | pgoodMainRise => exact ⟨_, rfl, h.mainRise⟩
  | pgoodMainFall => exact ⟨_, rfl, h.mainFall⟩
  | startStageEnd => exact ⟨_, rfl, h.stageEnd⟩
  | stageTimeout => exact ⟨_, rfl, h.stageTimeout⟩
  | attest => exact ⟨_, rfl, h.mboxRun fun _ _ h => h.runAttest⟩
  | identity => exact ⟨_, rfl, h.mboxRun fun _ _ h => h.runIdentity⟩
  | enrol => exact ⟨_, rfl, h.mboxRun fun _ _ h => h.runEnrol⟩
  | revoke => exact ⟨_, rfl, h.mboxRun fun _ _ h => h.runEnrol⟩
  | fwload => exact ⟨_, rfl, h.mboxRun fun _ _ h => h.runFwload⟩
  | fwstore => exact ⟨_, rfl, h.mboxRun fun _ _ h => h.runFwstore⟩
  | svnRaise => exact ⟨_, rfl, h.mboxRun fun _ _ h => h.runSvnRaise⟩
  | start => exact ⟨_, rfl, h.mboxRun fun _ _ h => h.runStart⟩
  | rd => exact ⟨_, rfl, h.hpTrans fun _ h => h.hpRd⟩
  | wr => exact ⟨_, rfl, h.hpTrans fun _ h => h.hpWr⟩
  | rdsr => exact ⟨_, rfl, h.hpTrans fun _ h => h.hpRdsr⟩
  | rdid => exact ⟨_, rfl, h.hpTrans fun _ h => h.hpRdid⟩
  | rsten => exact ⟨_, rfl, h.hpTrans fun _ h => h.upd⟩
  | rst => exact ⟨_, rfl, h.hpTrans fun _ h => h.hpRst⟩
  | mailboxDoorbell => exact ⟨_, rfl, h.doorbell⟩
  | unknownOp => exact ⟨_, rfl, h.unknownOp⟩
  | mailboxDoneRead => exact ⟨_, rfl, h.mboxPop.upd⟩
  | epochRead => exact ⟨_, rfl, h.epochRead.upd⟩
  | globalTimeRead => exact ⟨_, rfl, h.timeRead.upd⟩
  | registerWrite =>
    simp only [Machine.exec, execRegisterWrite]
    split
    exacts [⟨_, rfl, h.regWrite⟩, ⟨_, rfl, h⟩]
  | time1ppsEdge => exact ⟨_, rfl, h.ppsEdge⟩
  | smbusReadWord => exact ⟨_, rfl, h.smbReadWord⟩
  | smbusBlockRead => exact ⟨_, rfl, h.smbBlockRead⟩
  | smbusAlertResponse => exact ⟨_, rfl, h.smbAlertResponse⟩
  | fpLinkUp => exact ⟨_, rfl, h.fpLinkUp⟩
  | flitCrcError => exact ⟨_, rfl, h.flitError⟩
  | idleFlit => exact ⟨_, rfl, h.idleFlit⟩
  | stretchEnd => exact ⟨_, rfl, h.stretchEnd⟩
  | sramPatrolScrub => exact ⟨_, rfl, h.sramPatrol⟩
  | lpPatrolScrub => exact ⟨_, rfl, h.lpPatrol⟩
  | lpPeriodicRetrain => exact ⟨_, rfl, h.lpRetrain⟩
  | timeSourceChange => exact ⟨_, rfl, h.timeChange⟩
  | hostPortReady => exact ⟨_, rfl, h.portReady⟩
  | cellPoolReclaim => exact ⟨_, rfl, h.cellPoolReclaim⟩
  | pgoodAonFall => exact ⟨_, rfl, h.aonFall⟩
  | traceQueueDrain => exact ⟨_, rfl, h.traceDrain⟩
  | retentionRefresh => exact ⟨_, rfl, h.retentionRefresh⟩

/-- Taking the front command from the queue touches nothing else. -/
theorem fusesKept_pending {s : State} {l : List Instr} : fusesKept s { s with pending := l } := ⟨le_rfl, le_rfl, le_rfl⟩

/-- Settles O60: a nanosecond and every command keep (`Keeps.tick`, `Keeps.exec`), on the state without its front command. -/
theorem stepKeepsInvariant : Obligations.StepKeepsInvariant := by
  intro s
  unfold step
  split
  · rename_i hp
    have h := (Keeps.refl s).tick
    exact ⟨_, rfl, by rw [h.pending, hp]; rfl, h.fuses, h.inv⟩
  · rename_i c rest hp
    obtain ⟨t, e, h⟩ := (Keeps.refl { s with pending := rest }).exec c
    exact ⟨t, e, by rw [h.pending, hp]; rfl, h.fuses, h.inv⟩

end Sys2Proof.Machine
end

section
/-! PROOFS. The mailbox, the registers that latch, one register write (O56), and the rules for bits, registers and the epoch that they rest on. -/

namespace Sys2Proof.Machine

open Sys2Proof

-- One declaration after the other: the whole text is checked within a fixed memory.
set_option Elab.async false

variable {s t : State}

/-! ### Bits of a field -/

/-- A number with a field replaced: what lies below the field, the field, what lies above. -/
theorem putBits_eq {w hi lo v : Nat} (h : lo ≤ hi + 1) :
    putBits w hi lo v = 2 ^ lo * (2 ^ (hi + 1 - lo) * (w / 2 ^ (hi + 1)) + v % 2 ^ (hi + 1 - lo)) + w % 2 ^ lo := by
  have hup : w / 2 ^ lo / 2 ^ (hi + 1 - lo) = w / 2 ^ (hi + 1) := by rw [Nat.div_div_eq_div_mul, ← pow_add, Nat.add_sub_cancel' h]
  have hlow := Nat.div_add_mod w (2 ^ lo)
  have hfld := Nat.div_add_mod (w / 2 ^ lo) (2 ^ (hi + 1 - lo))
  rw [hup] at hfld
  rw [putBits, bits_eq_div]
  generalize w / 2 ^ lo % 2 ^ (hi + 1 - lo) = f at *
  rw [← hfld] at hlow
  conv_lhs => rw [← hlow]
  ring_nf
  omega

/-- A bit of a number with a field replaced. -/
theorem testBit_putBits {w hi lo v i : Nat} (h : lo ≤ hi + 1) :
    (putBits w hi lo v).testBit i = if lo ≤ i ∧ i ≤ hi then v.testBit (i - lo) else w.testBit i := by
  rw [putBits_eq h, Nat.testBit_two_pow_mul_add _ (Nat.mod_lt _ (by positivity)), Nat.testBit_two_pow_mul_add _ (Nat.mod_lt _ (by positivity))]
  by_cases hlo : i < lo
  · simp [hlo, Nat.testBit_mod_two_pow, show ¬ (lo ≤ i ∧ i ≤ hi) by omega]
  by_cases hhi : i ≤ hi
  · simp [hlo, Nat.testBit_mod_two_pow, show lo ≤ i ∧ i ≤ hi by omega, show i - lo < hi + 1 - lo by omega]
  · simp [hlo, hhi, Nat.testBit_div_two_pow, show ¬ i - lo < hi + 1 - lo by omega, show i - lo - (hi + 1 - lo) + (hi + 1) = i by omega]

/-- A bit of a register just set or cleared reads as it was written. -/
@[simp] theorem rgb_rgwb_same (s : State) (a : Nat) {i : Nat} (v : Bool) (h : i < 32) : rgb (rgwb s a i v) a i = v := by
  rw [rgb, rgwb, rgwf, rg_rgw_same, bit, Nat.testBit_mod_two_pow, testBit_putBits (by omega)]
  cases v <;> simp [h]

/-! ### What a register write leaves -/

theorem regsBut_rgw (s : State) (a v : Nat) : regsBut s (rgw s a v) [a] := fun _ hb => rg_rgw_other s v (by simpa [eq_comm] using hb)

theorem regsBut_rgwb (s : State) (a i : Nat) (v : Bool) : regsBut s (rgwb s a i v) [a] := regsBut_rgw _ _ _

theorem rgwb_frame (s : State) (a i : Nat) (v : Bool) : rgwb s a i v = { s with regs := (rgwb s a i v).regs } := rfl

theorem leBytes_mod (n v : Nat) : leBytes n (v % 256 ^ n) = leBytes n v := by
  induction n generalizing v with
  | zero => rfl
  | succ n ih =>
    rw [leBytes, leBytes, pow_succ', Nat.mod_mul_right_div_self, ih]
    congr 1
    exact BitVec.eq_of_toNat_eq (by simp [Nat.mod_mod_of_dvd])

theorem leBytes_four_zero : leBytes 4 0 = [0, 0, 0, 0] := by decide

/-! ### The epoch (R428) -/

/-- An advance of the epoch touches its register, its time and its cause. -/
theorem epochAdvance_frame (s : State) (cause : Nat) : epochAdvance s cause =
    { s with regs := (epochAdvance s cause).regs, epochAt := (epochAdvance s cause).epochAt, epochCause := (epochAdvance s cause).epochCause } := by
  unfold epochAdvance
  split <;> rfl

theorem rg_epochAdvance_other (s : State) (cause : Nat) {a : Nat} (h : a ≠ rGLB_EPOCH) : rg (epochAdvance s cause) a = rg s a := by
  unfold epochAdvance
  split
  · rfl
  · exact rg_rgw_other _ _ h.symm

theorem epochMoved_epochAdvance (s : State) (cause : Nat) : epochMoved s (epochAdvance s cause) cause := by
  unfold epochMoved epochAdvance
  split
  · exact ⟨rfl, rfl⟩
  · exact ⟨by rw [rg_rgw_same, Nat.mod_mod]; rfl, rfl⟩

/-! ### One register write (R9) -/

/-- A register that is plain storage. -/
def plainBlock (b : Block) : Prop := b ∈ [Block.pipe, .bind, .shf, .thr, .pll, .pwr, .glb, .lp]

theorem regWrite_plain {r v : Nat} {b : Block} {i o : Nat} {row : RegRow} (hd : decodeReg r = some (b, i, o)) (hr : regRow r = some row)
    (hf : siteFrozen s b i = false) (hb : plainBlock b) : regWrite s r v = rowWrite s r v row := by
  simp only [regWrite, hd, hr, hf, Bool.false_eq_true, if_false]
  simp only [plainBlock, List.mem_cons, List.not_mem_nil, or_false] at hb
  rcases hb with rfl | rfl | rfl | rfl | rfl | rfl | rfl | rfl <;> rfl

theorem regWrite_frozen {r v : Nat} {b : Block} {i o : Nat} (hd : decodeReg r = some (b, i, o)) (hf : siteFrozen s b i = true ∨ regRow r = none) :
    regWrite s r v = s := by
  cases hr : regRow r with
  | none => simp [regWrite, hd, hr]
  | some row => simp [regWrite, hd, hr, hf.resolve_right (by simp [hr])]

/-- A row without an epoch advance: the register alone. -/
theorem rowWrite_of_not_live {r v : Nat} {row : RegRow} (h : row.live = false) :
    rowWrite s r v row = rgw s r (mergeBits (rg s r) v row.rw - (mergeBits (rg s r) v row.rw &&& (v &&& row.w1c))) := by
  simp [rowWrite, h]

theorem rowWrite_of_live {r v : Nat} {row : RegRow} (h : row.live = true) :
    rowWrite s r v row = epochAdvance (rgw s r (mergeBits (rg s r) v row.rw - (mergeBits (rg s r) v row.rw &&& (v &&& row.w1c)))) 3 := by
  simp [rowWrite, h]

/-- What a row stores, and what it leaves. -/
theorem rowWrite_stores {r v : Nat} {row : RegRow} (hr : r ≠ rGLB_EPOCH) :
    (let x := mergeBits (rg s r) v row.rw
     rg (rowWrite s r v row) r = (x - (x &&& (v &&& row.w1c))) % 2 ^ 32) ∧
    (row.live = false → regsBut s (rowWrite s r v row) [r] ∧ rowWrite s r v row = { s with regs := (rowWrite s r v row).regs }) ∧
    (row.live = true → regsBut s (rowWrite s r v row) [r, rGLB_EPOCH] ∧ epochMoved s (rowWrite s r v row) 3 ∧
      rowWrite s r v row = { s with regs := (rowWrite s r v row).regs, epochAt := (rowWrite s r v row).epochAt, epochCause := (rowWrite s r v row).epochCause }) := by
  cases h : row.live with
  | false =>
    rw [rowWrite_of_not_live h]
    exact ⟨rg_rgw_same _ _ _, fun _ => ⟨regsBut_rgw _ _ _, rfl⟩, nofun⟩
  | true =>
    rw [rowWrite_of_live h]
    refine ⟨by rw [rg_epochAdvance_other _ _ hr, rg_rgw_same], nofun, fun _ => ⟨fun a ha => ?_, ?_, ?_⟩⟩
    · simp only [List.mem_cons, List.not_mem_nil, or_false, not_or] at ha
      rw [rg_epochAdvance_other _ _ ha.2, rg_rgw_other _ _ (Ne.symm ha.1)]
    · have := epochMoved_epochAdvance (rgw s r (mergeBits (rg s r) v row.rw - (mergeBits (rg s r) v row.rw &&& (v &&& row.w1c)))) 3
      rwa [epochMoved, rg_rgw_other _ _ hr] at this
    · exact epochAdvance_frame _ _

/-! ### The mailbox (R417) -/

theorem doorbell_full (h : 16 ≤ mboxPending s) : doorbell s = rgwb s rHP_MBOX_STATUS 30 true := if_pos h

theorem doorbell_room (h : mboxPending s < 16) : doorbell s =
    { s with mbox := { s.mbox with queue := s.mbox.queue ++ [(List.range 16).flatMap fun i => leBytes 4 (rg s (rHP_MBOX_CMD i))] } } :=
  if_neg (by omega)

theorem unknownOp_idle (h : mboxHead s = none) : unknownOp s = s := by simp only [unknownOp, h]

/-- An OP of the tables waits for its own command. -/
theorem unknownOp_known {b : Bytes} (hb : mboxHead s = some b) (h : opKnown (byteAt b 0) = true) : unknownOp s = s := by
  simp [unknownOp, hb, h]

theorem unknownOp_unknown {b : Bytes} (hb : mboxHead s = some b) (h : opKnown (byteAt b 0) = false) : unknownOp s =
    { s with mbox := { s.mbox with queue := s.mbox.queue.tail, done := s.mbox.done ++ [doneWord b 0xFF] } } := by
  simp only [unknownOp, hb, h, Bool.false_eq_true, if_false]
  rfl

theorem mboxPop_empty (h : s.mbox.done = []) : mboxPop s = (0, s) := by simp only [mboxPop, h]

theorem mboxPop_cons {w : Nat} {rest : List Nat} (h : s.mbox.done = w :: rest) : mboxPop s = (w, { s with mbox := { s.mbox with done := rest } }) := by
  simp only [mboxPop, h]

/-! ### The commands -/

theorem runsTo_epochRead (s : State) : runsTo .epochRead s fun t => t.reply = leBytes 4 (rg s rGLB_EPOCH) ∧
    rg t rGLB_EPOCH_CAUSE = s.epochCause % 2 ^ 32 ∧ regsBut s t [rGLB_EPOCH_CAUSE] ∧ t = { s with regs := t.regs, reply := t.reply } :=
  ⟨_, rfl, rfl, rg_rgw_same _ _ _, regsBut_rgw _ _ _, rfl⟩

theorem runsTo_globalTimeRead (s : State) : runsTo .globalTimeRead s fun t => t.reply = leBytes 4 s.gt ∧
    rg t rGLB_GT_HI = s.gt / 2 ^ 32 % 2 ^ 32 ∧ regsBut s t [rGLB_GT_HI] ∧ t = { s with regs := t.regs, reply := t.reply } :=
  ⟨_, rfl, leBytes_mod 4 s.gt, rg_rgw_same _ _ _, regsBut_rgw _ _ _, rfl⟩

/-- A register write is one to the register that its address resolves to. -/
theorem runsTo_registerWrite {a v r : Nat} {P : State → Prop} (ha : resolveReg s a = some r) (h : P (regWrite s r (v % 2 ^ 32))) :
    runsTo (.registerWrite a v) s P := ⟨_, rfl, by simpa only [ha] using h⟩

/-- Settles O56: one lemma for each case of the doorbell, the mailbox, the two registers that latch and the plain register write. -/
theorem registersAndMailbox : Obligations.RegistersAndMailbox := by
  intro s
  refine ⟨fun h => ?_, fun h => ⟨_, rfl, doorbell_room h⟩, fun h => ⟨_, rfl, unknownOp_idle h⟩, fun b hb => ⟨fun h => ?_, fun h => ?_⟩,
    fun h => ?_, fun w rest h => ?_, runsTo_epochRead s, runsTo_globalTimeRead s, fun a v h => ?_, fun a r b i o v ha hd => ⟨fun h => ?_, ?_⟩⟩
  · exact ⟨rgwb s rHP_MBOX_STATUS 30 true, congrArg _ (doorbell_full h), rgb_rgwb_same _ _ _ (by omega), regsBut_rgwb _ _ _ _, rgwb_frame _ _ _ _⟩
  · exact ⟨_, rfl, unknownOp_known hb (decide_eq_true h)⟩
  · exact ⟨_, rfl, unknownOp_unknown hb (decide_eq_false (by omega))⟩
  · exact ⟨_, rfl, by simp only [mboxPop_empty h, leBytes_four_zero]⟩
  · exact ⟨_, rfl, by simp only [mboxPop_cons h]⟩
  · exact ⟨_, rfl, by simp only [h]⟩
  · exact runsTo_registerWrite ha (regWrite_frozen hd h)
  · intro row hf hr hb hne
    refine runsTo_registerWrite ha ?_
    rw [regWrite_plain hd hr hf hb]
    exact rowWrite_stores hne

end Sys2Proof.Machine
end

section
/-! PROOFS. What the work on a frame and on a bank leaves as it was (for O21, O23 and O54): one lemma for each function of the model that a commit,
a bypass or a read that fails can reach, named after it as in the proofs of O60, so that a chain `h.bump.cinc` is about `cinc (bump s _) _ _`; and what
general home space is read from. -/

namespace Sys2Proof.Machine

open Sys2Proof

-- One declaration after the other: the whole text is checked within a fixed memory.
set_option Elab.async false

/-! ### What the work on a frame leaves -/

/-- An always-on counter that does not count a pipe's commits. -/
def CountsNoCommit (i : Nat) : Prop := ∀ q < 4, i ≠ cPart q 1

/-- A register that neither counts a pipe's bypassed frames nor is HP_CFG. -/
def OtherReg (x : Nat) : Prop := (∀ q < 4, x ≠ rPIPE_BYPASS_FRAMES q) ∧ x ≠ rHP_CFG

/-- From `s` to `t` the descriptor queues, the commit marks, what counts commits and bypassed frames, and HP_CFG have stayed. With `d`, so
have device memory, frames, tiles, contexts and what waits at the verdict units: nothing but tables, registers and reports has moved. -/
structure Leaves (d : Bool) (s t : State) : Prop where
  dq : ∀ q, (pipeGet t q).dq = (pipeGet s q).dq
  marks : ∀ p, (shareGet t p).marks = (shareGet s p).marks
  commits : ∀ q < 4, tget 0 t.obs.cnt (cPart q 1) = tget 0 s.obs.cnt (cPart q 1)
  bypassed : ∀ q < 4, rg t (rPIPE_BYPASS_FRAMES q) = rg s (rPIPE_BYPASS_FRAMES q)
  hpCfg : rg t rHP_CFG = rg s rHP_CFG
  mem : d = true → t.mem = s.mem
  frames : d = true → t.frames = s.frames
  tiles : d = true → t.tiles = s.tiles
  ctxs : d = true → t.ctxs = s.ctxs
  inq : d = true → ∀ p, (vdGet t p).inq = (vdGet s p).inq

variable {d : Bool} {a s t : State}

theorem Leaves.refl (s : State) : Leaves d s s :=
  ⟨fun _ => rfl, fun _ => rfl, fun _ _ => rfl, fun _ _ => rfl, rfl, fun _ => rfl, fun _ => rfl, fun _ => rfl, fun _ => rfl, fun _ _ => rfl⟩

/-- A change of any part of the state: what it owes for each part that `Leaves` speaks of; a part that is not named has stayed. -/
theorem Leaves.change (h : Leaves d a s) (hq : ∀ q, (pipeGet t q).dq = (pipeGet s q).dq := by exact fun _ => rfl)
    (hm : ∀ p, (shareGet t p).marks = (shareGet s p).marks := by exact fun _ => rfl)
    (hc : ∀ q < 4, tget 0 t.obs.cnt (cPart q 1) = tget 0 s.obs.cnt (cPart q 1) := by exact fun _ _ => rfl)
    (hb : ∀ q < 4, rg t (rPIPE_BYPASS_FRAMES q) = rg s (rPIPE_BYPASS_FRAMES q) := by exact fun _ _ => rfl)
    (hg : rg t rHP_CFG = rg s rHP_CFG := by rfl)
    (he : d = true → t.mem = s.mem := by exact fun _ => rfl) (hf : d = true → t.frames = s.frames := by exact fun _ => rfl)
    (ht : d = true → t.tiles = s.tiles := by exact fun _ => rfl) (hx : d = true → t.ctxs = s.ctxs := by exact fun _ => rfl)
    (hi : d = true → ∀ p, (vdGet t p).inq = (vdGet s p).inq := by exact fun _ _ => rfl) : Leaves d a t where
  dq q := (hq q).trans (h.dq q)
  marks p := (hm p).trans (h.marks p)
  commits q l := (hc q l).trans (h.commits q l)
  bypassed q l := (hb q l).trans (h.bypassed q l)
  hpCfg := hg.trans h.hpCfg
  mem k := (he k).trans (h.mem k)
  frames k := (hf k).trans (h.frames k)
  tiles k := (ht k).trans (h.tiles k)
  ctxs k := (hx k).trans (h.ctxs k)
  inq k p := (hi k p).trans (h.inq k p)

/-- A record update of parts that `Leaves` does not speak of. -/
theorem Leaves.upd {pe fc gt rp xb fr rq si su st ar we ui tm jr jo pl kn la fa si2 fl sp se sl ba ca pw bk ge mb bo wv fs smp li hp lp ti2 ea ec}
    (h : Leaves d a s) : Leaves d a ⟨pe, fc, gt, rp, s.regs, s.mem, xb, fr, rq, s.obs, si, s.frames, s.pipes, su, st, ar, we, s.shares, ui, s.vds, tm, jr, jo,
      pl, s.tiles, s.ctxs, kn, la, fa, si2, fl, sp, se, sl, ba, ca, pw, bk, ge, mb, bo, wv, fs, smp, li, hp, lp, ti2, ea, ec⟩ := h.change

/-- A record update of parts that `Leaves` without `d` does not speak of. -/
theorem Leaves.updAll {pe fc gt rp me xb fr rq si frs su st ar we ui vd tm jr jo pl ti cx kn la fa si2 fl sp se sl ba ca pw bk ge mb bo wv fs smp li hp lp
    ti2 ea ec} (h : Leaves false a s) : Leaves false a ⟨pe, fc, gt, rp, s.regs, me, xb, fr, rq, s.obs, si, frs, s.pipes, su, st, ar, we, s.shares, ui, vd, tm,
      jr, jo, pl, ti, cx, kn, la, fa, si2, fl, sp, se, sl, ba, ca, pw, bk, ge, mb, bo, wv, fs, smp, li, hp, lp, ti2, ea, ec⟩ :=
  h.change (he := nofun) (hf := nofun) (ht := nofun) (hx := nofun) (hi := nofun)

/-! ### Choices, loops and parts of a result -/

theorem Leaves.ite {c : Prop} [Decidable c] (hs : Leaves d a s) (ht : Leaves d a t) : Leaves d a (if c then s else t) := by
  split <;> assumption

theorem Leaves.foldl {γ : Type} {f : State → γ → State} {l : List γ} (h : Leaves d a s) (hf : ∀ x y, Leaves d a x → Leaves d a (f x y)) :
    Leaves d a (l.foldl f s) := by
  induction l generalizing s with
  | nil => exact h
  | cons y l ih => exact ih (hf s y h)

theorem Leaves.snd {β : Type} {p : β × State} {b : β} (e : p = (b, t)) (h : Leaves d a p.2) : Leaves d a t := by rwa [e] at h

theorem Leaves.thd {β γ : Type} {p : β × γ × State} {b : β} {c : γ} (e : p = (b, c, t)) (h : Leaves d a p.2.2) : Leaves d a t := by rwa [e] at h

theorem Leaves.fth {β γ δ : Type} {p : β × γ × δ × State} {b : β} {c : γ} {e : δ} (he : p = (b, c, e, t)) (h : Leaves d a p.2.2.2) :
    Leaves d a t := by
  rwa [he] at h

/-! ### Registers, counters, memory, one element of a table -/

theorem Leaves.rgw {x v : Nat} (h : Leaves d a s) (hx : OtherReg x := by
      refine ⟨fun q hq => ?_, ?_⟩ <;> simp only [pipeA, grnA, bindA, vdA, tmA, tilA, btA, rqA, plA, plLinkA, fltA, obsA, hpA, glbA, lpA] <;> omega) :
    Leaves d a (rgw s x v) :=
  h.change (hb := fun q hq => rg_rgw_other s v (hx.1 q hq)) (hg := rg_rgw_other s v hx.2)

theorem Leaves.rgwf {x hi lo v : Nat} (h : Leaves d a s) (hx : OtherReg x := by
      refine ⟨fun q hq => ?_, ?_⟩ <;> simp only [pipeA, grnA, bindA, vdA, tmA, tilA, btA, rqA, plA, plLinkA, fltA, obsA, hpA, glbA, lpA] <;> omega) :
    Leaves d a (rgwf s x hi lo v) := h.rgw hx

theorem Leaves.rgwb {x i : Nat} {v : Bool} (h : Leaves d a s) (hx : OtherReg x := by
      refine ⟨fun q hq => ?_, ?_⟩ <;> simp only [pipeA, grnA, bindA, vdA, tmA, tilA, btA, rqA, plA, plLinkA, fltA, obsA, hpA, glbA, lpA] <;> omega) :
    Leaves d a (rgwb s x i v) := h.rgwf hx

theorem Leaves.bumpN {x n : Nat} (h : Leaves d a s) (hx : OtherReg x := by
      refine ⟨fun q hq => ?_, ?_⟩ <;> simp only [pipeA, grnA, bindA, vdA, tmA, tilA, btA, rqA, plA, plLinkA, fltA, obsA, hpA, glbA, lpA] <;> omega) :
    Leaves d a (bumpN s x n) := h.rgw hx

theorem Leaves.bump {x : Nat} (h : Leaves d a s) (hx : OtherReg x := by
      refine ⟨fun q hq => ?_, ?_⟩ <;> simp only [pipeA, grnA, bindA, vdA, tmA, tilA, btA, rqA, plA, plLinkA, fltA, obsA, hpA, glbA, lpA] <;> omega) :
    Leaves d a (bump s x) := h.bumpN hx

theorem Leaves.bumpDiv {x n k : Nat} (h : Leaves d a s) (hx : OtherReg x := by
      refine ⟨fun q hq => ?_, ?_⟩ <;> simp only [pipeA, grnA, bindA, vdA, tmA, tilA, btA, rqA, plA, plLinkA, fltA, obsA, hpA, glbA, lpA] <;> omega) :
    Leaves d a (bumpDiv s x n k) :=
  h.upd.bumpN hx

theorem Leaves.cinc {i n : Nat} (h : Leaves d a s) (hi : CountsNoCommit i := by intro q hq; simp only [cPart, cTile, cChan, cLink]; omega) :
    Leaves d a (cinc s i n) :=
  h.change (hc := fun q hq => by rw [cnt_cinc, if_neg (hi q hq)])

theorem Leaves.lpCount {k x n : Nat} (h : Leaves d a s) : Leaves d a (lpCount s k x n) := .ite h (h.foldl fun _ _ h => h.cinc)

theorem Leaves.memW {x : Nat} {l : Bytes} (h : Leaves false a s) : Leaves false a (memW s x l) :=
  .ite h (h.lpCount (k := 1) (x := x) (n := l.length)).updAll

theorem Leaves.pipePut {p : Nat} {v : Pipe} (h : Leaves d a s) (hv : v.dq = (pipeGet s p).dq := by rfl) : Leaves d a (pipePut s p v) :=
  h.change (hq := fun q => by
    simp only [pipeGet, Machine.pipePut, tget_tset] at hv ⊢
    split
    · subst_vars; exact hv
    · rfl)

theorem Leaves.sharePut {p : Nat} {v : Share} (h : Leaves d a s) (hv : v.marks = (shareGet s p).marks := by rfl) : Leaves d a (sharePut s p v) :=
  h.change (hm := fun q => by
    simp only [shareGet, Machine.sharePut, tget_tset] at hv ⊢
    split
    · subst_vars; exact hv
    · rfl)

theorem Leaves.vdPut {p : Nat} {v : Vd} (h : Leaves d a s) (hv : d = true → v.inq = (vdGet s p).inq := by exact fun _ => rfl) : Leaves d a (vdPut s p v) :=
  h.change (hi := fun k q => by
    simp only [vdGet, Machine.vdPut, tget_tset] at hv ⊢
    split
    · subst_vars; exact hv rfl
    · rfl)

/-! ### Random values, the epoch, records -/

theorem Leaves.drawFree {w : Nat} (h : Leaves d a s) : Leaves d a (drawFree s w).2 := h.upd

theorem Leaves.epochAdvance {cause : Nat} (h : Leaves d a s) : Leaves d a (epochAdvance s cause) := .ite h.upd h.upd.rgw

theorem Leaves.groupPut {g : Nat} {v : Machine.Group} (h : Leaves d a s) : Leaves d a (groupPut s g v) := h.upd

theorem Leaves.rqPut {q : Nat} {v : RqQueue} (h : Leaves d a s) : Leaves d a (rqPut s q v) := h.upd

theorem Leaves.rqRefuse {q : Nat} (h : Leaves d a s) : Leaves d a (rqRefuse s q) := h.rqPut.bump

theorem Leaves.stage {writer queue prio type : Nat} {body : Bytes} (h : Leaves d a s) : Leaves d a (stage s writer queue prio type body) :=
  .ite h.rqRefuse.bump h.upd

/-! ### Faults -/

theorem Leaves.faultRecord {prio : Nat} {body : Bytes} (h : Leaves d a s) : Leaves d a (faultRecord s prio body) := h.stage

theorem Leaves.latchError {unit cls addr level : Nat} (h : Leaves d a s) : Leaves d a (latchError s unit cls addr level) := h.upd

theorem Leaves.faultDetect {cls unit part addr action level : Nat} {masked dbl : Bool} (h : Leaves d a s) :
    Leaves d a (faultDetect s cls unit part addr action level masked dbl) := (Leaves.ite h.latchError.bump h.latchError.bump.rgwb).upd.faultRecord

theorem Leaves.faultEnd {cls unit cap : Nat} (h : Leaves d a s) : Leaves d a (faultEnd s cls unit cap) := by
  unfold Machine.faultEnd
  split
  exacts [h, .ite h.upd.upd h.upd.faultRecord.upd]

theorem Leaves.faultInstant {cls unit part addr action level : Nat} {masked dbl : Bool} (h : Leaves d a s) :
    Leaves d a (faultInstant s cls unit part addr action level masked dbl) := h.faultDetect.faultEnd

theorem Leaves.lpUe {x : Nat} (h : Leaves d a s) : Leaves d a (lpUe s x) := h.bump.cinc.upd

theorem Leaves.faultUe {cls unit part addr : Nat} (h : Leaves d a s) : Leaves d a (faultUe s cls unit part addr) := (Leaves.ite h.lpUe h).faultInstant

/-! ### Flash -/

theorem Leaves.blkPut {b : Nat} {v : FBlock} (h : Leaves d a s) : Leaves d a (blkPut s b v) := h.upd

theorem Leaves.pagesDrop {b : Nat} (h : Leaves d a s) : Leaves d a (pagesDrop s b) := h.upd

theorem Leaves.blkErased {b : Nat} (h : Leaves d a s) : Leaves d a (blkErased s b) := h.upd.pagesDrop.blkPut

theorem Leaves.fUnitWrite {u : FUnit} {body : Bytes} (h : Leaves d a s) : Leaves d a (fUnitWrite s u body) := (Leaves.ite h.blkErased h).upd.blkPut

theorem Leaves.fUnitPlace {kind idx copy seq : Nat} {body : Bytes} (h : Leaves d a s) : Leaves d a (fUnitPlace s kind idx copy seq body).1 :=
  h.fUnitWrite.upd.foldl fun _ _ h => h.blkPut

theorem Leaves.checkpoint (h : Leaves d a s) : Leaves d a (checkpoint s) := (h.fUnitPlace.fUnitPlace.foldl fun _ _ h => h.blkPut).upd

theorem Leaves.batchWrite {es : List Bytes} (h : Leaves d a s) : Leaves d a (batchWrite s es) :=
  .ite h (.ite h.fUnitWrite.upd.checkpoint h.fUnitWrite.upd)

theorem Leaves.fUnitPut {kind idx copy seq : Nat} {body : Bytes} (h : Leaves d a s) : Leaves d a (fUnitPut s kind idx copy seq body) :=
  h.fUnitPlace.batchWrite

theorem Leaves.flsUpdate {n : Nat} {body : Bytes} (h : Leaves d a s) : Leaves d a (flsUpdate s n body) :=
  .ite h.fUnitPut (h.foldl fun _ _ h => h.fUnitPut)

/-! ### Repair -/

theorem Leaves.repairSet {i v : Nat} (h : Leaves d a s) : Leaves d a (repairSet s i v) := h.upd

theorem Leaves.repairCommit (h : Leaves d a s) : Leaves d a (repairCommit s) := .ite h.flsUpdate h

/-! ### Banks -/

theorem Leaves.tierRecord {event group bank phys off : Nat} (h : Leaves d a s) : Leaves d a (tierRecord s event group bank phys off) := h.stage

theorem Leaves.bankRecord {event n off : Nat} (h : Leaves d a s) : Leaves d a (bankRecord s event n off) := h.tierRecord

theorem Leaves.cellsLeave {n : Nat} (h : Leaves d a s) : Leaves d a (cellsLeave s n) := .ite h h.upd

theorem Leaves.bankRetire {n cls addr : Nat} {masked : Bool} (h : Leaves d a s) : Leaves d a (bankRetire s n cls addr masked) := by
  unfold Machine.bankRetire
  extract_lets
  refine .ite ?_ ?_
  · exact h
  · split
    exacts [h.groupPut.faultDetect, h.groupPut.repairSet.repairCommit.epochAdvance.faultInstant.cellsLeave.bankRecord]

theorem Leaves.bankUe {n x : Nat} (h : Leaves d a s) : Leaves d a (bankUe s n x) :=
  .ite h.bump.bankRecord.faultUe h.bump.bankRecord.faultUe.bankRetire

theorem Leaves.tierMiss {x : Nat} (h : Leaves d a s) : Leaves d a (tierMiss s x) := .ite h.bankUe h

/-! ### General home space -/

theorem Leaves.piecesW {l : List (Nat × Nat)} {b : Bytes} (h : Leaves false a s) : Leaves false a (piecesW l b s) := by
  induction l generalizing s b with
  | nil => exact h
  | cons e r ih => exact ih h.memW

theorem Leaves.generalW {p y : Nat} {b : Bytes} (h : Leaves false a s) : Leaves false a (generalW s p y b) := h.piecesW

/-! ### Frames and entries -/

theorem Leaves.framePut {k : Nat} {f : Frame} (h : Leaves false a s) : Leaves false a (framePut s k f) := h.updAll

theorem Leaves.tmPut {p : Nat} {v : Tm} (h : Leaves false a s) : Leaves false a (tmPut s p v) := h.upd

theorem Leaves.cellsFree {p : Nat} {cs : List Nat} (h : Leaves false a s) : Leaves false a (cellsFree s p cs) := h.tmPut

theorem Leaves.headDrop {n : Option Nat} (h : Leaves false a s) : Leaves false a (headDrop s n) := by
  unfold Machine.headDrop
  split
  exacts [h.pipePut, h]

theorem Leaves.frameUnref {k : Nat} (h : Leaves false a s) : Leaves false a (frameUnref s k) := by
  unfold Machine.frameUnref
  split
  exacts [h, .ite h.updAll.headDrop.cellsFree h.framePut]

theorem Leaves.frameRef {k : Nat} (h : Leaves false a s) : Leaves false a (frameRef s k) := by
  unfold Machine.frameRef
  split
  exacts [h, h.framePut]

theorem Leaves.entPut {p : Nat} {ep : Bool} {i : Nat} {v : Option GEnt} (h : Leaves d a s) : Leaves d a (entPut s p ep i v) :=
  h.sharePut (by split <;> rfl)

theorem Leaves.entVs {p i uid : Nat} {f : VState → VState} (h : Leaves d a s) : Leaves d a (entVs s p i uid f) := by
  unfold Machine.entVs
  split
  exacts [.ite h.entPut h, h]

theorem Leaves.flowCharge {p k : Nat} {up : Bool} {frames bytes : Nat} (h : Leaves false a s) : Leaves false a (flowCharge s p k up frames bytes) :=
  h.vdPut

theorem Leaves.slotPut {p i : Nat} {v : Option LSlot} (h : Leaves d a s) : Leaves d a (slotPut s p i v) := h.vdPut

theorem Leaves.slotSettle {p i : Nat} (h : Leaves d a s) : Leaves d a (slotSettle s p i) := by
  unfold Machine.slotSettle
  split
  exacts [.ite h.slotPut h, h]

theorem Leaves.slotResolve {p i : Nat} (h : Leaves d a s) : Leaves d a (slotResolve s p i) := by
  unfold Machine.slotResolve
  split
  exacts [h, h.slotPut.entVs.slotSettle]

theorem Leaves.slotStood {p i : Nat} (h : Leaves d a s) : Leaves d a (slotStood s p i) := by
  unfold Machine.slotStood
  split
  exacts [.ite h.slotResolve.bump h, h]

/-! ### Peer links -/

theorem Leaves.linkPut {l : Nat} {v : PLink} (h : Leaves false a s) : Leaves false a (linkPut s l v) := h.upd

theorem Leaves.sendFlit {l : Nat} {m : Msg} {i : Nat} (h : Leaves false a s) : Leaves false a (sendFlit s l m i) := h.linkPut.bumpDiv.cinc

theorem Leaves.linkPump {l n : Nat} (h : Leaves false a s) : Leaves false a (linkPump l n s) := by
  induction n generalizing s with
  | zero => exact h
  | succ n ih =>
    unfold Machine.linkPump
    extract_lets
    split
    exacts [h, ih h.sendFlit]

theorem Leaves.linkDrain {l : Nat} (h : Leaves false a s) : Leaves false a (linkDrain s l) := h.linkPump

theorem Leaves.linkQueue {l : Nat} {m : Msg} (h : Leaves false a s) : Leaves false a (linkQueue s l m) := h.linkPut.linkDrain

theorem Leaves.plSend {kind dst dpart : Nat} {b : Bytes} (h : Leaves false a s) : Leaves false a (plSend s kind dst dpart b).2 := by
  unfold Machine.plSend
  extract_lets
  split
  exacts [h.upd.bump, h.upd.linkQueue]

theorem Leaves.fwdPut {p i : Nat} {v : Option Fwd} (h : Leaves false a s) : Leaves false a (fwdPut s p i v) := h.upd

/-! ### Traffic -/

theorem Leaves.polPut {p i : Nat} {v : Policer} (h : Leaves false a s) : Leaves false a (polPut s p i v) := h.tmPut

theorem Leaves.qPut {p q : Nat} {v : TmQueue} (h : Leaves false a s) : Leaves false a (qPut s p q v) := h.tmPut

theorem Leaves.aqmActs {p k d : Nat} (h : Leaves false a s) : Leaves false a (aqmActs s p k d).2 := by
  unfold Machine.aqmActs
  extract_lets
  split
  · exact h
  · split
    · exact h
    · split
      exacts [h, h.tmPut]

theorem Leaves.tmDropped {p : Nat} (h : Leaves false a s) : Leaves false a (tmDropped s p) := h.cinc

theorem Leaves.queueDrop {p q : Nat} (h : Leaves false a s) : Leaves false a (queueDrop s p q) := h.qPut.tmDropped

theorem Leaves.admitAt {n m q : Nat} {e : QEnt} {ecn : Nat} (h : Leaves false a s) : Leaves false a (admitAt s n m q e ecn).2 := by
  unfold Machine.admitAt
  extract_lets
  split
  · exact h.bump.queueDrop
  · split
    · exact h.bump.queueDrop
    · split
      · rename_i _ t e
        have h1 : Leaves false a t := Leaves.snd e h.aqmActs
        extract_lets
        split
        exacts [h1.bump.queueDrop, (Leaves.ite h1.bump.cinc h1).qPut.cinc]

/-! ### Verdict -/

theorem Leaves.sampPut {p c : Nat} {v : Samp} (h : Leaves false a s) : Leaves false a (sampPut s p c v) := h.vdPut

theorem Leaves.demand {p c : Nat} (h : Leaves false a s) : Leaves false a (demand s p c) := h.sampPut

theorem Leaves.reclass {p i b : Nat} {final : Bool} {x : Verdict} (h : Leaves false a s) : Leaves false a (reclass s p i b final x) := by
  unfold Machine.reclass
  split
  · exact h
  · extract_lets _ _ s1 s2 s3 _ _ _ _ _
    have h1 : Leaves false a s1 := .ite (Leaves.ite h.flowCharge h).flowCharge (.ite h.flowCharge h)
    have h2 : Leaves false a s2 := by
      unfold s2
      split
      exacts [h1.polPut, h1]
    have h3 : Leaves false a s3 := by
      unfold s3
      split
      exacts [h2.polPut, h2]
    exact (Leaves.ite h3.slotPut.stage h3.slotPut).bump.cinc

theorem Leaves.slotJoin {p entry uid : Nat} {x : Verdict} (h : Leaves false a s) : Leaves false a (slotJoin s p entry uid x).2.2 := by
  unfold Machine.slotJoin
  split
  · exact h
  · split
    · exact h
    · split
      · split
        exacts [h, h.reclass]
      · split
        · exact h.bump
        · dsimp only
          exact h.slotPut.entVs

theorem Leaves.slotTally {p i n len mb : Nat} {queued : Bool} (h : Leaves false a s) : Leaves false a (slotTally s p i n len mb queued) := by
  unfold Machine.slotTally
  split
  exacts [h.slotPut, h]

theorem Leaves.capWrite {base size n : Nat} {b : Bytes} {off : Nat} (h : Leaves false a s) : Leaves false a (capWrite s base size n b off).1 := by
  induction n generalizing s b off with
  | zero => exact h
  | succ n ih => exact ih h.memW

theorem Leaves.captureCopy {p : Nat} {f : Frame} {x : Verdict} {d entry len : Nat} (h : Leaves false a s) :
    Leaves false a (captureCopy s p f x d entry len) := .ite h.upd.bump (h.upd.capWrite.foldl fun _ _ h => h.rgw)

theorem Leaves.mirrorCopy {p k : Nat} {f : Frame} {x : Verdict} {d entry : Nat} (h : Leaves false a s) :
    Leaves false a (mirrorCopy s p k f x d entry) := .ite h (.ite h (.ite h.captureCopy (.ite h.frameRef.admitAt h.frameRef.admitAt.frameUnref)))

theorem Leaves.admission {p k : Nat} {f : Frame} {x : Verdict} {d : Nat} {slot : Option Nat} {entry : Nat} (h : Leaves false a s) :
    Leaves false a (admission s p k f x d slot entry).2.2 := by
  unfold Machine.admission
  extract_lets
  split
  · exact h.bump.tmDropped.frameUnref
  · split
    · rename_i _ _ _ t e
      have h1 : Leaves false a t := Leaves.fth e <| by
        split
        exacts [h.polPut, h]
      split
      · exact h1.bump.tmDropped.frameUnref
      · extract_lets
        split
        exacts [(Leaves.ite h1.bump h1).frameUnref, .ite (Leaves.ite h1.bump h1).admitAt (Leaves.ite h1.bump h1).admitAt.frameUnref]

theorem Leaves.applyFrame {k : Nat} {x : Verdict} {dcls : Nat} {slot : Option Nat} {entry : Nat} (h : Leaves false a s) :
    Leaves false a (applyFrame s k x dcls slot entry) := by
  unfold Machine.applyFrame
  split
  · exact h
  · extract_lets _ _ _ _ _ s1 _
    have h1 : Leaves false a s1 := (Leaves.ite h.framePut.bump h.framePut).mirrorCopy
    split
    · rename_i _ _ t e
      have h2 : Leaves false a t := Leaves.thd e (Leaves.ite h1.flowCharge h1).admission
      split
      exacts [h2.slotTally, h2]

theorem countsNoCommit_verdicts (p : Nat) (b : Bool) : CountsNoCommit (cPart p (if b = true then 7 else 6)) := by
  intro q hq
  simp only [cPart]
  split <;> omega

theorem Leaves.formVerdict {p : Nat} {flow : Option (Nat × Nat)} {entry : Nat} {x : Verdict} {dcls : Nat} {frame : Option Nat} (h : Leaves false a s) :
    Leaves false a (formVerdict s p flow entry x dcls frame) := by
  unfold Machine.formVerdict
  extract_lets _ _ s1 slot _
  have h1 : Leaves false a s1 := by
    unfold s1
    split
    exacts [h.entVs, h]
  split
  · rename_i _ t e
    have h2 : Leaves false a t := by
      refine Leaves.snd e ?_
      clear_value slot
      split
      · exact h1
      · extract_lets
        split
        · exact (Leaves.ite h1.reclass h1.bump).slotResolve
        · split
          exacts [h1.reclass, h1]
    split
    · rename_i _ _ t e
      have h3 : Leaves false a t := Leaves.thd e <| by
        split
        · split
          exacts [h2.slotJoin, h2]
        · exact h2
      extract_lets _ _ _ _ _ s4 _ s5
      have h4 : Leaves false a s4 := .ite ((Leaves.ite h3.stage h3).bump.cinc (countsNoCommit_verdicts _ _)).bump.cinc
        ((Leaves.ite h3.stage h3).bump.cinc (countsNoCommit_verdicts _ _))
      have h5 : Leaves false a s5 := .ite (Leaves.ite h4.bump h4).bump (.ite h4.bump h4)
      split
      exacts [h5.applyFrame, h5]

theorem Leaves.proceedFlow {k entry uid dcls ctx : Nat} {smp : Bool} (h : Leaves false a s) :
    Leaves false a (proceedFlow s k entry uid dcls ctx smp) := by
  unfold Machine.proceedFlow
  split
  · exact h
  · extract_lets
    split
    exacts [h.entVs.applyFrame, .ite h.entVs.slotJoin.applyFrame h.entVs.applyFrame]

theorem Leaves.proceedDefault {k dcls : Nat} (h : Leaves false a s) : Leaves false a (proceedDefault s k dcls) := by
  unfold Machine.proceedDefault
  split
  exacts [h, h.applyFrame]

theorem Leaves.jPut {p i : Nat} {v : Option JSlot} (h : Leaves false a s) : Leaves false a (jPut s p i v) := h.upd

theorem Leaves.jNew {p i : Nat} {v : JSlot} (h : Leaves false a s) : Leaves false a (jNew s p i v) := h.jPut.generalW

theorem Leaves.sendRsp {peer : Nat × Nat × Nat × Nat} {rec : Bytes} {gen ply status ctx : Nat} (h : Leaves false a s) :
    Leaves false a (sendRsp s peer rec gen ply status ctx) := h.plSend

theorem Leaves.vdPush {p : Nat} {i : VdIn} (h : Leaves false a s) : Leaves false a (vdPush s p i) := h.vdPut (hv := nofun)

theorem Leaves.refuse {p slot ctx : Nat} (h : Leaves false a s) : Leaves false a (refuse s p slot ctx) := h.vdPush

/-! ### Requests -/

theorem Leaves.tilePut {l : Nat} {v : Tile} (h : Leaves false a s) : Leaves false a (tilePut s l v) := h.updAll

theorem Leaves.holdFrame {k : Nat} {w : Hold} (h : Leaves false a s) : Leaves false a (holdFrame s k w) := by
  unfold Machine.holdFrame
  split
  exacts [h.framePut, h]

theorem Leaves.refuseFired {r : Fired} {dcls ctx : Nat} {smp : Bool} (h : Leaves false a s) : Leaves false a (refuseFired s r dcls ctx smp) :=
  h.formVerdict

theorem Leaves.enqueueReq {p slot ctx : Nat} (h : Leaves false a s) : Leaves false a (enqueueReq s p slot ctx) := .ite h.bump.cinc.refuse h.tilePut

theorem Leaves.sendLocal {r : Fired} {ctx : Nat} {smp : Bool} (h : Leaves false a s) : Leaves false a (sendLocal s r ctx smp) := by
  unfold Machine.sendLocal
  split
  · exact h.bump.refuseFired
  · extract_lets _ _ _ s1
    have h1 : Leaves false a s1 := by
      unfold s1
      split
      exacts [h.jNew.cinc.holdFrame, h.jNew.cinc]
    exact h1.enqueueReq

theorem Leaves.sendForward {r : Fired} {ctx dev dpart : Nat} {smp : Bool} (h : Leaves false a s) :
    Leaves false a (sendForward s r ctx dev dpart smp) := by
  unfold Machine.sendForward
  split
  · exact h.bump.refuseFired
  · extract_lets
    split
    · rename_i _ t e
      have h1 : Leaves false a t := Leaves.snd e h.fwdPut.plSend
      extract_lets _ s2
      have h2 : Leaves false a s2 := by
        unfold s2
        split
        exacts [.ite h1.bump.cinc.cinc.demand h1.bump.cinc.cinc, h1.bump.cinc.cinc]
      split
      exacts [h2.holdFrame, h2]

theorem Leaves.sendHead {q p k cls dev dpart ctx fired : Nat} {trig : Option (Nat × Nat × Option Nat × Bool)} (h : Leaves false a s) :
    Leaves false a (sendHead s q p k cls dev dpart ctx fired trig) := by
  unfold Machine.sendHead
  split
  · exact h
  · extract_lets
    split
    · exact .ite h.bump h.plSend.bump
    · split
      · exact (Leaves.ite h.bump.bump h.bump.plSend.bump).formVerdict
      · extract_lets
        split
        · rename_i _ t e
          have h1 : Leaves false a t := Leaves.snd e h.fwdPut.plSend
          extract_lets _ s2
          have h2 : Leaves false a s2 := by
            unfold s2
            split
            exacts [.ite h1.bump.cinc.demand h1.bump.cinc, h1.bump.cinc]
          exact h2.holdFrame

theorem Leaves.fire {r : Fired} (h : Leaves false a s) : Leaves false a (fire s r) := by
  unfold Machine.fire
  extract_lets
  split
  · exact h.cinc.bump.refuseFired
  · extract_lets _ _ _ fwd
    refine .ite ?_ ?_
    · extract_lets
      split
      · exact h.cinc.sampPut.bump.cinc
      · extract_lets s1
        have h1 : Leaves false a s1 := by
          unfold s1
          clear_value fwd
          split
          exacts [.ite h.cinc.sampPut.bump.cinc.sendHead h.cinc.sampPut.bump.cinc, h.cinc.sampPut.bump.cinc]
        exact h1.proceedFlow
    · clear_value fwd
      split
      · exact h.cinc.sampPut.sendLocal
      · refine .ite ?_ ?_
        · exact h.cinc.sampPut.sendForward
        · split
          exacts [h.cinc.sampPut.sendHead, h.cinc.sampPut]

/-! ### Granary -/

theorem Leaves.grnRecord {p : Nat} {ep : Bool} {event detail index : Nat} {static pinned : Bool} {key8 : Bytes} (h : Leaves d a s) :
    Leaves d a (grnRecord s p ep event detail index static pinned key8) := h.stage

theorem Leaves.entStood {p : Nat} {e : GEnt} (h : Leaves d a s) : Leaves d a (entStood s p e) := by
  unfold Machine.entStood
  split
  exacts [h.slotStood, h]

theorem Leaves.fsPut {p i : Nat} {b : Bytes} (h : Leaves false a s) : Leaves false a (fsPut s p i b) := h.generalW

theorem Leaves.entRemove {p : Nat} {ep : Bool} {i : Nat} {e : GEnt} (h : Leaves d a s) : Leaves d a (entRemove s p ep i e) :=
  (Leaves.ite h h.entStood).entPut

theorem Leaves.entEof {q p i : Nat} {e : GEnt} (h : Leaves false a s) : Leaves false a (entEof s q p i e) := by
  unfold Machine.entEof
  split
  · refine .ite ?_ ?_
    · split
      exacts [h.tierMiss, h.fire]
    · exact h

theorem Leaves.asRead {e : GEnt} (h : Leaves d a s) : Leaves d a (asRead s e).2.2.2 := by
  unfold Machine.asRead
  split
  · rename_i _ _ t e
    have h1 : Leaves d a t := Leaves.thd e <| by
      split
      exacts [h.upd, h]
    split
    · rename_i _ t e
      have h2 : Leaves d a t := Leaves.snd e <| by
        split
        exacts [h1.upd, h1]
      exact h2

theorem Leaves.parityKill {p : Nat} {ep : Bool} {i : Nat} (h : Leaves d a s) : Leaves d a (parityKill s p ep i) := by
  unfold Machine.parityKill
  split
  exacts [h, h.asRead.entRemove.bump.grnRecord.faultInstant]

theorem Leaves.parityStrike {p : Nat} {ep : Bool} {i words : Nat} (h : Leaves d a s) : Leaves d a (parityStrike s p ep i words) := by
  unfold Machine.parityStrike
  split
  exacts [h.entPut, h]

theorem Leaves.parityCheck {p : Nat} {ep : Bool} {par : List ParHit} {reads : List Nat} (h : Leaves d a s) :
    Leaves d a (parityCheck s p ep par reads) := by
  unfold Machine.parityCheck
  extract_lets s1
  have h1 : Leaves d a s1 := h.foldl fun _ _ h => .ite h.parityStrike h
  refine h1.foldl fun _ _ h2 => ?_
  split
  exacts [.ite h2.parityKill h2, h2]

theorem Leaves.probeWays {p : Nat} {ep : Bool} {key : Bytes} {par : List ParHit} (h : Leaves d a s) : Leaves d a (probeWays s p ep key par).2 := by
  unfold Machine.probeWays
  extract_lets
  split
  exacts [h.parityCheck, h.parityCheck.parityCheck]

theorem Leaves.lookup {q p : Nat} {ep : Bool} {key : Bytes} {par : List ParHit} (h : Leaves false a s) :
    Leaves false a (lookup s q p ep key par).2 := by
  unfold Machine.lookup
  split
  · rename_i t e
    have h1 : Leaves false a t := Leaves.snd e h.probeWays
    exact h1
  · rename_i _ t e
    have h2 : Leaves false a t := Leaves.snd e h.probeWays
    split
    · exact h2
    · split
      exacts [(Leaves.ite h2 h2.entEof).entRemove.bump, h2]

theorem Leaves.evict {q p : Nat} {ep : Bool} {key : Bytes} (h : Leaves false a s) : Leaves false a (evict s q p ep key).2 := by
  unfold Machine.evict
  split
  · exact h
  · split
    · rename_i _ t e
      have h1 : Leaves false a t := Leaves.snd e <| by
        split
        exacts [h, h.sharePut]
      split
      exacts [h1, (Leaves.ite h1 h1.entEof).entRemove.bump.cinc]

theorem Leaves.slotForInsert {q p : Nat} {ep : Bool} {key : Bytes} (h : Leaves false a s) : Leaves false a (slotForInsert s q p ep key).2 := by
  unfold Machine.slotForInsert
  split
  exacts [h, h.evict]

theorem Leaves.putEntry {p : Nat} {ep : Bool} {i : Nat} {e : GEnt} (h : Leaves false a s) : Leaves false a (putEntry s p ep i e) :=
  .ite h.upd.entPut h.upd.entPut.fsPut

theorem Leaves.insertMiss {q p : Nat} {ep : Bool} {key : Bytes} {cls port gt : Nat} (h : Leaves false a s) :
    Leaves false a (insertMiss s q p ep key cls port gt).2 := by
  unfold Machine.insertMiss
  extract_lets
  split
  · exact h.bump.cinc
  · split
    · rename_i _ t e
      have h1 : Leaves false a t := Leaves.snd e h.slotForInsert
      exact h1.sharePut.putEntry.cinc
    · rename_i t e
      have h2 : Leaves false a t := Leaves.snd e h.slotForInsert
      exact h2.bump.grnRecord

theorem Leaves.learnPort {p : Nat} {ep : Bool} {i port : Nat} (h : Leaves false a s) : Leaves false a (learnPort s p ep i port).2 := by
  unfold Machine.learnPort
  split
  · exact h
  · split
    · exact h
    · extract_lets
      split
      · exact h.entPut.sharePut.bump
      · split
        exacts [h.bump.sharePut.grnRecord, h.bump]

theorem Leaves.learn {q p : Nat} {ep : Bool} {key : Bytes} {cls port gt : Nat} {par : List ParHit} (h : Leaves false a s) :
    Leaves false a (learn s q p ep key cls port gt par).2 := by
  unfold Machine.learn
  split
  · rename_i _ t e
    have h1 : Leaves false a t := Leaves.snd e h.lookup
    split
    · rename_i _ t e
      have h2 : Leaves false a t := Leaves.snd e h1.learnPort
      extract_lets s3
      have h3 : Leaves false a s3 := by
        unfold s3
        split
        exacts [h2.entPut, h2]
      exact h3
  · rename_i t e
    have h4 : Leaves false a t := Leaves.snd e h.lookup
    exact h4.insertMiss

/-! ### Intake -/

theorem Leaves.parseCount {q : Nat} {w : Walk} (h : Leaves false a s) : Leaves false a (parseCount s q w) := (Leaves.ite h h.bump).bumpN

theorem Leaves.epCommit {q : Nat} {f : Frame} {x : Parsed} {par : List ParHit} (h : Leaves false a s) : Leaves false a (epCommit s q f x par).2 := by
  unfold Machine.epCommit
  split
  · exact h
  · split
    rename_i e
    exact Leaves.snd e h.learn

theorem Leaves.peerRefuse {peer : Nat × Nat × Nat × Nat} {c : Option Nat} (h : Leaves false a s) : Leaves false a (peerRefuse s peer c) := by
  unfold Machine.peerRefuse
  split <;> exact h.sendRsp

theorem Leaves.sendPeer {q p cls entry : Nat} {uid : Option Nat} {trig : Nat} {tok : Bool} {load : Bytes} {gt : Nat} {peer : Nat × Nat × Nat × Nat}
    (h : Leaves false a s) : Leaves false a (sendPeer s q p cls entry uid trig tok load gt peer) := by
  unfold Machine.sendPeer
  split
  · exact h.bump.peerRefuse
  · split
    exacts [h.bump.peerRefuse, h.jNew.cinc.enqueueReq]

theorem Leaves.noEntry {q k : Nat} {f : Frame} {cls : Nat} (h : Leaves false a s) : Leaves false a (noEntry s q k f cls) :=
  .ite (Leaves.ite h h.peerRefuse).frameUnref h.proceedDefault

theorem Leaves.committedFrame {q k : Nat} {f : Frame} {x : Parsed} (h : Leaves false a s) : Leaves false a (committedFrame s q k f x) := by
  unfold Machine.committedFrame
  refine .ite ?_ ?_
  · exact .ite h.frameUnref h.noEntry
  · split
    · rename_i t e
      have h1 : Leaves false a t := Leaves.snd e h.probeWays
      exact h1.noEntry
    · rename_i _ t e
      have h2 : Leaves false a t := Leaves.snd e h.probeWays
      exact h2.framePut.proceedFlow

theorem Leaves.commitApart {p port seq : Nat} (h : Leaves false a s) : Leaves false a (commitApart s p port seq) := by
  unfold Machine.commitApart
  split
  exacts [h.framePut, h]

/-! ### What general home space and its errors are read from -/

theorem rg_funext (h : t.regs = s.regs) : rg t = rg s := funext (rg_congr h)

theorem rgf_funext (h : t.regs = s.regs) : rgf t = rgf s := by
  funext x hi lo
  rw [rgf, rgf, rg_congr h]

theorem histRegion_congr (h : t.regs = s.regs) : histRegion t = histRegion s := by
  unfold histRegion
  rw [rgf_funext h]

theorem tableSlices_congr (h : t.regs = s.regs) : tableSlices t = tableSlices s := by
  unfold tableSlices tableSlice wayLog2
  rw [rgf_funext h]

theorem generalRoom_congr (h : t.regs = s.regs) : generalRoom t = generalRoom s := by
  unfold generalRoom bankRoom
  rw [histRegion_congr h, tableSlices_congr h]

theorem generalA_congr (h : t.regs = s.regs) : generalA t = generalA s := by
  unfold generalA generalPlace freeOff
  rw [generalRoom_congr h, tableSlices_congr h, histRegion_congr h]

theorem generalPieces_congr (h : t.regs = s.regs) (p f y n : Nat) : generalPieces t p f y n = generalPieces s p f y n := by
  induction f generalizing y n with
  | zero => rfl
  | succ f ih => simp only [generalPieces, generalA_congr h, ih]

theorem journalAt_congr (h : t.regs = s.regs) : journalAt t = journalAt s := by
  unfold journalAt poolCells
  rw [rgf_funext h]

theorem devBad_congr (hp : t.pwr = s.pwr) (hb : t.bad = s.bad) : devBad t = devBad s := by
  unfold devBad fencedAt bankFenced groupGet memBad
  rw [hp, hb]

theorem generalBad_congr (hr : t.regs = s.regs) (hp : t.pwr = s.pwr) (hb : t.bad = s.bad) : generalBad t = generalBad s := by
  funext p y n
  rw [generalBad, generalBad, generalPieces_congr hr, devBad_congr hp hb]

theorem cellsBad_congr (hr : t.regs = s.regs) (hp : t.pwr = s.pwr) (hb : t.bad = s.bad) : cellsBad t = cellsBad s := by
  unfold cellsBad cellA
  rw [generalA_congr hr, devBad_congr hp hb]

end Sys2Proof.Machine
end

section
/-! PROOFS. A pipe takes a descriptor, a commit, a bypass (O21). -/

namespace Sys2Proof.Machine

open Sys2Proof

-- One declaration after the other: the whole text is checked within a fixed memory.
set_option Elab.async false

variable {d : Bool} {a s t : State}

/-! ### A descriptor is taken and committed -/

/-- The state in which pipe `q` has taken the descriptor at the head of its queue, and `rest` and what is to be replayed wait. -/
def descTaken (s : State) (q : Nat) (rest : List Nat) : State := pipePut s q (pipeFill { pipeGet s q with dq := rest })

theorem pipeGet_pipePut_same (s : State) (p : Nat) (v : Pipe) : pipeGet (pipePut s p v) p = v := tget_tset_same _ _ _ _

theorem pipeFill_dq {v : Pipe} {r l : List Nat} (hr : v.dq = r) (hl : v.replay = l) : (pipeFill v).dq = r ++ l.take (65536 - r.length) := by
  subst hr hl
  rfl

theorem pipeFill_rest_dq (v : Pipe) (rest : List Nat) : (pipeFill { v with dq := rest }).dq = rest ++ v.replay.take (65536 - rest.length) :=
  pipeFill_dq rfl rfl

theorem descTaken_dq (s : State) (q : Nat) (rest : List Nat) :
    (pipeGet (descTaken s q rest) q).dq = rest ++ (pipeGet s q).replay.take (65536 - rest.length) := by
  rw [descTaken, pipeGet_pipePut_same, pipeFill_rest_dq]

theorem headFetch_readable {q : Nat} {f : Frame} (h : f.headSlot ≠ none ∨ cellsBad s f.part (f.cells.take 2) = none) : (headFetch s q f).1 = none := by
  unfold headFetch
  split
  · rfl
  · exact h.resolve_left (not_not_intro ‹_›)

theorem headFetch_unreadable {q : Nat} {f : Frame} (h : ¬(f.headSlot ≠ none ∨ cellsBad s f.part (f.cells.take 2) = none)) :
    ∃ x, (headFetch s q f).1 = some x := by
  push Not at h
  obtain ⟨hslot, hbad⟩ := h
  simpa only [headFetch, hslot] using Option.ne_none_iff_exists'.mp hbad

theorem Leaves.headFetch {q : Nat} {f : Frame} (h : Leaves d a s) : Leaves d a (headFetch s q f).2 := by
  unfold Machine.headFetch
  split
  exacts [h, h.bump]

theorem headFetch_weave (s : State) (q : Nat) (f : Frame) : (headFetch s q f).2.weave = s.weave := by
  unfold headFetch
  split
  exacts [rfl, bump_weave _ _]

section
variable {q h x : Nat} {rest : List Nat} {f : Frame} {par : List ParHit} {u : State}

theorem pipeTake_idle (hq : (pipeGet s q).dq = []) : pipeTake s q par = s := by
  simp only [pipeTake, hq, ite_self]

theorem pipeTake_waits (hq : (pipeGet s q).dq = h :: rest) (hf : frameGet s h = some f)
    (hr : ¬(s.pwr.tripped = false ∧ keyWaits s h f (parse s f) = false)) : pipeTake s q par = s := by
  cases ht : s.pwr.tripped with
  | true => simp only [pipeTake, ht, if_true]
  | false =>
    have hk : keyWaits s h f (parse s f) = true := by simpa [ht] using hr
    simp only [pipeTake, ht, hq, hf, hk, Bool.false_eq_true, if_false, if_true]

theorem pipeTake_bypass (hq : (pipeGet s q).dq = h :: rest) (hf : frameGet s h = some f)
    (hr : s.pwr.tripped = false ∧ keyWaits s h f (parse s f) = false) (hx : headFetch (descTaken s q rest) q f = (some x, u)) :
    pipeTake s q par = bypassFrame (tierMiss u x) q h f := by
  obtain ⟨ht, hk⟩ := hr
  rw [descTaken] at hx
  simp only [pipeTake, ht, hq, hf, hk, hx, Bool.false_eq_true, if_false]

theorem pipeTake_runs (hq : (pipeGet s q).dq = h :: rest) (hf : frameGet s h = some f)
    (hr : s.pwr.tripped = false ∧ keyWaits s h f (parse s f) = false) (hx : headFetch (descTaken s q rest) q f = (none, u)) :
    pipeTake s q par = if f.endPending then earlyProbe (framePut u h { f with stage := .parsed, tables := some u.weave }) f (parse s f) par
      else commitFrame u q h f (parse s f) par := by
  obtain ⟨ht, hk⟩ := hr
  rw [descTaken] at hx
  simp only [pipeTake, ht, hq, hf, hk, hx, Bool.false_eq_true, if_false]

end

/-- The probes of a pending descriptor (R40) invalidate entries with a parity error and do nothing else. -/
theorem Leaves.earlyProbe {f : Frame} {x : Parsed} {par : List ParHit} (h : Leaves d a s) : Leaves d a (earlyProbe s f x par) := by
  unfold Machine.earlyProbe
  extract_lets s1
  have h1 : Leaves d a s1 := by
    unfold s1
    split
    exacts [h.probeWays, h]
  exact .ite h1.probeWays h1

/-- What a commit (R69) comes to: it is counted, and the mark of its ingress port is `m`; the descriptor queues stay. -/
structure CommitsAs (s t : State) (q p port : Nat) (m : Option Nat) : Prop where
  dq : ∀ q, (pipeGet t q).dq = (pipeGet s q).dq
  count : cntUp s t (cPart q 1) 1
  mark : tget none (shareGet t p).marks port = m

theorem CommitsAs.leaves {q p port : Nat} {m : Option Nat} (h : CommitsAs a s q p port m) (hq : q < 4) (k : Leaves false s t) :
    CommitsAs a t q p port m := by
  obtain ⟨hdq, hc, hm⟩ := h
  exact ⟨fun q => (k.dq q).trans (hdq q), (k.commits q hq).trans hc, by rw [k.marks, hm]⟩

/-- A commit is counted and the frame is stored. -/
theorem commitsAs_cinc (h : Leaves false a s) {q : Nat} (hq : q < 4) (k : Nat) (f : Frame) (p port : Nat) :
    CommitsAs a (framePut (cinc s (cPart q 1) 1) k f) q p port (tget none (shareGet a p).marks port) :=
  ⟨h.dq, by simp only [framePut, cntUp, cnt_cinc, if_true, h.commits q hq], congrArg (tget none · port) (h.marks p)⟩

theorem CommitsAs.markSet {q p port seq : Nat} {m : Option Nat} (h : CommitsAs a s q p port m) :
    CommitsAs a (markSet s p port seq) q p port (some seq) :=
  ⟨h.dq, h.count, by simp only [Machine.markSet, shareGet, sharePut, tget_tset_same]⟩

/-- A commit moves the mark of the frame's ingress port to its sequence, but one replayed at or before the mark moves no mark. -/
theorem commitFrame_commitsAs (s : State) (q h : Nat) (f : Frame) (x : Parsed) (par : List ParHit) (hq : q < 4) :
    CommitsAs s (commitFrame s q h f x par) q f.part (ingressPort f)
      (if f.replayed = true ∧ committed (tget none (shareGet s f.part).marks (ingressPort f)) f.seq = true
       then tget none (shareGet s f.part).marks (ingressPort f) else some f.seq) := by
  unfold commitFrame
  extract_lets +onlyGivenNames p s0
  split
  extract_lets +onlyGivenNames g s1
  have hp : g.part = f.part := rfl
  have hs : g.seq = f.seq := rfl
  have hr : g.replayed = f.replayed := rfl
  have hi : ingressPort g = ingressPort f := rfl
  have h1 : CommitsAs s s1 q p (ingressPort g) (tget none (shareGet s p).marks (ingressPort g)) :=
    commitsAs_cinc (Leaves.refl s).parseCount hq _ _ _ _
  have he : f.part = p := rfl
  rw [← hs, ← hr, ← hi, he]
  clear_value g s1 p
  rw [h1.mark]
  by_cases hc : (g.replayed && committed (tget none (shareGet s p).marks (ingressPort g)) g.seq) = true
  · rw [if_pos hc, if_pos (by simpa using hc)]
    exact h1.leaves hq (Leaves.refl _).committedFrame
  · rw [if_neg hc, if_neg (by simpa using hc)]
    split
    rename_i s2 e
    extract_lets +onlyGivenNames s3
    have h3 : CommitsAs s s3 q p (ingressPort g) (some g.seq) := (h1.leaves hq (.snd e (Leaves.refl _).epCommit)).markSet
    clear_value s3
    refine h3.leaves hq ?_
    have k3 : Leaves false s3 s3 := .refl _
    refine .ite k3.noEntry ?_
    split
    rename_i s4 e
    have k4 : Leaves false s3 s4 := k3.learn.snd e
    split
    · exact k4.noEntry
    split
    · extract_lets s5
      have k5 : Leaves false s3 s5 := by
        unfold s5
        split
        exacts [k4.entRemove, k4]
      exact k5.tierMiss.noEntry
    extract_lets +onlyGivenNames uid s5
    have k5 : Leaves false s3 s5 := k4.framePut
    clear_value s5
    split
    extract_lets +onlyGivenNames k old
    clear_value k old
    split
    extract_lets +onlyGivenNames s6
    have k6 : Leaves false s3 s6 := k5.fsPut.bumpN
    clear_value s6
    refine .ite (Leaves.ite k6 k6.sendPeer).frameUnref (.ite ?_ k6.fire)
    split
    extract_lets s7
    have k7 : Leaves false s3 s7 := by
      unfold s7
      split
      exacts [.ite k6.sendHead k6, k6]
    exact k7.proceedFlow

theorem Leaves.weaken (h : Leaves d s t) : Leaves false s t := ⟨h.dq, h.marks, h.commits, h.bypassed, h.hpCfg, nofun, nofun, nofun, nofun, nofun⟩

theorem pipeGet_congr (h : t.pipes = s.pipes) (p : Nat) : pipeGet t p = pipeGet s p := congrArg (tget pipe0 · p) h

/-- A frame that bypasses is counted before it proceeds. -/
theorem leaves_bypassFrame {q h : Nat} {f : Frame} (hf : f.endPending = false) :
    Leaves false (Machine.cinc (Machine.bump s (rPIPE_BYPASS_FRAMES q)) (cPart q 2) 1) (bypassFrame s q h f) := by
  simp only [bypassFrame, hf, Bool.false_eq_true, if_false]
  exact .ite (Leaves.refl _).frameUnref (Leaves.refl _).proceedDefault

theorem bypassFrame_dq {q h : Nat} {f : Frame} (hf : f.endPending = false) (p : Nat) : (pipeGet (bypassFrame s q h f) p).dq = (pipeGet s p).dq := by
  rw [(leaves_bypassFrame hf).dq, pipeGet_congr (s := s) (by rw [cinc_pipes, bump_pipes])]

theorem bypassFrame_counted {q h : Nat} {f : Frame} (hq : q < 4) (hf : f.endPending = false) :
    counted s (bypassFrame s q h f) (rPIPE_BYPASS_FRAMES q) 1 := by
  rw [counted, (leaves_bypassFrame hf).bypassed q hq, rg_congr (cinc_regs _ _ _), rg_bump_same]

theorem cellsBad_descTaken (s : State) (q : Nat) (rest : List Nat) (p : Nat) (cs : List Nat) : cellsBad (descTaken s q rest) p cs = cellsBad s p cs := by
  rw [cellsBad_congr (t := descTaken s q rest) (s := s) rfl rfl rfl]

/-! ### The bank side of a commit -/

theorem bankCommit_skips {p cls port gt seq : Nat} {key st : Bytes} {ep : Option Bytes} {par : List ParHit}
    (h : committed (tget none (shareGet s p).marks port) seq = true) : bankCommit s p key ep cls port gt seq st par = s := if_pos h

theorem bankCommit_marks {p cls port gt seq : Nat} {key st : Bytes} {ep : Option Bytes} {par : List ParHit}
    (h : committed (tget none (shareGet s p).marks port) seq = false) :
    tget none (shareGet (bankCommit s p key ep cls port gt seq st par) p).marks port = some seq := by
  simp only [bankCommit, h, Bool.false_eq_true, if_false]
  rw [(Leaves.refl _).commitApart.marks]
  simp only [Machine.markSet, shareGet, sharePut, tget_tset_same]

/-- Settles O21: what `pipeTake` does in each of its cases, and that everything a commit or a bypassed frame sets off leaves the
descriptor queues, the marks and the counters of commits and bypassed frames as they are (`Leaves`). -/
theorem pipeTakes : Obligations.PipeTakes := by
  refine ⟨fun s q h rest f par hq hd hf => ?_, fun s q par hd => ⟨_, rfl, pipeTake_idle hd⟩,
    fun s p ep key cls port gt seq st par => ⟨fun hc => ⟨_, rfl, bankCommit_skips hc⟩, fun hc => ⟨_, rfl, bankCommit_marks hc⟩⟩⟩
  have hl : Leaves true (descTaken s q rest) (headFetch (descTaken s q rest) q f).2 := (Leaves.refl _).headFetch
  have hw : (headFetch (descTaken s q rest) q f).2.weave = s.weave := headFetch_weave _ _ _
  obtain ⟨⟨o, u⟩, hx⟩ : ∃ r, headFetch (descTaken s q rest) q f = r := ⟨_, rfl⟩
  rw [hx] at hl hw
  have hdq : (pipeGet u q).dq = rest ++ (pipeGet s q).replay.take (65536 - rest.length) := (hl.dq q).trans (descTaken_dq s q rest)
  have hnone : (f.headSlot ≠ none ∨ cellsBad s f.part (f.cells.take 2) = none) → o = none := fun hread => by
    rw [← cellsBad_descTaken s q rest] at hread
    have := headFetch_readable hread (q := q)
    rwa [hx] at this
  refine ⟨fun hr => ⟨_, rfl, pipeTake_waits hd hf hr⟩, fun hr hread hp => ⟨_, rfl, ?_⟩, fun hr hread hp => ⟨_, rfl, ?_⟩,
    fun hr hread hp => ⟨_, rfl, ?_⟩⟩
  · obtain rfl := hnone hread
    rw [pipeTake_runs hd hf hr hx, if_pos hp, hw]
    have hg : Leaves true (framePut u h { f with stage := .parsed, tables := some s.weave }) _ :=
      (Leaves.refl _).earlyProbe (f := f) (x := parse s f) (par := par)
    exact ⟨(hg.dq q).trans hdq, by rw [frameGet, hg.frames rfl, framePut, tget_tset_same], (hg.mem rfl).trans (hl.mem rfl)⟩
  · obtain rfl := hnone hread
    rw [pipeTake_runs hd hf hr hx, if_neg (by simp [hp])]
    obtain ⟨cdq, cc, cm⟩ := commitFrame_commitsAs u q h f (parse s f) par hq
    rw [hl.marks] at cm
    exact ⟨(cdq q).trans hdq, cc.trans (by rw [hl.commits q hq]; rfl), cm⟩
  · rw [← cellsBad_descTaken s q rest] at hread
    obtain ⟨x, hb⟩ := headFetch_unreadable hread (q := q)
    rw [hx] at hb
    obtain rfl := hb
    rw [pipeTake_bypass hd hf hr hx]
    have hm : Leaves true (descTaken s q rest) (tierMiss u x) := hl.tierMiss
    refine ⟨by rw [bypassFrame_dq hp, hm.dq, descTaken_dq], ?_⟩
    rw [counted, bypassFrame_counted hq hp, hm.bypassed q hq, rg_congr (t := descTaken s q rest) (s := s) rfl]

end Sys2Proof.Machine
end

section
/-! PROOFS. A request is admitted into a buffer or refused (O23), and the rules for reading the journal, storing a buffer, refusing and tearing down
that it rests on. -/

namespace Sys2Proof.Machine

open Sys2Proof

-- One declaration after the other: the whole text is checked within a fixed memory.
set_option Elab.async false

variable {d : Bool} {a s t : State}

/-! ### What a struck codeword makes of a read -/

theorem mem_tput {α : Type} (m : Tab α) (k : Nat) (v : α) : (k, v) ∈ tput m k v := by
  induction m with
  | nil => exact List.mem_singleton.mpr rfl
  | cons e r ih =>
    simp only [tput]
    split
    · exact List.mem_cons_self
    · split
      · exact List.mem_cons_self
      · exact List.mem_cons_of_mem _ ih

theorem cwOf_spec (x : Nat) : cwOf x ≤ x ∧ x < cwOf x + cwSize (cwOf x) := by
  have hle : cwOf x ≤ x := Nat.div_mul_le_self _ _
  refine ⟨hle, ?_⟩
  by_cases hx : x ≥ lpBase
  · have h : cwOf x = x / 64 * 64 := by simp only [cwOf, cwSize, if_pos hx]
    rw [cwSize, if_pos (by rw [h, lpBase] at *; omega), h]
    omega
  · have h : cwOf x = x / 32 * 32 := by simp only [cwOf, cwSize, if_neg hx]
    rw [cwSize, if_neg (by omega), h]
    omega

theorem memBad_strike (s : State) (x : Nat) {n : Nat} (hn : 0 < n) : memBad (strike s x) x n ≠ none := by
  obtain ⟨hle, hlt⟩ := cwOf_spec x
  have hmem : (cwOf x, true) ∈ (strike s x).bad := by
    simp only [strike, tset, Bool.true_eq_false, if_false]
    exact mem_tput _ _ _
  simp only [memBad, ne_eq, Option.map_eq_none_iff, List.find?_eq_none, decide_eq_true_eq, not_forall, not_not]
  exact ⟨_, hmem, by omega, hlt⟩

/-- Whatever strikes the first codeword of a span of general home space, the span cannot be read. -/
theorem generalBad_strike (s : State) (p y : Nat) {n : Nat} (hn : 0 < n) : generalBad (strike s (generalA s p y)) p y n ≠ none := by
  have hp : generalPieces (strike s (generalA s p y)) p (n / 512 + 2) y n =
      (generalA s p y, min n (512 - y % 512)) :: generalPieces s p (n / 512 + 1) (y + min n (512 - y % 512)) (n - min n (512 - y % 512)) := by
    rw [generalPieces_congr (t := strike s _) (s := s) rfl, generalPieces, if_neg (by omega)]
  obtain ⟨z, hz⟩ := Option.ne_none_iff_exists'.mp (memBad_strike s (generalA s p y) (n := min n (512 - y % 512)) (by omega))
  rw [generalBad, hp, List.findSome?_cons]
  simp only [devBad, hz]
  cases fencedAt (strike s (generalA s p y)) (generalA s p y) (min n (512 - y % 512)) <;> simp

theorem generalBad_intact (h : intact s) (p y n : Nat) : generalBad s p y n = none := by
  obtain ⟨hbad, hfence⟩ := h
  simp only [generalBad, List.findSome?_eq_none_iff]
  intro e _
  simp only [devBad, fencedAt, hfence, or_true, if_true, memBad, hbad, List.find?_nil, Option.map_none, Option.orElse_none]

/-! ### A write of a window without kept sections -/

/-- From `s` to `t` only counters of LPDDR5X channels, bank groups and the device have counted. -/
def CountsOnly (s t : State) : Prop := t = { s with obs := t.obs } ∧ ∀ i < 1216, tget 0 t.obs.cnt i = tget 0 s.obs.cnt i

theorem CountsOnly.cinc {i n : Nat} (h : CountsOnly a s) (hi : 1216 ≤ i) : CountsOnly a (cinc s i n) := by
  obtain ⟨hs, hc⟩ := h
  refine ⟨by rw [hs]; rfl, fun j hj => ?_⟩
  rw [cnt_cinc, if_neg (by omega), hc j hj]

theorem CountsOnly.lpCount (s : State) (k x n : Nat) : CountsOnly s (lpCount s k x n) := by
  have hrefl : CountsOnly s s := ⟨rfl, fun _ _ => rfl⟩
  unfold Machine.lpCount
  split
  · exact hrefl
  · exact List.foldlRecOn _ _ hrefl fun u hu i _ => hu.cinc (by simp only [cChan]; omega)

theorem memW_intact {x : Nat} {b : Bytes} (hb : s.bad = []) : ∃ (O : ObsState) (C : Tab Bool),
    memW s x b = { s with mem := twrite s.mem x b, obs := O, carried := C } ∧ ∀ i < 1216, tget 0 O.cnt i = tget 0 s.obs.cnt i := by
  obtain ⟨hs, hc⟩ := CountsOnly.lpCount s 1 x b.length
  refine ⟨(Machine.lpCount s 1 x b.length).obs, s.carried.filter fun e => !decide (x ≤ e.1 ∧ e.1 + cwSize e.1 ≤ x + b.length), ?_, hc⟩
  unfold Machine.memW
  rw [if_neg (by simp [memWBad, hb]), hs, hb]
  rfl

/-- Bytes of SRAM that do not run from one tile of a braid into the other are stored in one piece. -/
theorem spW_sram (s : State) (l : Nat) {v : SlotImg} {o : Nat} {b : Bytes} (hv : v.maps = []) (ho : o + b.length ≤ 20971520 ∨ 20971520 ≤ o) :
    spW s l v 0 o b = memW s (sramA s l o) b := by
  have hp : pieces s l v 0 o b.length = [(sramA s l o, b.length)] := by
    have hc : (v.maps.isEmpty && !((0 : Nat) == 0 && decide (o < 20971520 ∧ o + b.length > 20971520))) = true := by
      simp only [hv, List.isEmpty_nil, Bool.true_and, Bool.not_eq_true', beq_self_eq_true, decide_eq_false_iff_not]
      omega
    rw [pieces, if_pos hc]
    simp only [physA, hv, List.find?_nil, if_true]
  simp only [spW, hp, List.foldl_cons, List.foldl_nil, List.take_length]

theorem rgb_funext (h : t.regs = s.regs) : rgb t = rgb s := by
  funext x i
  rw [rgb, rgb, rg_congr h]

theorem sramA_congr (hr : t.regs = s.regs) (ht : tileSite t = tileSite s) : sramA t = sramA s := by
  unfold sramA braided tilePlace firstTile tilePart unguarded
  rw [rgf_funext hr, rgb_funext hr, ht]

/-! ### The journal slot is read -/

theorem Leaves.journalRead {p i : Nat} {ue : Bool} (h : Leaves d a s) : Leaves d a (journalRead s p i ue).2 := .ite h.upd h

/-! ### The request leaves the tile's queue -/

/-- The state in which tile `l` has taken the oldest request, and `rest` wait. -/
def reqTaken (s : State) (l : Nat) (rest : List Req) : State := tilePut s l { tileGet s l with rq := rest }

theorem tileGet_tilePut_same (s : State) (l : Nat) (v : Tile) : tileGet (tilePut s l v) l = v := tget_tset_same _ _ _ _

theorem reqTaken_rq (s : State) (l : Nat) (rest : List Req) : (tileGet (reqTaken s l rest) l).rq = rest := by
  rw [reqTaken, tileGet_tilePut_same]

theorem tileSite_reqTaken (s : State) (l : Nat) (rest : List Req) : tileSite (reqTaken s l rest) = tileSite s := by
  funext k
  simp only [tileSite, reqTaken, tilePut, tileGet, tget_tset]
  split
  · subst_vars; rfl
  · rfl

theorem journalRead_fails {l p i : Nat} {rest : List Req} {ue : Bool} (h : ue = true ∨ ¬generalBad s p (journalAt s i) 2112 = none) :
    ∃ z, (journalRead (reqTaken s l rest) p i ue).1 = some z := by
  refine Option.ne_none_iff_exists'.mp ?_
  cases ue with
  | true =>
    rw [Machine.journalRead, if_pos rfl, journalAt_congr (t := strike (reqTaken s l rest) _) (s := reqTaken s l rest) rfl]
    exact generalBad_strike _ _ _ (by omega)
  | false =>
    rw [Machine.journalRead, if_neg Bool.false_ne_true, generalBad_congr (t := reqTaken s l rest) (s := s) rfl rfl rfl,
      journalAt_congr (t := reqTaken s l rest) (s := s) rfl]
    exact h.resolve_left Bool.false_ne_true

section
variable {l : Nat} {ue : Bool} {r : Req} {rest : List Req} {j : JSlot} {u : State} {x n : Nat} {k : Option Nat} {v : SlotImg} {bufs : Tab (Option RBuf)}

theorem requestAdmit_idle (h : (tileGet s l).rq = [] ∨ s.pwr.tripped = true) : requestAdmit s l ue = s := by
  rcases h with h | h
  · simp only [requestAdmit, h, ite_self]
  · simp only [requestAdmit, h, if_true]

theorem jGet_reqTaken (l : Nat) (rest : List Req) (p i : Nat) : jGet (reqTaken s l rest) p i = jGet s p i := rfl

/-- The branch of a journal slot in use. -/
theorem match_jSlot {o : Option JSlot} {z : State} {f : JSlot → State} : o = some j → (match o with | none => z | some j => f j) = f j := by
  rintro rfl
  rfl

theorem requestAdmit_unreadable (ht : s.pwr.tripped = false) (hq : (tileGet s l).rq = r :: rest) (hj : jGet s r.part r.slot = some j)
    (hr : journalRead (reqTaken s l rest) r.part r.slot ue = (some x, u)) :
    requestAdmit s l ue = admitRefuse (tierMiss u x) l r.part r.slot j.ctx := by
  unfold requestAdmit
  extract_lets +onlyGivenNames y
  rw [ht, if_neg Bool.false_ne_true]
  split
  · rename_i h
    cases h.symm.trans hq
  · rename_i h
    obtain ⟨rfl, rfl⟩ := List.cons.inj (hq.symm.trans h)
    extract_lets +onlyGivenNames s1
    have h1 : jGet s1 r.part r.slot = some j := (jGet_reqTaken _ _ _ _).trans hj
    have h2 : journalRead s1 r.part r.slot ue = (some x, u) := hr
    clear_value s1
    refine (match_jSlot h1).trans ?_
    extract_lets +onlyGivenNames c y
    rw [h2]

/-- The buffer of an admitted request is in use: in the ARMED slot `k`, or else in the ACTIVE one. -/
def bufTaken (s : State) (c : Nat) (k : Option Nat) (i : Nat) (b : RBuf) : State :=
  match k with
  | some k => mslotPut s c k { mslotGet s c k with bufs := tset none (mslotGet s c k).bufs i (some b), admitted := (mslotGet s c k).admitted + 1 }
  | none => ctxPut s c { ctxGet s c with bufs := tset none (ctxGet s c).bufs i (some b), admitted := (ctxGet s c).admitted + 1 }

/-- A context whose outstanding requests stand at its HIGH_MARK is in demand (R89). -/
def demandAt (s : State) (l c : Nat) : State := if outAll s c ≥ highMark (ctxGet s c) then demand s (tilePart s l) c else s

/-- The request's journal slot counts as admitted. -/
def jAdmitted (s : State) (r : Req) (j : JSlot) : State :=
  { jPut s r.part r.slot (some { j with admitted := true, order := s.jorder }) with jorder := s.jorder + 1 }

theorem requestAdmit_read (ht : s.pwr.tripped = false) (hq : (tileGet s l).rq = r :: rest) (hj : jGet s r.part r.slot = some j)
    (hr : generalBad s r.part (journalAt s r.slot) 2112 = none) (hi : admitInto s j.ctx = (k, v, n, bufs)) :
    requestAdmit s l false =
      if (ctxGet s j.ctx).state = 1 ∧ v.reqStride < j.payload.length + 32 then
        ctxFault (admitRefuse (reqTaken s l rest) l r.part r.slot j.ctx) j.ctx 0 (fltAt 6 0)
      else if (ctxGet s j.ctx).state ≠ 1 ∨ maxOut (ctxGet s j.ctx) ≤ outAll s j.ctx ∨ (tget none bufs (n % 64)).isSome then
        admitRefuse (reqTaken s l rest) l r.part r.slot j.ctx
      else
        cinc (demandAt (bufTaken (bufWrite (jAdmitted (reqTaken s l rest) r j) l v (n % 64) (ctxGet s j.ctx).ply j) j.ctx k (n % 64)
          { part := r.part, slot := r.slot, taken := false, nan := false }) l j.ctx) (cTile l 9) 1 := by
  unfold requestAdmit
  extract_lets +onlyGivenNames y
  rw [ht, if_neg Bool.false_ne_true]
  split
  · rename_i h
    cases h.symm.trans hq
  · rename_i h
    obtain ⟨rfl, rfl⟩ := List.cons.inj (hq.symm.trans h)
    extract_lets +onlyGivenNames s1
    have h1 : jGet s1 r.part r.slot = some j := (jGet_reqTaken _ _ _ _).trans hj
    have h2 : journalRead s1 r.part r.slot false = (none, s1) := by
      simp only [journalRead, Bool.false_eq_true, if_false, Prod.mk.injEq, and_true]
      rwa [generalBad_congr (t := s1) (s := s) rfl rfl rfl, journalAt_congr (t := s1) (s := s) rfl]
    have h3 : admitInto s1 j.ctx = (k, v, n, bufs) := hi
    have h4 : reqTaken s l rest = s1 := rfl
    have h5 : ctxGet s1 = ctxGet s := rfl
    have h6 : outAll s1 = outAll s := rfl
    rw [h4, ← h5, ← h6]
    clear_value s1
    refine (match_jSlot h1).trans ?_
    extract_lets +onlyGivenNames c y
    rw [h2]
    dsimp only
    rw [h3]
    rfl

end

/-! ### A refusal waits at the verdict unit -/

theorem refuse_inq (s : State) (p i c : Nat) : (vdGet (refuse s p i c) p).inq =
    (vdGet s p).inq ++ [{ refusal := true, slot := i, ctx := c, ply := (ctxGet s c).ply, gen := 0, body := [] }] := by
  simp only [refuse, vdPush, vdGet, vdPut, tget_tset_same]

theorem refuse_cinc_bump_frame (s : State) (x i n p k c : Nat) : refuse (cinc (bump s x) i n) p k c =
    { s with vds := (refuse (cinc (bump s x) i n) p k c).vds, obs := (cinc (bump s x) i n).obs, regs := (bump s x).regs } := rfl

theorem refuse_cinc_bump_inq (s : State) (x i n p k c : Nat) : (vdGet (refuse (cinc (bump s x) i n) p k c) p).inq =
    (vdGet s p).inq ++ [{ refusal := true, slot := k, ctx := c, ply := (ctxGet s c).ply, gen := 0, body := [] }] := refuse_inq _ _ _ _

theorem rg_refuse_cinc_bump (s : State) (x i n p k c y : Nat) : rg (refuse (cinc (bump s x) i n) p k c) y = rg (bump s x) y := rfl

theorem cnt_refuse_cinc_bump (s : State) (x i n p k c : Nat) : cntUp s (refuse (cinc (bump s x) i n) p k c) i n := (cnt_cinc _ _ _ _).trans (if_pos rfl)

section
variable (s : State) (l p i c : Nat)

theorem admitRefuse_frame : admitRefuse s l p i c =
    { s with vds := (admitRefuse s l p i c).vds, obs := (admitRefuse s l p i c).obs, regs := (admitRefuse s l p i c).regs } := by
  rw [admitRefuse]
  exact refuse_cinc_bump_frame _ _ _ _ _ _ _

theorem admitRefuse_inq : (vdGet (admitRefuse s l p i c) p).inq =
    (vdGet s p).inq ++ [{ refusal := true, slot := i, ctx := c, ply := (ctxGet s c).ply, gen := 0, body := [] }] := by
  rw [admitRefuse, refuse_cinc_bump_inq]

theorem rg_admitRefuse (x : Nat) : rg (admitRefuse s l p i c) x = rg (bump s (rTIL_REFUSED (tileSite s l))) x := by
  rw [admitRefuse, rg_refuse_cinc_bump]

theorem cnt_admitRefuse : cntUp s (admitRefuse s l p i c) (cTile l 10) 1 := by
  rw [admitRefuse]
  exact cnt_refuse_cinc_bump _ _ _ _ _ _ _

theorem admitRefuse_tiles : (admitRefuse s l p i c).tiles = s.tiles := by rw [admitRefuse_frame]

theorem admitRefuse_ctxs : (admitRefuse s l p i c).ctxs = s.ctxs := by rw [admitRefuse_frame]

theorem admitRefuse_mem : (admitRefuse s l p i c).mem = s.mem := by rw [admitRefuse_frame]

end

/-! ### A context is torn down -/

/-- From `s` to `t` device memory and the contexts have stayed, and what waited at a verdict unit waits there yet. -/
structure Refuses (s t : State) : Prop where
  mem : t.mem = s.mem
  ctxs : t.ctxs = s.ctxs
  inq : ∀ p, (vdGet s p).inq ⊆ (vdGet t p).inq

theorem Refuses.refl (s : State) : Refuses s s := ⟨rfl, rfl, fun _ => List.Subset.refl _⟩

theorem Refuses.leaves (h : Refuses a s) (k : Leaves true s t) : Refuses a t :=
  ⟨(k.mem rfl).trans h.mem, (k.ctxs rfl).trans h.ctxs, fun p => by rw [k.inq rfl]; exact h.inq p⟩

theorem Refuses.refuse {p i c : Nat} (h : Refuses a s) : Refuses a (refuse s p i c) := by
  refine ⟨h.mem, h.ctxs, fun q => List.Subset.trans (h.inq q) ?_⟩
  simp only [Machine.refuse, vdPush, vdGet, vdPut, tget_tset]
  split
  · subst_vars
    exact List.subset_append_left _ _
  · exact List.Subset.refl _

theorem Refuses.foldl {γ : Type} {f : State → γ → State} {l : List γ} (h : Refuses a s) (hf : ∀ x y, Refuses a x → Refuses a (f x y)) :
    Refuses a (l.foldl f s) := List.foldlRecOn _ _ h fun x hx y _ => hf x y hx

theorem Refuses.ite {c : Prop} [Decidable c] (hs : Refuses a s) (ht : Refuses a t) : Refuses a (if c then s else t) := by
  split <;> assumption

theorem Refuses.refuseBufs {c : Nat} {bufs : Tab (Option RBuf)} (h : Refuses a s) : Refuses a (refuseBufs s c bufs) :=
  h.foldl fun _ _ h => (h.leaves (Leaves.refl _).bump.cinc).refuse

theorem Leaves.mslotPut {c k : Nat} {v : ModelSlot} (h : Leaves d a s) : Leaves d a (mslotPut s c k v) := h.upd

theorem Leaves.modelRecord {rq event status tag c slot gen detail : Nat} {digest : Bytes} (h : Leaves d a s) :
    Leaves d a (modelRecord s rq event status tag c slot gen detail digest) := h.stage

theorem Leaves.sessionClose {i rq tag : Nat} (h : Leaves d a s) : Leaves d a (sessionClose s i rq tag) := by
  unfold Machine.sessionClose
  split
  exacts [h, h.upd.modelRecord]

theorem Leaves.mboxDone {op status tag : Nat} (h : Leaves d a s) : Leaves d a (mboxDone s op status tag) := h.upd

theorem Leaves.waitFail {i status detail : Nat} (h : Leaves d a s) : Leaves d a (waitFail s i status detail) := by
  unfold Machine.waitFail
  split
  · exact h
  · split
    exacts [h, (Leaves.ite h.upd.mslotPut h.upd).modelRecord.mboxDone]

theorem Leaves.sessionFail {i status detail : Nat} (h : Leaves d a s) : Leaves d a (sessionFail s i status detail) := by
  unfold Machine.sessionFail
  split
  · exact h
  · split
    exacts [h, h.waitFail.sessionClose]

theorem Refuses.mslotPut {c k : Nat} {v : ModelSlot} (h : Refuses a s) : Refuses a (mslotPut s c k v) := h.leaves (Leaves.refl _).mslotPut

theorem Refuses.slotsDown {c : Nat} (h : Refuses a s) : Refuses a (slotsDown s c) :=
  (h.foldl fun _ _ h => h.leaves (Leaves.refl _).sessionFail).foldl fun _ _ h => .ite h.mslotPut (.ite h.refuseBufs.mslotPut h)

theorem Refuses.tilePut {l : Nat} {v : Tile} (h : Refuses a s) : Refuses a (tilePut s l v) := ⟨h.mem, h.ctxs, h.inq⟩

theorem Refuses.passLeave {c : Nat} (h : Refuses a s) : Refuses a (passLeave s c) := .ite h.tilePut.tilePut h.tilePut

/-- Context `c` is QUIESCING with fault `code`; memory and every other context have stayed, and what waited at a verdict unit waits there yet. -/
structure TornDown (s t : State) (c code : Nat) : Prop where
  faults : faultsWith t c code
  others : ctxsBut s t c
  mem : t.mem = s.mem
  inq : ∀ p, (vdGet s p).inq ⊆ (vdGet t p).inq

theorem Refuses.tornDown {c code : Nat} {x : Ctx} (h : Refuses a s) (hx : x.state = 2) (hc : x.fault = code) : TornDown a (ctxPut s c x) c code :=
  ⟨by simp only [faultsWith, ctxGet, ctxPut, tget_tset_same, hx, hc, and_self],
   fun e he => by simp only [ctxGet, ctxPut, tget_tset_other _ _ _ he.symm, h.ctxs], h.mem, h.inq⟩

theorem TornDown.ctxPut {c code k : Nat} {x : Ctx} (h : TornDown a s c code) (hx : x.state = 2) (hc : x.fault = k) : TornDown a (ctxPut s c x) c k :=
  ⟨by simp only [faultsWith, ctxGet, Machine.ctxPut, tget_tset_same, hx, hc, and_self],
   fun e he => by
    rw [← h.others e he]
    simp only [ctxGet, Machine.ctxPut, tget_tset_other _ _ _ he.symm], h.mem, h.inq⟩

theorem teardown_tornDown (h : Refuses a s) (c : Nat) : ∃ code, TornDown a (teardown s c) c code := ⟨_, h.refuseBufs.slotsDown.passLeave.tornDown rfl rfl⟩

/-- A fault of an ACTIVE context tears it down with the fault's code (R100). -/
theorem ctxFault_active {c : Nat} (unit : Nat) (f : CtxFlt) (hx : (ctxGet s c).state = 1) : TornDown s (ctxFault s c unit f) c f.code := by
  unfold ctxFault
  extract_lets +onlyGivenNames x l
  split
  · extract_lets +onlyGivenNames info s1 s2
    obtain ⟨code, h2⟩ : ∃ code, TornDown s s2 c code := teardown_tornDown ((Refuses.refl s).leaves (Leaves.refl _).bump.cinc) c
    clear_value s2
    exact h2.ctxPut h2.faults.1 rfl
  · rename_i h
    cases hx.symm.trans h
  · rename_i h _
    exact absurd hx h

/-! ### A request is admitted -/

theorem demandAt_bufTaken (s : State) (l c : Nat) (k : Option Nat) (i : Nat) (b : RBuf) :
    ∃ V : Tab Vd, demandAt (bufTaken s c k i b) l c = bufTaken { s with vds := V } c k i b := by
  unfold demandAt
  split
  · cases k <;> exact ⟨_, rfl⟩
  · exact ⟨s.vds, rfl⟩

/-- The bytes of a request buffer (R88): the header with the context's PLY, the payload, zeros to the next 64 bytes. -/
def bufBytes (ply : Nat) (j : JSlot) : Bytes :=
  padTo (cdiv (splice j.hdr 24 (leBytes 2 (ply % 4096)) ++ j.payload).length 64 * 64) (splice j.hdr 24 (leBytes 2 (ply % 4096)) ++ j.payload)

theorem bufWrite_intact {l i ply : Nat} {v : SlotImg} {j : JSlot} (hb : s.bad = []) (hv : v.maps = [])
    (ho : v.reqBase + i * v.reqStride + (bufBytes ply j).length ≤ 20971520 ∨ 20971520 ≤ v.reqBase + i * v.reqStride) :
    ∃ (O : ObsState) (C : Tab Bool), bufWrite s l v i ply j =
      { s with mem := twrite s.mem (sramA s l (v.reqBase + i * v.reqStride)) (bufBytes ply j), obs := O, carried := C } ∧
      ∀ i < 1216, tget 0 O.cnt i = tget 0 s.obs.cnt i := by
  have h : bufWrite s l v i ply j = spW s l v 0 (v.reqBase + i * v.reqStride) (bufBytes ply j) := rfl
  rw [h, spW_sram s l hv ho]
  exact memW_intact hb

/-- The request has left the queue of its tile, its journal slot counts as admitted, and memory is `m`; the counters are `O`. -/
def reqStored (s : State) (l : Nat) (rest : List Req) (r : Req) (j : JSlot) (m : Tab Byte) (O : ObsState) (C : Tab Bool) : State :=
  { s with
    tiles := (reqTaken s l rest).tiles, jrnl := tset none s.jrnl (jKey r.part r.slot) (some { j with admitted := true, order := s.jorder }),
    jorder := s.jorder + 1, mem := m, obs := O, carried := C }

theorem jAdmitted_reqTaken (s : State) (l : Nat) (rest : List Req) (r : Req) (j : JSlot) (m : Tab Byte) (O : ObsState) (C : Tab Bool) :
    { jAdmitted (reqTaken s l rest) r j with mem := m, obs := O, carried := C } = reqStored s l rest r j m O C := by
  simp only [jAdmitted, jPut, reqTaken, tilePut, reqStored]

section
variable {l : Nat} {r : Req} {rest : List Req} {j : JSlot} {n : Nat} {k : Option Nat} {v : SlotImg} {bufs : Tab (Option RBuf)}

theorem admitInto_none {c : Nat} (h : admitInto s c = (none, v, n, bufs)) : n = (ctxGet s c).admitted ∧ bufs = (ctxGet s c).bufs := by
  unfold admitInto at h
  extract_lets at h
  split at h
  · cases h
  · cases h
    exact ⟨rfl, rfl⟩

theorem admitInto_some {c i : Nat} (h : admitInto s c = (some i, v, n, bufs)) : n = (mslotGet s c i).admitted ∧ bufs = (mslotGet s c i).bufs := by
  unfold admitInto at h
  extract_lets at h
  split at h
  · cases h
    exact ⟨rfl, rfl⟩
  · cases h

theorem requestAdmit_admits (ht : s.pwr.tripped = false) (hq : (tileGet s l).rq = r :: rest) (hj : jGet s r.part r.slot = some j)
    (hi : admitInto s j.ctx = (k, v, n, bufs)) (hx : (ctxGet s j.ctx).state = 1) (ho : outAll s j.ctx < maxOut (ctxGet s j.ctx))
    (hf : tget none bufs (n % 64) = none) (hs : j.payload.length + 32 ≤ v.reqStride) (hv : v.maps = []) (hint : intact s)
    (hb : v.reqBase + n % 64 * v.reqStride + (bufBytes (ctxGet s j.ctx).ply j).length ≤ 20971520 ∨ 20971520 ≤ v.reqBase + n % 64 * v.reqStride) :
    ∃ (O : ObsState) (C : Tab Bool) (V : Tab Vd), requestAdmit s l false =
      cinc (bufTaken { reqStored s l rest r j (twrite s.mem (sramA s l (v.reqBase + n % 64 * v.reqStride)) (bufBytes (ctxGet s j.ctx).ply j)) O C with
        vds := V } j.ctx k (n % 64) { part := r.part, slot := r.slot, taken := false, nan := false }) (cTile l 9) 1 ∧
      ∀ i < 1216, tget 0 O.cnt i = tget 0 s.obs.cnt i := by
  obtain ⟨O, C, hw, hc⟩ := bufWrite_intact (s := jAdmitted (reqTaken s l rest) r j) (l := l) (i := n % 64) hint.1 hv hb
  have hsram : sramA (jAdmitted (reqTaken s l rest) r j) = sramA s := sramA_congr rfl (tileSite_reqTaken s l rest)
  have hmem : (jAdmitted (reqTaken s l rest) r j).mem = s.mem := rfl
  rw [hsram, hmem, jAdmitted_reqTaken] at hw
  have hrefuse : ¬((ctxGet s j.ctx).state ≠ 1 ∨ maxOut (ctxGet s j.ctx) ≤ outAll s j.ctx ∨ (tget none bufs (n % 64)).isSome) := by
    simp only [hx, hf, ne_eq, not_true_eq_false, false_or, Option.isSome_none, Bool.false_eq_true, or_false]
    omega
  rw [requestAdmit_read ht hq hj (generalBad_intact hint _ _ _) hi, if_neg (by omega), if_neg hrefuse, hw]
  obtain ⟨V, hV⟩ := demandAt_bufTaken (reqStored s l rest r j _ O C) l j.ctx k (n % 64) { part := r.part, slot := r.slot, taken := false, nan := false }
  exact ⟨O, C, V, congrArg (cinc · (cTile l 9) 1) hV, hc⟩

/-- What taking a buffer leaves: everything but the contexts and the slots. -/
theorem bufTaken_frame (s : State) (c : Nat) (k : Option Nat) (i : Nat) (b : RBuf) :
    bufTaken s c k i b = { s with ctxs := (bufTaken s c k i b).ctxs, slots := (bufTaken s c k i b).slots } := by
  cases k <;> rfl

theorem ctxGet_bufTaken (s : State) (c i : Nat) (b : RBuf) : ctxGet (bufTaken s c none i b) c =
    { ctxGet s c with bufs := tset none (ctxGet s c).bufs i (some b), admitted := (ctxGet s c).admitted + 1 } := tget_tset_same ctx0 s.ctxs c _

theorem mslotGet_bufTaken (s : State) (c k i : Nat) (b : RBuf) : mslotGet (bufTaken s c (some k) i b) c k =
    { mslotGet s c k with bufs := tset none (mslotGet s c k).bufs i (some b), admitted := (mslotGet s c k).admitted + 1 } :=
  tget_tset_same mslot0 s.slots (2 * c + k) _

theorem bufTaken_ctxsBut (s : State) (c : Nat) (k : Option Nat) (i : Nat) (b : RBuf) : ctxsBut s (bufTaken s c k i b) c := by
  intro e he
  cases k with
  | none => exact tget_tset_other _ _ _ he.symm
  | some k => rfl

end

section
variable {l : Nat} {rest : List Req} (p i c : Nat)

theorem admitRefuse_taken_rq : (tileGet (admitRefuse (reqTaken s l rest) l p i c) l).rq = rest := by
  rw [tileGet, admitRefuse_tiles]
  exact reqTaken_rq s l rest

theorem admitRefuse_taken_cnt : cntUp s (admitRefuse (reqTaken s l rest) l p i c) (cTile l 10) 1 := by
  have h := cnt_admitRefuse (reqTaken s l rest) l p i c
  generalize admitRefuse (reqTaken s l rest) l p i c = t at h ⊢
  exact h

theorem admitRefuse_taken_counted : counted s (admitRefuse (reqTaken s l rest) l p i c) (rTIL_REFUSED (tileSite s l)) 1 := by
  rw [counted, rg_admitRefuse, tileSite_reqTaken, rg_bump_same, rg_congr (t := reqTaken s l rest) (s := s) rfl]

theorem admitRefuse_taken_regsBut : regsBut s (admitRefuse (reqTaken s l rest) l p i c) [rTIL_REFUSED (tileSite s l)] := by
  intro y hy
  rw [rg_admitRefuse, tileSite_reqTaken, rg_bump_other _ (by simpa [eq_comm] using hy), rg_congr (t := reqTaken s l rest) (s := s) rfl]

theorem reqTaken_frame (s : State) (l : Nat) (rest : List Req) : reqTaken s l rest = { s with tiles := (reqTaken s l rest).tiles } := rfl

theorem admitRefuse_taken_frame : admitRefuse (reqTaken s l rest) l p i c =
    { s with tiles := (admitRefuse (reqTaken s l rest) l p i c).tiles, vds := (admitRefuse (reqTaken s l rest) l p i c).vds,
             obs := (admitRefuse (reqTaken s l rest) l p i c).obs, regs := (admitRefuse (reqTaken s l rest) l p i c).regs } := by
  have h := admitRefuse_frame (reqTaken s l rest) l p i c
  rw [admitRefuse_tiles]
  generalize admitRefuse (reqTaken s l rest) l p i c = t at h ⊢
  rw [reqTaken_frame] at h
  exact h

end

/-- What has become of the state when a request has been admitted. -/
theorem admitted_spec {l c n : Nat} {rest : List Req} {r : Req} {j : JSlot} {m : Tab Byte} {O : ObsState} {C : Tab Bool} {V : Tab Vd} {k : Option Nat}
    {v : SlotImg} {bufs : Tab (Option RBuf)} {b : RBuf} {t : State}
    (ht : t = cinc (bufTaken { reqStored s l rest r j m O C with vds := V } c k (n % 64) b) (cTile l 9) 1) (hl : l < 20)
    (hc : ∀ i < 1216, tget 0 O.cnt i = tget 0 s.obs.cnt i) (hi : admitInto s c = (k, v, n, bufs)) :
    (tileGet t l).rq = rest ∧ jGet t r.part r.slot = some { j with admitted := true, order := s.jorder } ∧ t.mem = m ∧ cntUp s t (cTile l 9) 1 ∧
    (k = none → ctxGet t c = { ctxGet s c with bufs := tset none bufs (n % 64) (some b), admitted := n + 1 } ∧ t.slots = s.slots) ∧
    (∀ i, k = some i → mslotGet t c i = { mslotGet s c i with bufs := tset none bufs (n % 64) (some b), admitted := n + 1 } ∧ t.ctxs = s.ctxs) ∧
    ctxsBut s t c ∧ t.regs = s.regs ∧ t.rq = s.rq ∧ t.knots = s.knots ∧ t.pending = s.pending := by
  obtain ⟨z, hz⟩ : ∃ z, z = { reqStored s l rest r j m O C with vds := V } := ⟨_, rfl⟩
  have hframe := bufTaken_frame z c k (n % 64) b
  have hothers := bufTaken_ctxsBut z c k (n % 64) b
  rw [← hz] at ht
  have hcnt : cntUp s t (cTile l 9) 1 := by
    rw [cntUp, ht, cnt_cinc, if_pos rfl, hframe, hz]
    exact congrArg (· + _) (hc _ (by simp only [cTile]; omega))
  refine ⟨?_, ?_, ?_, hcnt, ?_, ?_, ?_, ?_, ?_, ?_, ?_⟩
  · rw [ht, tileGet, cinc_tiles, hframe, hz]
    exact reqTaken_rq s l rest
  · have hj : z.jrnl = tset none s.jrnl (jKey r.part r.slot) (some { j with admitted := true, order := s.jorder }) := by rw [hz]; rfl
    rw [ht, jGet, cinc_jrnl, hframe, hj, tget_tset_same]
  · rw [ht, cinc_mem, hframe, hz]
    rfl
  · rintro rfl
    obtain ⟨hn, hb⟩ := admitInto_none hi
    have hx : ctxGet z c = ctxGet s c := by rw [hz]; rfl
    refine ⟨?_, ?_⟩
    · rw [ht, ctxGet, cinc_ctxs, ← ctxGet, ctxGet_bufTaken, hx, hn, hb]
    · rw [ht, cinc_slots, hz]
      rfl
  · rintro i rfl
    obtain ⟨hn, hb⟩ := admitInto_some hi
    have hx : mslotGet z c i = mslotGet s c i := by rw [hz]; rfl
    refine ⟨?_, ?_⟩
    · rw [ht, mslotGet, cinc_slots, ← mslotGet, mslotGet_bufTaken, hx, hn, hb]
    · rw [ht, cinc_ctxs, hz]
      rfl
  · intro e he
    rw [ht, ctxGet, cinc_ctxs]
    exact (hothers e he).trans (by rw [hz]; rfl)
  · rw [ht, cinc_regs, hframe, hz]
    rfl
  · rw [ht, cinc_rq, hframe, hz]
    rfl
  · rw [ht, cinc_knots, hframe, hz]
    rfl
  · rw [ht, cinc_pending, hframe, hz]
    rfl

/-- Settles O23: one lemma for each end of REQUEST_ADMIT (`requestAdmit_idle`, `requestAdmit_unreadable`, `requestAdmit_read`), the rules for a
refusal and a torn-down context, and `Leaves` for what a read that fails sets off. -/
theorem requestAdmission : Obligations.RequestAdmission := by
  refine ⟨fun s l ue h => ⟨_, rfl, requestAdmit_idle h⟩, fun s l r rest j k v n bufs => ?_⟩
  intro c x o h b held no readable hl ht hq hj hi
  refine ⟨fun hx ho hf hs hv hint hb => ⟨_, rfl, ?_⟩, fun hr hcase => ⟨_, rfl, ?_⟩, fun hr hx hs => ⟨_, rfl, ?_⟩,
    fun ue hue => ⟨_, rfl, ?_⟩⟩
  · obtain ⟨O, C, V, heq, hc⟩ := requestAdmit_admits ht hq hj hi hx ho hf hs hv hint hb
    exact admitted_spec heq hl hc hi
  · have hslow : ¬((ctxGet s j.ctx).state = 1 ∧ v.reqStride < j.payload.length + 32) := by
      rintro ⟨h1, h2⟩
      exact hcase.elim (fun h => h h1) (fun h => by omega)
    have hfull : (ctxGet s j.ctx).state ≠ 1 ∨ maxOut (ctxGet s j.ctx) ≤ outAll s j.ctx ∨ (tget none bufs (n % 64)).isSome := hcase.imp_right And.right
    rw [requestAdmit_read ht hq hj hr hi, if_neg hslow, if_pos hfull]
    exact ⟨admitRefuse_taken_rq _ _ _, admitRefuse_inq _ _ _ _ _, admitRefuse_taken_cnt _ _ _, admitRefuse_taken_counted _ _ _,
      admitRefuse_taken_regsBut _ _ _, admitRefuse_taken_frame _ _ _⟩
  · rw [requestAdmit_read ht hq hj hr hi, if_pos ⟨hx, hs⟩]
    have hstate : (ctxGet (admitRefuse (reqTaken s l rest) l r.part r.slot j.ctx) j.ctx).state = 1 := by
      rw [ctxGet, admitRefuse_ctxs]
      exact hx
    obtain ⟨hfaults, hothers, hmem, hinq⟩ := ctxFault_active 0 (fltAt 6 0) hstate
    refine ⟨hfaults, hinq r.part ?_, fun e he => (hothers e he).trans ?_, hmem.trans (admitRefuse_mem _ _ _ _ _)⟩
    · rw [admitRefuse_inq]
      exact List.mem_append_right _ (List.mem_singleton.mpr rfl)
    · rw [ctxGet, admitRefuse_ctxs]
      rfl
  · obtain ⟨z, hz⟩ : ∃ z, (journalRead (reqTaken s l rest) r.part r.slot ue).1 = some z := journalRead_fails hue
    have hl : Leaves true (reqTaken s l rest) (journalRead (reqTaken s l rest) r.part r.slot ue).2 := (Leaves.refl _).journalRead
    rw [requestAdmit_unreadable ht hq hj (Prod.ext hz rfl)]
    have hm : Leaves true (reqTaken s l rest) (tierMiss (journalRead (reqTaken s l rest) r.part r.slot ue).2 z) := hl.tierMiss
    refine ⟨?_, ?_, ?_, ?_⟩
    · rw [tileGet, admitRefuse_tiles, hm.tiles rfl]
      exact reqTaken_rq s l rest
    · rw [admitRefuse_inq, hm.inq rfl, ctxGet, hm.ctxs rfl]
      rfl
    · rw [admitRefuse_ctxs, hm.ctxs rfl]
      rfl
    · rw [admitRefuse_mem, hm.mem rfl]
      rfl

end Sys2Proof.Machine
end

section
/-! PROOFS. The host port's reads (O54): what drives the reply, each end of an RD, the window reads. -/

namespace Sys2Proof.Machine

open Sys2Proof

-- One declaration after the other: the whole text is checked within a fixed memory.
set_option Elab.async false

variable {d : Bool} {a s t : State}

/-! ### The accepted transaction -/

theorem hpTarget_hpTaken (s : State) : hpTarget (hpTaken s) = hpTarget s := rfl

theorem unitsUp_hpTaken (s : State) : unitsUp (hpTaken s) = unitsUp s := rfl

theorem memUp_hpTaken (s : State) : memUp (hpTaken s) = memUp s := rfl

theorem alertN_hpTaken (s : State) : alertN (hpTaken s) = alertN s := rfl

theorem mboxPending_hpTaken (s : State) : mboxPending (hpTaken s) = mboxPending s := rfl

theorem hpTrans_idle (h : s.boot.ready = false) (f : State → State) : hpTrans s f = s := if_neg (by simp [h])

theorem hpTrans_ready (h : s.boot.ready = true) (f : State → State) : hpTrans s f = f (hpTaken s) := if_pos h

/-! ### What an RD drives -/

theorem crcOn_congr (h : rg t rHP_CFG = rg s rHP_CFG) : crcOn t = crcOn s := by rw [crcOn, crcOn, rgb, rgb, h]

theorem crcOn_regsBut {x : List Nat} (h : regsBut s t x) (hx : rHP_CFG ∉ x := by decide) : crcOn t = crcOn s := crcOn_congr (h _ hx)

theorem hpPort_frame (s : State) : hpPort s = { s with regs := (hpPort s).regs } := rgwb_frame _ _ _ _

theorem regsBut_hpPort (s : State) : regsBut s (hpPort s) [rHP_ISR] := regsBut_rgwb _ _ _ _

theorem rgb_hpPort (s : State) : rgb (hpPort s) rHP_ISR 3 = true := rgb_rgwb_same _ _ _ (by omega)

theorem rdSays_rdReply (h : crcOn t = crcOn s) (st : Nat) (b : Bytes) : rdSays s (rdReply t st b) st b := by
  simp only [rdSays, rdReply, h]

theorem rdReply_frame (s : State) (st : Nat) (b : Bytes) : rdReply s st b = { s with reply := (rdReply s st b).reply } := rfl

theorem rdDeliver_fine {st : Nat} (h : st < 0x10) (b : Bytes) : rdDeliver s st b = rdReply s st b := by
  rw [rdDeliver, if_neg (by omega)]

theorem rdDeliver_error {st : Nat} (h : 0x10 ≤ st) (b : Bytes) : rdDeliver s st b = rdReply (hpPort s) st b := by
  rw [rdDeliver, if_pos h]

theorem rdDeliver_frame (s : State) (st : Nat) (b : Bytes) :
    rdDeliver s st b = { s with reply := (rdDeliver s st b).reply, regs := (rdDeliver s st b).regs } := by
  by_cases h : 0x10 ≤ st
  · rw [rdDeliver_error h, rdReply_frame, hpPort_frame]
  · rw [rdDeliver_fine (by omega), rdReply_frame]

theorem regsBut_rdDeliver (s : State) (st : Nat) (b : Bytes) : regsBut s (rdDeliver s st b) [rHP_ISR] := by
  intro x hx
  by_cases h : 0x10 ≤ st
  · rw [rdDeliver_error h]
    exact regsBut_hpPort s x hx
  · rw [rdDeliver_fine (by omega)]
    rfl

theorem rdSays_rdDeliver (h : crcOn t = crcOn s) (st : Nat) (b : Bytes) : rdSays s (rdDeliver t st b) st b := by
  by_cases hst : 0x10 ≤ st
  · rw [rdDeliver_error hst]
    exact rdSays_rdReply ((crcOn_regsBut (regsBut_hpPort t)).trans h) _ _
  · rw [rdDeliver_fine (by omega)]
    exact rdSays_rdReply h _ _

theorem rdDeliver_hp (s : State) (st : Nat) (b : Bytes) : (rdDeliver s st b).hp = s.hp := by rw [rdDeliver_frame]

theorem rdDeliver_mem (s : State) (st : Nat) (b : Bytes) : (rdDeliver s st b).mem = s.mem := by rw [rdDeliver_frame]

theorem held_none (h : s.hp.held = none) : { s with hp := { s.hp with held := none } } = s := by
  rw [← h]

/-! ### What a window read of the tier depends on -/

theorem unitEntry_congr (h : t.regs = s.regs) : unitEntry t = unitEntry s := by
  unfold unitEntry offFree tableSlice wayLog2
  rw [histRegion_congr h, tableSlices_congr h, rgf_funext h]

theorem entGet_congr (h : t.shares = s.shares) : entGet t = entGet s := by
  unfold entGet shareGet
  rw [h]

theorem unitR_congr (hr : t.regs = s.regs) (hs : t.shares = s.shares) (hm : t.mem = s.mem) : unitR t = unitR s := by
  unfold unitR slotBytes memR
  rw [unitEntry_congr hr, entGet_congr hs, hm]

theorem tierR_congr (hr : t.regs = s.regs) (hs : t.shares = s.shares) (hm : t.mem = s.mem) : tierR t = tierR s := by
  funext x n
  rw [tierR, tierR, unitR_congr hr hs hm]

theorem tierParity_congr (hr : t.regs = s.regs) (hs : t.shares = s.shares) : tierParity t = tierParity s := by
  unfold tierParity unitsParity
  rw [unitEntry_congr hr, entGet_congr hs]

/-! ### A read that meets an uncorrectable codeword -/

theorem Leaves.lpZero {x : Nat} (h : Leaves false a s) : Leaves false a (lpZero s x) := .ite h.memW.bump h

theorem Leaves.hpUe {x : Nat} (h : Leaves false a s) : Leaves false a (hpUe s x) := .ite h.faultUe.lpZero (.ite h.tierMiss h.faultUe)

/-! ### The cases of an RD -/

section
variable {addr len crc st : Nat} {ready early : Bool} {hit : RqHit} {meets : List (Nat × Bool)} {b : Bytes} {v : State}

theorem hpRd_crcBad (h : ¬(crcOn s = false ∨ crc = rdCrc addr len)) : hpRd s addr len crc ready early hit meets =
    rdFail { bump s rHP_CRC_ERR with hp := { s.hp with crcFailed := true } } len 0x11 early := by
  push Not at h
  obtain ⟨hon, hne⟩ := h
  exact if_pos (by simp [hon, hne])

theorem hpRd_held {x l : Nat} {e : Bytes} (h : crcOn s = false ∨ crc = rdCrc addr len) (hh : s.hp.held = some (x, l, e)) :
    hpRd s addr len crc ready early hit meets =
      if x = addr ∧ l = len then rdAnswer s addr len (byteAt e 0) (e.drop 1) ready early
      else if early then { s with reply := [] } else rdReply s 0x02 (List.replicate (hpBytes len) 0) := by
  unfold hpRd
  rw [if_neg (by rcases h with h | h <;> simp [h]), hh]

theorem hpRd_access (h : crcOn s = false ∨ crc = rdCrc addr len) (hh : s.hp.held = none) (hr : hpRead s addr len hit meets = (st, b, v)) :
    hpRd s addr len crc ready early hit meets =
      if st = 0x10 ∨ st = 0x13 then rdFail v len st early else rdAnswer v addr len st b ready early := by
  unfold hpRd
  rw [if_neg (by rcases h with h | h <;> simp [h]), hh]
  extract_lets r
  rw [show r = (st, b, v) from hr]

theorem rdFail_says : rdFail s len st false = rdDeliver s st (List.replicate (hpBytes len) 0) := if_neg Bool.false_ne_true

theorem rdAnswer_early : rdAnswer s addr len st b ready true =
    { s with hp := { s.hp with held := some (addr, len, leBytes 1 st ++ b) }, reply := [] } := by
  rw [rdAnswer, if_pos rfl]

theorem rdAnswer_ready : rdAnswer s addr len st b true false = rdDeliver { s with hp := { s.hp with held := none } } st b := by
  rw [rdAnswer, if_neg Bool.false_ne_true, if_pos rfl]

theorem rdAnswer_retry : rdAnswer s addr len st b false false =
    rdReply (bump { s with hp := { s.hp with held := some (addr, len, leBytes 1 st ++ b) } } rHP_RETRY) 0x01 (List.replicate (hpBytes len) 0) := by
  rw [rdAnswer, if_neg Bool.false_ne_true, if_neg Bool.false_ne_true]

theorem hpRead_bad {x : Nat} (h : hpTarget s addr len = .bad x) : hpRead s addr len hit meets = (0x10, List.replicate (hpBytes len) 0, hpErr s x) := by
  unfold hpRead
  rw [h]

theorem hpRead_direct_down (h : hpTarget s addr len = .direct) (hu : unitsUp s addr (hpBytes len) = false) :
    hpRead s addr len hit meets = (0x13, List.replicate (hpBytes len) 0, s) := by
  unfold hpRead
  rw [h]
  exact if_pos (by simp [hu])

theorem hpRead_direct (h : hpTarget s addr len = .direct) (hu : unitsUp s addr (hpBytes len) = true) :
    hpRead s addr len hit meets = (0x00, (unitsRead (hpUnits addr (hpBytes len)) s hit).1, (unitsRead (hpUnits addr (hpBytes len)) s hit).2) := by
  unfold hpRead
  rw [h]
  exact if_neg (by simp [hu])

theorem hpRead_xbuf {o : Nat} (h : hpTarget s addr len = .xbuf o) : hpRead s addr len hit meets = (0x00, tread s.xbuf o (hpBytes len), s) := by
  unfold hpRead
  rw [h]

theorem hpRead_mem_down {x : Nat} (h : hpTarget s addr len = .mem x) (hu : memUp s x = false) :
    hpRead s addr len hit meets = (0x13, List.replicate (hpBytes len) 0, s) := by
  unfold hpRead
  rw [h]
  exact if_pos (by simp [hu])

theorem hpRead_mem {x : Nat} (h : hpTarget s addr len = .mem x) (hu : memUp s x = true) : hpRead s addr len hit [] =
    match devBad s x (hpBytes len) with
    | some y => (0x12, List.replicate (hpBytes len) 0, hpErr (hpUe (lpCount s 0 x (hpBytes len)) y) y)
    | none =>
      if tierBase ≤ x ∧ x < lpBase then
        (if tierParity s x (hpBytes len) then (0x12, List.replicate (hpBytes len) 0, hpErr (lpCount s 0 x (hpBytes len)) x)
         else (0x00, tierR s x (hpBytes len), lpCount s 0 x (hpBytes len)))
      else (0x00, memR s x (hpBytes len), lpCount s 0 x (hpBytes len)) := by
  obtain ⟨hw, -⟩ := CountsOnly.lpCount s 0 x (hpBytes len)
  have hmeet : hpMeet (lpCount s 0 x (hpBytes len)) x (hpBytes len) [] = lpCount s 0 x (hpBytes len) := rfl
  unfold hpRead
  rw [h]
  dsimp only
  rw [if_neg (by simp [hu]), hmeet]
  generalize lpCount s 0 x (hpBytes len) = w at hw ⊢
  have hregs : w.regs = s.regs := by rw [hw]
  have hmem : w.mem = s.mem := by rw [hw]
  have hshares : w.shares = s.shares := by rw [hw]
  rw [devBad_congr (t := w) (s := s) (by rw [hw]) (by rw [hw]), tierParity_congr hregs hshares, tierR_congr hregs hshares hmem, memR, memR, hmem] <;> rfl

end

/-! ### What each end of an RD leaves -/

section
variable {u : State} {st : Nat} {b : Bytes}

theorem rg_hpPort_other {x : Nat} (h : x ≠ rHP_ISR) : rg (hpPort s) x = rg s x := regsBut_hpPort s x (by simpa using h)

/-- An RD that fails its CRC counts in register `x` and sets what the port error sets. -/
theorem crcBad_spec {x : Nat} {H : HostPort} (hu : u.regs = s.regs) (hc : x ≠ rHP_CFG) (hi : x ≠ rHP_ISR) (hst : 0x10 ≤ st)
    (ht : t = rdDeliver { bump u x with hp := H } st b) :
    rdSays s t st b ∧ t.hp = H ∧ counted s t x 1 ∧ rgb t rHP_ISR 3 = true ∧ regsBut s t [x, rHP_ISR] ∧
    t = { u with hp := t.hp, regs := t.regs, reply := t.reply } := by
  have hX : ∀ y, rg { bump u x with hp := H } y = rg (bump u x) y := fun y => rfl
  have hother : ∀ y, y ≠ x → rg { bump u x with hp := H } y = rg s y := fun y hy => by rw [hX, rg_bump_other _ hy.symm, rg_congr hu]
  have hport : t = rdReply (hpPort { bump u x with hp := H }) st b := ht.trans (rdDeliver_error hst b)
  have hreg : ∀ y, rg t y = rg (hpPort { bump u x with hp := H }) y := fun y => by rw [hport]; rfl
  have hhp : t.hp = H := by rw [ht, rdDeliver_hp]
  refine ⟨?_, hhp, ?_, ?_, fun y hy => ?_, ?_⟩
  · rw [ht]
    exact rdSays_rdDeliver (crcOn_congr (hother _ hc.symm)) _ _
  · rw [counted, hreg, rg_hpPort_other hi, hX, rg_bump_same, rg_congr hu]
  · rw [rgb, hreg]
    exact rgb_hpPort _
  · simp only [List.mem_cons, List.not_mem_nil, or_false, not_or] at hy
    rw [hreg, rg_hpPort_other hy.2, hother _ hy.1]
  · have hf := rdDeliver_frame { bump u x with hp := H } st b
    rw [← ht] at hf
    rw [hf]
    rfl

/-- An RD whose result is not ready counts in register `x` and leaves every other. -/
theorem retry_spec {x : Nat} {H : HostPort} (hu : u.regs = s.regs) (hc : x ≠ rHP_CFG) (ht : t = rdReply (bump { u with hp := H } x) st b) :
    rdSays s t st b ∧ counted s t x 1 ∧ regsBut s t [x] ∧ t.hp = H := by
  have hX : ∀ y, rg { u with hp := H } y = rg s y := rg_congr hu
  have hreg : ∀ y, rg t y = rg (bump { u with hp := H } x) y := fun y => by rw [ht]; rfl
  refine ⟨?_, ?_, fun y hy => ?_, ?_⟩
  · rw [ht]
    exact rdSays_rdReply (crcOn_congr (by rw [rg_bump_other _ hc, hX])) _ _
  · rw [counted, hreg, rg_bump_same, hX]
  · rw [hreg, rg_bump_other _ (by simpa [eq_comm] using hy), hX]
  · rw [ht]
    rfl

/-- An RD that answers an error without an access, or after one that changed no register. -/
theorem error_spec (hu : u.regs = s.regs) (ht : t = rdDeliver u st b) :
    rdSays s t st b ∧ t.hp = u.hp ∧ t.mem = u.mem ∧ regsBut s t [rHP_ISR] := by
  refine ⟨?_, ?_, ?_, fun y hy => ?_⟩
  · rw [ht]
    exact rdSays_rdDeliver (crcOn_congr (rg_congr hu _)) _ _
  · rw [ht, rdDeliver_hp]
  · rw [ht, rdDeliver_mem]
  · rw [ht, regsBut_rdDeliver _ _ _ y hy, rg_congr hu]

/-- An RD that answers READY. -/
theorem ready_spec (hu : u.regs = s.regs) (hst : st < 0x10) (ht : t = rdDeliver u st b) : rdSays s t st b ∧ t = { u with reply := t.reply } := by
  rw [rdDeliver_fine hst] at ht
  rw [ht]
  exact ⟨rdSays_rdReply (crcOn_congr (rg_congr hu _)) _ _, rdReply_frame _ _ _⟩

end

/-- A direct read answers READY, or its result is held. -/
theorem direct_spec (v : State) (b : Bytes) (addr len : Nat) (ready : Bool) :
    (rdSays v (rdAnswer v addr len 0x00 b true false) 0x00 b ∧ rdAnswer v addr len 0x00 b true false =
      { v with hp := { v.hp with held := none }, reply := (rdAnswer v addr len 0x00 b true false).reply }) ∧
    (rdSays v (rdAnswer v addr len 0x00 b false false) 0x01 (List.replicate (hpBytes len) 0) ∧
      (rdAnswer v addr len 0x00 b false false).hp.held = some (addr, len, leBytes 1 0 ++ b)) ∧
    (rdAnswer v addr len 0x00 b ready true).reply = [] ∧ (rdAnswer v addr len 0x00 b ready true).hp.held = some (addr, len, leBytes 1 0 ++ b) := by
  refine ⟨?_, ?_, ?_⟩
  · rw [rdAnswer_ready]
    exact ready_spec rfl (by decide) rfl
  · rw [rdAnswer_retry]
    obtain ⟨hs, -, -, hp⟩ := retry_spec (s := v) (u := v) (x := rHP_RETRY) rfl (by decide) rfl
    exact ⟨hs, congrArg HostPort.held hp⟩
  · rw [rdAnswer_early]
    exact ⟨rfl, rfl⟩

/-- A window read that answers READY has counted and driven its reply. -/
theorem window_spec {w : State} {st : Nat} {b : Bytes} (hw : w = { hpTaken s with obs := w.obs }) (hn : (hpTaken s).hp.held = none) (hst : st < 0x10)
    (ht : t = rdDeliver { w with hp := { w.hp with held := none } } st b) :
    rdSays s t st b ∧ t = { s with hp := (hpTaken s).hp, obs := t.obs, reply := t.reply } := by
  rw [held_none (by rw [hw]; exact hn)] at ht
  obtain ⟨hs, hframe⟩ := ready_spec (s := s) (u := w) (by rw [hw]; rfl) hst ht
  refine ⟨hs, ?_⟩
  generalize t.reply = r at hframe
  rw [hframe, hw]
  rfl

/-- A window read that meets an uncorrectable codeword answers its address. -/
theorem ue_spec {w : State} {y st : Nat} {b : Bytes} (hw : rg w rHP_CFG = rg s rHP_CFG)
    (ht : t = rdDeliver { hpErr w y with hp := { (hpErr w y).hp with held := none } } st b) : rdSays s t st b ∧ t.hp.errAddr = y ∧ t.hp.held = none := by
  have hcfg : rg { hpErr w y with hp := { (hpErr w y).hp with held := none } } rHP_CFG = rg w rHP_CFG := rg_congr rfl _
  refine ⟨?_, ?_, ?_⟩
  · rw [ht]
    exact rdSays_rdDeliver (crcOn_congr (hcfg.trans hw)) _ _
  · rw [ht, rdDeliver_hp]
    rfl
  · rw [ht, rdDeliver_hp]

/-- An ignored command is counted in register `x`. -/
theorem ignored_spec {u : State} {x : Nat} (hu : u.regs = s.regs) (ht : t = bump { u with reply := [] } x) :
    t.reply = [] ∧ counted s t x 1 ∧ regsBut s t [x] ∧ t.hp = u.hp := by
  have hX : ∀ y, rg { u with reply := [] } y = rg s y := rg_congr hu
  refine ⟨by rw [ht, bump_reply], by rw [counted, ht, rg_bump_same, hX], fun y hy => ?_, by rw [ht, bump_hp]⟩
  rw [ht, rg_bump_other _ (by simpa [eq_comm] using hy), hX]

/-! ### The commands -/

theorem runsTo_rd {addr len crc : Nat} {ready early : Bool} {hit : RqHit} {meets : List (Nat × Bool)} {P : State → Prop} (hr : s.boot.ready = true)
    (h : P (hpRd (hpTaken s) addr len crc ready early hit meets)) : runsTo (.rd addr len crc ready early hit meets) s P :=
  ⟨_, congrArg Host.Outcome.next (hpTrans_ready hr _), h⟩

section
variable {addr len crc x : Nat} {hit : RqHit} (hr : s.boot.ready = true) (hb : crcOn (hpTaken s) = false ∨ crc = rdCrc addr len)
  (hn : (hpTaken s).hp.held = none) (hx : hpTarget s addr len = .mem x) (hu : memUp s x = true)
include hr hb hn hx hu

/-- A window read that meets no uncorrectable codeword: the bytes, or in the tier an entry with a parity error (log entry 143). -/
theorem rd_window (hbad : devBad s x (hpBytes len) = none) :
    (¬(tierBase ≤ x ∧ x < lpBase) → runsTo (.rd addr len crc true false hit []) s fun t =>
      rdSays s t 0x00 (memR s x (hpBytes len)) ∧ t = { s with hp := (hpTaken s).hp, obs := t.obs, reply := t.reply }) ∧
    (tierBase ≤ x ∧ x < lpBase → tierParity s x (hpBytes len) = false → runsTo (.rd addr len crc true false hit []) s fun t =>
      rdSays s t 0x00 (tierR s x (hpBytes len)) ∧ t = { s with hp := (hpTaken s).hp, obs := t.obs, reply := t.reply }) ∧
    (tierBase ≤ x ∧ x < lpBase → tierParity s x (hpBytes len) = true → runsTo (.rd addr len crc true false hit []) s fun t =>
      rdSays s t 0x12 (List.replicate (hpBytes len) 0) ∧ t.hp = { (hpTaken s).hp with errAddr := x } ∧ t.mem = s.mem ∧ regsBut s t [rHP_ISR]) := by
  rw [← hpTarget_hpTaken] at hx
  rw [← memUp_hpTaken] at hu
  have hread := hpRead_mem (hit := hit) hx hu
  have hcount := (CountsOnly.lpCount (hpTaken s) 0 x (hpBytes len)).1
  rw [show devBad (hpTaken s) x (hpBytes len) = none from hbad] at hread
  dsimp only at hread
  generalize lpCount (hpTaken s) 0 x (hpBytes len) = w at hread hcount
  refine ⟨fun hin => runsTo_rd hr ?_, fun hin hp => runsTo_rd hr ?_, fun hin hp => runsTo_rd hr ?_⟩
  · rw [if_neg hin] at hread
    rw [hpRd_access hb hn hread, if_neg (by decide), rdAnswer_ready]
    exact window_spec hcount hn (by decide) rfl
  · rw [if_pos hin, if_neg (by rw [tierParity_congr (t := hpTaken s) (s := s) rfl rfl, hp]; exact Bool.false_ne_true),
      tierR_congr (t := hpTaken s) (s := s) rfl rfl rfl] at hread
    rw [hpRd_access hb hn hread, if_neg (by decide), rdAnswer_ready]
    exact window_spec hcount hn (by decide) rfl
  · rw [if_pos hin, if_pos (by rw [tierParity_congr (t := hpTaken s) (s := s) rfl rfl, hp])] at hread
    rw [hpRd_access hb hn hread, if_neg (by decide), rdAnswer_ready]
    have hheld : (hpErr w x).hp = { (hpTaken s).hp with errAddr := x } := by rw [hcount]; rfl
    rw [held_none (by rw [hheld]; exact hn)]
    obtain ⟨hs, hp, hm, hreg⟩ :=
      error_spec (s := s) (u := hpErr w x) (st := 0x12) (b := List.replicate (hpBytes len) 0) (by rw [hcount]; rfl) rfl
    exact ⟨hs, hp.trans hheld, hm.trans (by rw [hcount]; rfl), hreg⟩

theorem rd_window_ue {y : Nat} (hbad : devBad s x (hpBytes len) = some y) : runsTo (.rd addr len crc true false hit []) s fun t =>
    rdSays s t 0x12 (List.replicate (hpBytes len) 0) ∧ t.hp.errAddr = y ∧ t.hp.held = none := by
  rw [← hpTarget_hpTaken] at hx
  rw [← memUp_hpTaken] at hu
  have hread := hpRead_mem (hit := hit) hx hu
  have hcount := (CountsOnly.lpCount (hpTaken s) 0 x (hpBytes len)).1
  rw [show devBad (hpTaken s) x (hpBytes len) = some y from hbad] at hread
  dsimp only at hread
  generalize lpCount (hpTaken s) 0 x (hpBytes len) = w at hread hcount
  have hcfg : rg (hpUe w y) rHP_CFG = rg s rHP_CFG := (Leaves.refl w).hpUe.hpCfg.trans (rg_congr (by rw [hcount]; rfl) _)
  refine runsTo_rd hr ?_
  rw [hpRd_access hb hn hread, if_neg (by decide), rdAnswer_ready]
  exact ue_spec hcfg rfl

end

theorem crcOn_hpTaken (s : State) : crcOn (hpTaken s) = crcOn s := crcOn_congr (rg_congr rfl _)

/-- Settles O54: what `hpRd` does in each of its cases (`hpRd_crcBad`, `hpRd_held`, `hpRd_access` with the lemmas for `hpRead`), and what
each end of an RD leaves. -/
theorem hostPortReads : Obligations.HostPortReads := by
  intro s addr len crc hit meets u n no crcFine
  have hregs : (hpTaken s).regs = s.regs := rfl
  have hheld : (hpTaken s).hp.held = s.hp.held := rfl
  refine ⟨fun hr x y i hi => ?_, fun hr => ⟨fun r hc => ?_, fun hc => ⟨fun r x l e hh hne => ?_, fun e hh => ?_, fun hh => ?_⟩,
    fun complete free => ?_, ?_, ?_, fun ha => ?_, fun ha => ?_⟩⟩
  · simp only [List.mem_cons, List.not_mem_nil, or_false] at hi
    rcases hi with rfl | rfl | rfl | rfl | rfl <;> exact ⟨_, rfl, hpTrans_idle hr _⟩
  · have hb : ¬(crcOn (hpTaken s) = false ∨ crc = rdCrc addr len) := by rwa [crcOn_hpTaken]
    refine ⟨runsTo_rd hr ?_, runsTo_rd hr ?_⟩
    · exact crcBad_spec hregs (by decide) (by decide) (by decide) ((hpRd_crcBad hb).trans rdFail_says)
    · rw [hpRd_crcBad hb, rdFail, if_pos rfl, hpPort_frame]
      exact ⟨rfl, rfl⟩
  · have hb : crcOn (hpTaken s) = false ∨ crc = rdCrc addr len := by rwa [crcOn_hpTaken]
    refine ⟨runsTo_rd hr ?_, runsTo_rd hr ?_⟩
    · rw [hpRd_held hb (hheld.trans hh), if_neg hne, if_neg Bool.false_ne_true]
      exact ⟨rdSays_rdReply (crcOn_hpTaken s) _ _, rdReply_frame _ _ _⟩
    · rw [hpRd_held hb (hheld.trans hh), if_neg hne, if_pos rfl]
  · have hb : crcOn (hpTaken s) = false ∨ crc = rdCrc addr len := by rwa [crcOn_hpTaken]
    refine ⟨runsTo_rd hr ?_, runsTo_rd hr ?_⟩
    · rw [hpRd_held hb (hheld.trans hh), if_pos ⟨rfl, rfl⟩, rdAnswer_ready]
      obtain ⟨hs, hp, -, -⟩ := error_spec (s := s) (u := { hpTaken s with hp := { (hpTaken s).hp with held := none } }) hregs rfl
      exact ⟨hs, congrArg HostPort.held hp, by rw [hp]; exact rdDeliver_frame _ _ _⟩
    · rw [hpRd_held hb (hheld.trans hh), if_pos ⟨rfl, rfl⟩, rdAnswer_retry]
      obtain ⟨hs, hc, hb, hp⟩ := retry_spec (s := s) (u := hpTaken s) (x := rHP_RETRY) hregs (by decide) rfl
      exact ⟨hs, hc, hb, _, congrArg HostPort.held hp, rfl⟩
  · have hb : crcOn (hpTaken s) = false ∨ crc = rdCrc addr len := by rwa [crcOn_hpTaken]
    have hn : (hpTaken s).hp.held = none := hheld.trans hh
    refine ⟨fun x hx r => runsTo_rd hr ?_, fun hx hu r => runsTo_rd hr ?_, fun hx hu => ?_, fun o hx => runsTo_rd hr ?_,
      fun x hx => ⟨fun hu => runsTo_rd hr ?_, fun hu hbad => ?_, fun y hu hbad => ?_⟩⟩
    · rw [← hpTarget_hpTaken] at hx
      rw [hpRd_access hb hn (hpRead_bad hx), if_pos (Or.inl rfl), rdFail_says]
      obtain ⟨hs, hp, hm, hreg⟩ := error_spec (u := hpErr (hpTaken s) x) hregs rfl
      exact ⟨hs, hp, hm, hreg⟩
    · rw [← hpTarget_hpTaken] at hx
      rw [← unitsUp_hpTaken] at hu
      rw [hpRd_access hb hn (hpRead_direct_down hx hu), if_pos (Or.inr rfl), rdFail_says]
      exact error_spec hregs rfl
    · rw [← hpTarget_hpTaken] at hx
      rw [← unitsUp_hpTaken] at hu
      have hread : ∀ r e, hpRd (hpTaken s) addr len crc r e hit meets = _ :=
        fun r e => (hpRd_access hb hn (hpRead_direct hx hu)).trans (if_neg (by decide))
      obtain ⟨hready, hretry, hearly⟩ := direct_spec (unitsRead (hpUnits addr (hpBytes len)) (hpTaken s) hit).2
        (unitsRead (hpUnits addr (hpBytes len)) (hpTaken s) hit).1 addr len false
      refine ⟨runsTo_rd hr ?_, runsTo_rd hr ?_, runsTo_rd hr ?_⟩
      · rw [hread]
        exact hready
      · rw [hread]
        exact hretry
      · rw [hread]
        exact hearly
    · rw [← hpTarget_hpTaken] at hx
      rw [hpRd_access hb hn (hpRead_xbuf hx), if_neg (by decide), rdAnswer_ready, held_none hn]
      exact ready_spec hregs (by decide) rfl
    · rw [← hpTarget_hpTaken] at hx
      rw [← memUp_hpTaken] at hu
      rw [hpRd_access hb hn (hpRead_mem_down hx hu), if_pos (Or.inr rfl), rdFail_says]
      obtain ⟨hs, hp, hm, -⟩ := error_spec (u := hpTaken s) hregs rfl
      exact ⟨hs, hp, hm⟩
    · exact rd_window hr hb hn hx hu hbad
    · exact rd_window_ue hr hb hn hx hu hbad
  · refine ⟨_, congrArg Host.Outcome.next (hpTrans_ready hr _), ?_, rfl⟩
    rw [hpRdsr, alertN_hpTaken, mboxPending_hpTaken, show (hpTaken s).boot.ready = true from hr]
    rfl
  · refine ⟨_, congrArg Host.Outcome.next (hpTrans_ready hr _), ?_, ?_, rfl⟩
    · simp [hpRdid, slice]
    · simp [hpRdid]
  · exact ⟨_, congrArg Host.Outcome.next (hpTrans_ready hr _), rfl⟩
  · exact ⟨_, congrArg Host.Outcome.next (hpTrans_ready hr _), if_pos ha⟩
  · refine ⟨_, congrArg Host.Outcome.next (hpTrans_ready hr _), ?_⟩
    rw [ha, hpRst, if_neg Bool.false_ne_true]
    exact ignored_spec hregs rfl

end Sys2Proof.Machine
end

section
/-! PROOFS. Bounds, holds and windows that end (O12). A verdict that is formed is counted once: all else that the verdict unit does then *spares*
the counts, and leaves a frame that has been released as released. One lemma for each function of the model that forming a verdict reaches, named
after it as in the proofs of O60. -/

namespace Sys2Proof.Machine

open Sys2Proof

-- One declaration after the other: the whole text is checked within a fixed memory.
set_option Elab.async false

variable {a s t : State} {p k : Nat}

/-! ### What forming a verdict spares -/

/-- Frame `k` waits for no verdict, if it is still there. -/
def Released (s : State) (k : Nat) : Prop := ∀ f, frameGet s k = some f → f.stage = .done ∧ f.hold = none

/-- From `s` to `t` partition `p` has counted no verdict, and frame `k` waits for none where it did not before. -/
structure Spares (p k : Nat) (s t : State) : Prop where
  verdicts : rg t (rVD_VERDICTS p) = rg s (rVD_VERDICTS p)
  late : rg t (rVD_LATE_DEFAULT p) = rg s (rVD_LATE_DEFAULT p)
  released : Released s k → Released t k

theorem Spares.refl (s : State) : Spares p k s s := ⟨rfl, rfl, id⟩

theorem Spares.trans (h : Spares p k a s) (g : Spares p k s t) : Spares p k a t :=
  ⟨g.verdicts.trans h.verdicts, g.late.trans h.late, fun r => g.released (h.released r)⟩

/-- A change of anything but registers and frames. -/
theorem Spares.apart (h : Spares p k a s) (hr : t.regs = s.regs := by rfl) (hf : t.frames = s.frames := by rfl) : Spares p k a t := by
  obtain ⟨hv, hl, hrel⟩ := h
  refine ⟨(rg_congr hr _).trans hv, (rg_congr hr _).trans hl, fun h f hg => hrel h f ?_⟩
  rwa [frameGet, hf] at hg

theorem Spares.ite {c : Prop} [Decidable c] (hs : Spares p k a s) (ht : Spares p k a t) : Spares p k a (if c then s else t) := by
  split <;> assumption

theorem Spares.foldl {γ : Type} {f : State → γ → State} {l : List γ} (h : Spares p k a s)
    (hf : ∀ x y, Spares p k a x → Spares p k a (f x y)) : Spares p k a (l.foldl f s) := List.foldlRecOn _ _ h fun x hx y _ => hf x y hx

theorem Spares.snd {β : Type} {r : β × State} {b : β} (e : r = (b, t)) (h : Spares p k a r.2) : Spares p k a t := by rwa [e] at h

theorem Spares.thd {β γ : Type} {r : β × γ × State} {b : β} {c : γ} (e : r = (b, c, t)) (h : Spares p k a r.2.2) : Spares p k a t := by
  rwa [e] at h

theorem Spares.fth {β γ δ : Type} {r : β × γ × δ × State} {b : β} {c : γ} {e : δ} (he : r = (b, c, e, t)) (h : Spares p k a r.2.2.2) :
    Spares p k a t := by
  rwa [he] at h

/-- A register that does not count verdicts is written. -/
theorem Spares.rgw {x v : Nat} (h : Spares p k a s)
    (hx : x ≠ rVD_VERDICTS p ∧ x ≠ rVD_LATE_DEFAULT p := by simp only [vdA, tmA, rqA]; omega) : Spares p k a (rgw s x v) := by
  obtain ⟨hv, hl, hrel⟩ := h
  exact ⟨(rg_rgw_other _ _ hx.1).trans hv, (rg_rgw_other _ _ hx.2).trans hl, hrel⟩

theorem Spares.bump {x : Nat} (h : Spares p k a s)
    (hx : x ≠ rVD_VERDICTS p ∧ x ≠ rVD_LATE_DEFAULT p := by simp only [vdA, tmA, rqA]; omega) : Spares p k a (bump s x) := h.rgw hx

theorem Spares.cinc {i n : Nat} (h : Spares p k a s) : Spares p k a (cinc s i n) := h.apart

/-! ### Frames -/

/-- A frame is stored again, with the stage and the hold that it had. -/
theorem Spares.framePut {j : Nat} {f g : Frame} (h : Spares p k a s) (hf : frameGet s j = some f) (hs : g.stage = f.stage) (hh : g.hold = f.hold) :
    Spares p k a (framePut s j g) := by
  obtain ⟨hv, hl, hrel⟩ := h
  refine ⟨hv, hl, fun h e he => ?_⟩
  rw [frameGet, Machine.framePut, tget_tset] at he
  split at he
  · obtain rfl := Option.some.inj he
    subst_vars
    rw [hs, hh]
    exact hrel h f hf
  · exact hrel h e he

theorem Spares.headDrop {n : Option Nat} (h : Spares p k a s) : Spares p k a (headDrop s n) := by
  unfold Machine.headDrop
  split
  exacts [h.apart, h]

theorem Spares.frameGone {j : Nat} (h : Spares p k a s) : Spares p k a { s with frames := tset none s.frames j none } := by
  obtain ⟨hv, hl, hrel⟩ := h
  refine ⟨hv, hl, fun h e he => hrel h e ?_⟩
  rw [frameGet, tget_tset] at he
  split at he
  · cases he
  · exact he

theorem Spares.cellsFree {q : Nat} {cs : List Nat} (h : Spares p k a s) : Spares p k a (cellsFree s q cs) := h.apart

theorem Spares.frameUnref {j : Nat} (h : Spares p k a s) : Spares p k a (frameUnref s j) := by
  unfold Machine.frameUnref
  split
  · exact h
  · rename_i hf
    exact .ite h.frameGone.headDrop.cellsFree (h.framePut hf rfl rfl)

theorem Spares.frameRef {j : Nat} (h : Spares p k a s) : Spares p k a (frameRef s j) := by
  unfold Machine.frameRef
  split
  · exact h
  · rename_i hf
    exact h.framePut hf rfl rfl

/-! ### The traffic manager -/

theorem Spares.polPut {q i : Nat} {v : Policer} (h : Spares p k a s) : Spares p k a (polPut s q i v) := h.apart

theorem Spares.qPut {n q : Nat} {v : TmQueue} (h : Spares p k a s) : Spares p k a (qPut s n q v) := h.apart

theorem Spares.tmDropped {n : Nat} (h : Spares p k a s) : Spares p k a (tmDropped s n) := h.cinc

theorem Spares.queueDrop {n q : Nat} (h : Spares p k a s) : Spares p k a (queueDrop s n q) := h.qPut.tmDropped

theorem Spares.aqmActs {q n d : Nat} (h : Spares p k a s) : Spares p k a (aqmActs s q n d).2 := by
  unfold Machine.aqmActs
  extract_lets
  split
  · exact h
  · split
    · exact h
    · split
      exacts [h, h.apart]

theorem Spares.admitAt {n m q : Nat} {e : QEnt} {ecn : Nat} (h : Spares p k a s) : Spares p k a (admitAt s n m q e ecn).2 := by
  unfold Machine.admitAt
  extract_lets
  split
  · exact h.bump.queueDrop
  · split
    · exact h.bump.queueDrop
    · split
      · rename_i _ t e
        have h1 : Spares p k a t := Spares.snd e h.aqmActs
        extract_lets
        split
        exacts [h1.bump.queueDrop, (Spares.ite h1.bump.cinc h1).qPut.cinc]

/-! ### The ledger -/

theorem Spares.slotPut {q i : Nat} {v : Option LSlot} (h : Spares p k a s) : Spares p k a (slotPut s q i v) := h.apart

theorem Spares.flowCharge {q c : Nat} {up : Bool} {frames bytes : Nat} (h : Spares p k a s) : Spares p k a (flowCharge s q c up frames bytes) :=
  h.apart

theorem Spares.entPut {q : Nat} {ep : Bool} {i : Nat} {v : Option GEnt} (h : Spares p k a s) : Spares p k a (entPut s q ep i v) := h.apart

theorem Spares.entVs {q i uid : Nat} {f : VState → VState} (h : Spares p k a s) : Spares p k a (entVs s q i uid f) := by
  unfold Machine.entVs
  split
  exacts [.ite h.entPut h, h]

theorem Spares.slotSettle {q i : Nat} (h : Spares p k a s) : Spares p k a (slotSettle s q i) := by
  unfold Machine.slotSettle
  split
  exacts [.ite h.slotPut h, h]

theorem Spares.slotResolve {q i : Nat} (h : Spares p k a s) : Spares p k a (slotResolve s q i) := by
  unfold Machine.slotResolve
  split
  exacts [h, h.slotPut.entVs.slotSettle]

theorem Spares.rqPut {q : Nat} {v : RqQueue} (h : Spares p k a s) : Spares p k a (rqPut s q v) := h.apart

theorem Spares.stage {writer queue prio type : Nat} {body : Bytes} (h : Spares p k a s) : Spares p k a (stage s writer queue prio type body) :=
  .ite h.rqPut.bump.bump h.apart

theorem Spares.reclass {q i b : Nat} {final : Bool} {x : Verdict} (h : Spares p k a s) : Spares p k a (reclass s q i b final x) := by
  unfold Machine.reclass
  split
  · exact h
  · extract_lets _ _ s1 s2 s3 _ _ _ _ _
    have h1 : Spares p k a s1 := .ite (Spares.ite h.flowCharge h).flowCharge (.ite h.flowCharge h)
    have h2 : Spares p k a s2 := by
      unfold s2
      split
      exacts [h1.polPut, h1]
    have h3 : Spares p k a s3 := by
      unfold s3
      split
      exacts [h2.polPut, h2]
    exact (Spares.ite h3.slotPut.stage h3.slotPut).bump.cinc

theorem Spares.slotJoin {q entry uid : Nat} {x : Verdict} (h : Spares p k a s) : Spares p k a (slotJoin s q entry uid x).2.2 := by
  unfold Machine.slotJoin
  split
  · exact h
  · split
    · exact h
    · split
      · split
        exacts [h, h.reclass]
      · split
        · exact h.bump
        · dsimp only
          exact h.slotPut.entVs

theorem Spares.slotTally {q i n len mb : Nat} {queued : Bool} (h : Spares p k a s) : Spares p k a (slotTally s q i n len mb queued) := by
  unfold Machine.slotTally
  split
  exacts [h.slotPut, h]

/-! ### The frame's actions -/

theorem Spares.memW {x : Nat} {l : Bytes} (h : Spares p k a s) : Spares p k a (memW s x l) := by
  have hc : Spares p k a (Machine.lpCount s 1 x l.length) := .ite h (h.foldl fun _ _ h => h.cinc)
  exact .ite h hc.apart

theorem Spares.capWrite {base size n : Nat} {b : Bytes} {off : Nat} (h : Spares p k a s) : Spares p k a (capWrite s base size n b off).1 := by
  induction n generalizing s b off with
  | zero => exact h
  | succ n ih => exact ih h.memW

theorem Spares.drawFree {w : Nat} (h : Spares p k a s) : Spares p k a (drawFree s w).2 := h.apart

theorem Spares.captureCopy {q : Nat} {f : Frame} {x : Verdict} {d entry len : Nat} (h : Spares p k a s) :
    Spares p k a (captureCopy s q f x d entry len) :=
  .ite (h.drawFree (w := 32)).bump ((h.drawFree (w := 32)).capWrite.foldl fun _ _ h => h.rgw)

theorem Spares.mirrorCopy {q j : Nat} {f : Frame} {x : Verdict} {d entry : Nat} (h : Spares p k a s) :
    Spares p k a (mirrorCopy s q j f x d entry) := .ite h (.ite h (.ite h.captureCopy (.ite h.frameRef.admitAt h.frameRef.admitAt.frameUnref)))

theorem Spares.admission {q j : Nat} {f : Frame} {x : Verdict} {d : Nat} {slot : Option Nat} {entry : Nat} (h : Spares p k a s) :
    Spares p k a (admission s q j f x d slot entry).2.2 := by
  unfold Machine.admission
  extract_lets
  split
  · exact h.bump.tmDropped.frameUnref
  · split
    rename_i _ _ _ t e
    have h1 : Spares p k a t := Spares.fth e <| by
      split
      exacts [h.polPut, h]
    split
    · exact h1.bump.tmDropped.frameUnref
    · extract_lets
      split
      exacts [(Spares.ite h1.bump h1).frameUnref, .ite (Spares.ite h1.bump h1).admitAt (Spares.ite h1.bump h1).admitAt.frameUnref]

/-! ### A verdict -/

theorem released_framePut {f : Frame} (hs : f.stage = .done) (hh : f.hold = none) : Released (framePut s k f) k := by
  intro g hg
  obtain rfl := Option.some.inj ((tget_tset_same none s.frames k (some f)).symm.trans hg)
  exact ⟨hs, hh⟩

/-- The frame to which a verdict's actions apply waits no more, and no verdict is counted. -/
theorem applyFrame_spec (s : State) (p k : Nat) (x : Verdict) (dcls : Nat) (slot : Option Nat) (entry : Nat) :
    Spares p k s (applyFrame s k x dcls slot entry) ∧ Released (applyFrame s k x dcls slot entry) k := by
  unfold applyFrame
  split
  · rename_i h
    exact ⟨.refl s, fun f hf => by cases h.symm.trans hf⟩
  · extract_lets _ _ s1 _ s2 s3
    have hrel : Released s1 k := released_framePut rfl rfl
    have h1 : Spares p k s s1 := ⟨rfl, rfl, fun _ => hrel⟩
    have h2 : Spares p k s1 s2 := .ite (Spares.refl s1).bump (.refl s1)
    have h3 : Spares p k s1 s3 := h2.mirrorCopy
    suffices h5 : Spares p k s1 _ from ⟨h1.trans h5, h5.released hrel⟩
    split
    rename_i _ _ s4 e
    have h4 : Spares p k s1 s4 := .thd e (Spares.ite h3.flowCharge h3).admission
    split
    exacts [h4.slotTally, h4]

theorem lateCounted_spec (s : State) (p i j : Nat) :
    counted s (cinc (bump (cinc (bump s (rVD_VERDICTS p)) i 1) (rVD_LATE_DEFAULT p)) j 1) (rVD_VERDICTS p) 1 ∧
    counted s (cinc (bump (cinc (bump s (rVD_VERDICTS p)) i 1) (rVD_LATE_DEFAULT p)) j 1) (rVD_LATE_DEFAULT p) 1 := by
  have hne : rVD_VERDICTS p ≠ rVD_LATE_DEFAULT p := by simp only [vdA]; omega
  constructor
  · rw [counted, rg_congr (cinc_regs _ _ _), rg_bump_other _ hne.symm, rg_congr (cinc_regs _ _ _), rg_bump_same]
  · rw [counted, rg_congr (cinc_regs _ _ _), rg_bump_same, rg_congr (cinc_regs _ _ _), rg_bump_other _ hne]

theorem Spares.fwdPut {q i : Nat} {v : Option Fwd} (h : Spares p k a s) : Spares p k a (fwdPut s q i v) := h.apart

theorem Spares.jPut {q i : Nat} {v : Option JSlot} (h : Spares p k a s) : Spares p k a (jPut s q i v) := h.apart

/-- A verdict that is a default because the bound has passed counts as such, and the frame that it was for waits no more. -/
theorem formVerdict_late {flow : Option (Nat × Nat)} {entry : Nat} {x : Verdict} {dcls : Nat} (hx : x.late = true) :
    counted s (formVerdict s p flow entry x dcls (some k)) (rVD_VERDICTS p) 1 ∧
    counted s (formVerdict s p flow entry x dcls (some k)) (rVD_LATE_DEFAULT p) 1 ∧ Released (formVerdict s p flow entry x dcls (some k)) k := by
  unfold formVerdict
  extract_lets _ _ s1 slot _
  have h1 : Spares p k s s1 := by
    unfold s1
    split
    exacts [(Spares.refl s).entVs, .refl s]
  split
  rename_i _ s2 e
  have h2 : Spares p k s s2 := by
    refine .snd e ?_
    clear_value slot
    split
    · exact h1
    · extract_lets
      split
      · exact (Spares.ite h1.reclass h1.bump).slotResolve
      · split
        exacts [h1.reclass, h1]
  split
  rename_i _ _ s3 e
  have h3 : Spares p k s s3 := by
    refine .thd e ?_
    split
    · split
      exacts [h2.slotJoin, h2]
    · exact h2
  extract_lets x' _ _ s4 s5 s6 s7 s8
  have h4 : Spares p k s s4 := .ite h3.stage h3
  have h6 : s6 = cinc (bump s5 (rVD_LATE_DEFAULT p)) (cPart p 8) 1 := if_pos hx
  have h8 : Spares p k s6 s8 := .ite (Spares.ite (Spares.refl s6).bump (.refl s6)).bump (.ite (Spares.refl s6).bump (.refl s6))
  obtain ⟨h9, hrel⟩ := applyFrame_spec s8 p k x' dcls _ entry
  obtain ⟨hv, hl, -⟩ := h8.trans h9
  obtain ⟨cv, cl⟩ := lateCounted_spec s4 p (cPart p (if x'.prov = true then 7 else 6)) (cPart p 8)
  rw [← show s6 = _ from h6, counted] at cv cl
  exact ⟨by rw [counted, hv, cv, h4.verdicts], by rw [counted, hl, cl, h4.late], hrel⟩

/-! ### The latency bound (R27, R28) -/

theorem latencyExpiry_waits {f : Frame} {w : Hold} (hf : frameGet s k = some f) (hw : f.hold = some w)
    (h : s.gt < w.until_ ∨ (w.forwarded = false ∧ vdWaits s f.part w.req = true)) : latencyExpiry s k = s := by
  simp only [latencyExpiry, hf, hw]
  exact if_pos (by simpa using h)

theorem latencyExpiry_late {f : Frame} {w : Hold} (hf : frameGet s k = some f) (hw : f.hold = some w) (hu : w.until_ ≤ s.gt)
    (hn : w.forwarded = true ∨ vdWaits s f.part w.req = false) :
    Released (latencyExpiry s k) k ∧ counted s (latencyExpiry s k) (rVD_LATE_DEFAULT f.part) 1 ∧
    counted s (latencyExpiry s k) (rVD_VERDICTS f.part) 1 := by
  have hdue : ¬(decide (s.gt < w.until_) || (!w.forwarded && vdWaits s f.part w.req)) = true := by
    rcases hn with hn | hn <;> simp [hn, hu]
  unfold latencyExpiry
  split
  · rename_i h
    cases h.symm.trans hf
  rename_i h
  obtain rfl := Option.some.inj (hf.symm.trans h)
  split
  · rename_i h
    cases h.symm.trans hw
  rename_i h
  obtain rfl := Option.some.inj (hw.symm.trans h)
  extract_lets q
  rw [if_neg hdue]
  split
  rename_i _ _ _ u e
  have hs : Spares f.part k s u := by
    refine .fth e ?_
    split
    · split
      exacts [(Spares.refl s).fwdPut, .refl s]
    · split
      exacts [(Spares.refl s).jPut, .refl s]
  obtain ⟨hv, hl, hrel⟩ := formVerdict_late (s := u) (p := f.part) (k := k) (x := lateVerdict w.defClass w.ctx f.gt _) rfl
  exact ⟨hrel, by rwa [counted, hs.late] at hl, by rwa [counted, hs.verdicts] at hv⟩

/-! ### The ledger's hold (R210) -/

theorem slotGet_slotPut (s : State) (p i j : Nat) (v : Option LSlot) : slotGet (slotPut s p i v) p j = if i = j then v else slotGet s p j := by
  simp only [slotGet, slotPut, vdGet, vdPut, tget_tset_same, tget_tset]

/-- A change of an entry's VSTATE leaves everything but the entries. -/
theorem entVs_frame (s : State) (p i u : Nat) (f : VState → VState) : entVs s p i u f = { s with shares := (entVs s p i u f).shares } := by
  unfold entVs
  split
  · split <;> rfl
  · rfl

theorem slotGet_congr (h : t.vds = s.vds) (p i : Nat) : slotGet t p i = slotGet s p i := by rw [slotGet, slotGet, vdGet, vdGet, h]

theorem slotGet_entVs (s : State) (p i u : Nat) (f : VState → VState) (q j : Nat) : slotGet (entVs s p i u f) q j = slotGet s q j := by
  rw [entVs_frame]
  rfl

theorem slotSettle_slot {i : Nat} {l : LSlot} (h : slotGet s p i = some l) :
    slotSettle s p i = if !l.opened && l.qleft == 0 then slotPut s p i none else s := by
  simp only [slotSettle, h]

/-- A slot that is resolved is free when none of its frames is queued, and else stays resolved. -/
theorem slotResolve_spec {i : Nat} {l : LSlot} (h : slotGet s p i = some l) :
    slotGet (slotResolve s p i) p i = (if l.qleft = 0 then none else some { l with opened := false }) ∧
    (∀ j, j ≠ i → slotGet (slotResolve s p i) p j = slotGet s p j) ∧
    (slotResolve s p i).regs = s.regs ∧ (slotResolve s p i).mem = s.mem := by
  unfold slotResolve
  split
  · rename_i hn
    cases h.symm.trans hn
  rename_i hn
  obtain rfl := Option.some.inj (h.symm.trans hn)
  extract_lets s1 s2
  have h2 : ∀ j, slotGet s2 p j = if i = j then some { l with opened := false } else slotGet s p j :=
    fun j => (slotGet_entVs _ _ _ _ _ _ _).trans (slotGet_slotPut _ _ _ _ _)
  have hs2 : s2 = { s1 with shares := s2.shares } := entVs_frame _ _ _ _ _
  have hregs : s2.regs = s.regs := by rw [hs2]; rfl
  have hmem : s2.mem = s.mem := by rw [hs2]; rfl
  rw [slotSettle_slot ((h2 i).trans (if_pos rfl))]
  by_cases hq : l.qleft = 0
  · simp only [hq, Bool.not_false, Bool.true_and, beq_self_eq_true, if_true]
    exact ⟨(slotGet_slotPut _ _ _ _ _).trans (if_pos rfl),
      fun j hj => by rw [slotGet_slotPut, if_neg hj.symm, h2, if_neg hj.symm], hregs, hmem⟩
  · simp only [hq, Bool.not_false, Bool.true_and, beq_iff_eq, if_false]
    exact ⟨(h2 i).trans (if_pos rfl), fun j hj => by rw [h2, if_neg hj.symm], hregs, hmem⟩

theorem ledgerHold_waits {i : Nat} {l : LSlot} (h : slotGet s p i = some l)
    (hw : l.opened = false ∨ s.gt - l.since < 1000 * max 1 (rgf s (rVD_LEDGER p) 31 16) ∨ finalWaits s p l.uid = true) : ledgerHold s p i = s := by
  simp only [ledgerHold, h]
  refine if_neg fun hc => ?_
  simp only [Bool.and_eq_true, decide_eq_true_eq, Bool.not_eq_true'] at hc
  obtain ⟨⟨ho, hd⟩, hf⟩ := hc
  rcases hw with hw | hw | hw
  · exact Bool.noConfusion (hw.symm.trans ho)
  · omega
  · exact Bool.noConfusion (hf.symm.trans hw)

theorem ledgerHold_due {i : Nat} {l : LSlot} (h : slotGet s p i = some l) (ho : l.opened = true)
    (hd : 1000 * max 1 (rgf s (rVD_LEDGER p) 31 16) ≤ s.gt - l.since) (hf : finalWaits s p l.uid = false) :
    ledgerHold s p i = bump (slotResolve s p i) (rVD_STOOD p) := by
  simp only [ledgerHold, slotStood, h, ho, hf, hd, decide_true, Bool.not_false, Bool.and_self, if_true]

theorem ledgerHold_spec {i : Nat} {l : LSlot} (h : slotGet s p i = some l) (ho : l.opened = true)
    (hd : 1000 * max 1 (rgf s (rVD_LEDGER p) 31 16) ≤ s.gt - l.since) (hf : finalWaits s p l.uid = false) :
    slotGet (ledgerHold s p i) p i = (if l.qleft = 0 then none else some { l with opened := false }) ∧
    (∀ j, j ≠ i → slotGet (ledgerHold s p i) p j = slotGet s p j) ∧ counted s (ledgerHold s p i) (rVD_STOOD p) 1 ∧
    regsBut s (ledgerHold s p i) [rVD_STOOD p] ∧ (ledgerHold s p i).mem = s.mem := by
  obtain ⟨hi, hj, hr, hm⟩ := slotResolve_spec h
  rw [ledgerHold_due h ho hd hf]
  have hv : ∀ j, slotGet (bump (slotResolve s p i) (rVD_STOOD p)) p j = slotGet (slotResolve s p i) p j := slotGet_congr (bump_vds _ _) p
  refine ⟨(hv i).trans hi, fun j hne => (hv j).trans (hj j hne), ?_, fun x hx => ?_, (bump_mem _ _).trans hm⟩
  · rw [counted, rg_bump_same, rg_congr hr]
  · rw [rg_bump_other _ (by simpa [eq_comm] using hx), rg_congr hr]

/-! ### The sampling window (R215) -/

/-- The sampling state of a context when a window ends that had a demand input active as `level` says, or had noted one. -/
def windowStep (smax recover : Nat) (level : Bool) (v : Samp) : Samp := { sampStep smax recover (v.now || level) v with now := level }

/-- Context `c` of partition `p` steps. -/
def windowEnds (smax recover p : Nat) (s : State) (c : Nat) : State :=
  sampPut s p c (windowStep smax recover (demandLevel s p c) (sampGet s p c))

/-- The contexts that step at the end of a window of partition `p`. -/
def windowCtxs (s : State) (p : Nat) : List Nat :=
  ((vdGet s p).samp.map fun e => e.1) ++
    (s.ctxs.filter fun e => tilePart s (e.1 / 1024) == p && !thas (vdGet s p).samp e.1).map fun e => e.1

theorem sampleWindowEnd_eq (s : State) (p : Nat) : sampleWindowEnd s p =
    (windowCtxs s p).foldl (windowEnds (rgf s (rVD_SAMPLE p) 2 0) (max 1 (rgf s (rVD_SAMPLE p) 31 24)) p) s := rfl

theorem thas_iff {α : Type} {m : Tab α} {c : Nat} : thas m c = true ↔ c ∈ m.map fun e => e.1 := by
  induction m with
  | nil => simp [thas]
  | cons e r ih => simpa only [thas, Bool.or_eq_true, beq_iff_eq, ih, List.map_cons, List.mem_cons] using or_congr_left eq_comm

theorem mem_windowCtxs {c : Nat} : c ∈ windowCtxs s p ↔
    thas (vdGet s p).samp c = true ∨ (thas s.ctxs c = true ∧ tilePart s (c / 1024) = p) := by
  rw [windowCtxs, List.mem_append, ← thas_iff, thas_iff (m := s.ctxs), List.mem_map, List.mem_map]
  by_cases hc : thas (vdGet s p).samp c = true
  · simp [hc]
  · refine or_congr_right ⟨?_, ?_⟩
    · rintro ⟨e, he, rfl⟩
      obtain ⟨hm, hp⟩ := List.mem_filter.mp he
      simp only [Bool.and_eq_true, beq_iff_eq] at hp
      exact ⟨⟨e, hm, rfl⟩, hp.1⟩
    · rintro ⟨⟨e, he, rfl⟩, hp⟩
      exact ⟨e, List.mem_filter.mpr ⟨he, by simp [hp, hc]⟩, rfl⟩

theorem windowCtxs_nodup (hd : ((vdGet s p).samp.map fun e => e.1).Nodup) (hc : (s.ctxs.map fun e => e.1).Nodup) : (windowCtxs s p).Nodup := by
  refine hd.append (hc.sublist (List.filter_sublist.map _)) fun c hin hout => ?_
  obtain ⟨e, he, rfl⟩ := List.mem_map.mp hout
  have hnew := (List.mem_filter.mp he).2
  rw [thas_iff.mpr hin] at hnew
  simp at hnew

theorem sampGet_sampPut (s : State) (p c d : Nat) (v : Samp) : sampGet (sampPut s p c v) p d = if c = d then v else sampGet s p d := by
  simp only [sampGet, sampPut, vdGet, vdPut, tget_tset_same, tget_tset]

/-- The demand inputs that are levels do not depend on the verdict units. -/
theorem demandLevel_sampPut (s : State) (p c : Nat) (v : Samp) : demandLevel (sampPut s p c v) = demandLevel s := rfl

/-- Contexts that step one after the other step as each would alone. -/
theorem windowEnds_foldl {smax recover : Nat} {cs : List Nat} (hcs : cs.Nodup) (s : State) :
    (∀ c ∈ cs, sampGet (cs.foldl (windowEnds smax recover p) s) p c = windowStep smax recover (demandLevel s p c) (sampGet s p c)) ∧
    (∀ c, c ∉ cs → sampGet (cs.foldl (windowEnds smax recover p) s) p c = sampGet s p c) ∧
    (∀ q, q ≠ p → vdGet (cs.foldl (windowEnds smax recover p) s) q = vdGet s q) ∧
    cs.foldl (windowEnds smax recover p) s = { s with vds := (cs.foldl (windowEnds smax recover p) s).vds } := by
  induction cs generalizing s with
  | nil => exact ⟨nofun, fun _ _ => rfl, fun _ _ => rfl, rfl⟩
  | cons d cs ih =>
    obtain ⟨hd, hcs⟩ := List.nodup_cons.mp hcs
    obtain ⟨hin, hout, hvd, hframe⟩ := ih hcs (windowEnds smax recover p s d)
    have hlevel : demandLevel (windowEnds smax recover p s d) = demandLevel s := demandLevel_sampPut _ _ _ _
    have hget : ∀ c, sampGet (windowEnds smax recover p s d) p c = if d = c then windowStep smax recover (demandLevel s p d) (sampGet s p d)
      else sampGet s p c := fun c => sampGet_sampPut _ _ _ _ _
    rw [List.foldl_cons]
    refine ⟨fun c hc => ?_, fun c hc => ?_, fun q hq => (hvd q hq).trans (tget_tset_other _ _ _ hq.symm), hframe⟩
    · rcases List.mem_cons.mp hc with rfl | hc
      · rw [hout c hd, hget, if_pos rfl]
      · rw [hin c hc, hlevel, hget, if_neg (ne_of_mem_of_not_mem hc hd).symm]
    · obtain ⟨hne, hc⟩ := not_or.mp (mt List.mem_cons.mpr hc)
      rw [hout c hc, hget, if_neg (Ne.symm hne)]

/-- Settles O12: what each of the three expiries does when it is due and when it is not; of the verdict that a bound's end forms, that all else the
verdict unit does spares its counts (`Spares`). -/
theorem boundsAndWindows : Obligations.BoundsAndWindows := by
  refine ⟨fun s p cell f w hf hw => ⟨fun hu hn => ?_, fun hn => ?_⟩, fun s p i l hl => ⟨fun ho hd hf => ?_, fun hn => ?_⟩, fun s p => ?_⟩
  · exact ⟨_, rfl, latencyExpiry_late hf hw hu hn⟩
  · exact ⟨_, rfl, latencyExpiry_waits hf hw hn⟩
  · exact ⟨_, rfl, ledgerHold_spec hl ho hd hf⟩
  · exact ⟨_, rfl, ledgerHold_waits hl hn⟩
  intro d smax recover steps hd hc
  refine ⟨_, congrArg Host.Outcome.next (sampleWindowEnd_eq s p), ?_⟩
  obtain ⟨hin, hout, hvd, hframe⟩ := windowEnds_foldl (p := p) (smax := smax) (recover := recover) (windowCtxs_nodup hd hc) s
  exact ⟨fun c h => hin c (mem_windowCtxs.mpr h), fun c h => hout c (mt mem_windowCtxs.mp h), hvd, hframe⟩

end Sys2Proof.Machine
end

section
/-! PROOFS. The end status of a frame that is pending (O20). -/

namespace Sys2Proof.Machine

open Sys2Proof

-- One declaration after the other: the whole text is checked within a fixed memory.
set_option Elab.async false

/-- A frame of 64 bytes on port 0, parsed and good, whose end status is awaited; its partition is 4, one past the last. -/
def frameOfPart4 : Frame :=
  { part := 4, cells := [], refs := 1, bytes := List.replicate 60 0 ++ fcs (List.replicate 60 0), gt := 0, port := 0, sub := 0, endPending := true,
    ptp := false, fecBad := false, seq := 0, fromPeer := false, srcDev := 0, length := 64, headSlot := none, ring := 0, stage := .parsed, hold := none,
    entry := none, ipver := 0, ipoff := 0, color := 0, msgHdr := [], replayed := false, tables := none }

/-- A device at reset that holds it. -/
def holdsFrameOfPart4 : State := framePut State.reset (frameKey 4 0) frameOfPart4

theorem frameGet_framePut_same (s : State) (k : Nat) (f : Frame) : frameGet (framePut s k f) k = some f := tget_tset_same none s.frames k (some f)

/-- The counter of the commits of a pipe 4, which the device has not, is the one of the bytes that port 0 receives. -/
theorem commits_part4_eq_bytes_port0 : cPart 4 1 = cPort 0 1 := rfl

/-- The frame's 64 bytes, and its commit. -/
theorem endStatus_part4_counts : tget 0 (endStatus holdsFrameOfPart4 (frameKey 4 0)).obs.cnt (cPort 0 1) = 65 := by decide +kernel

/-- Refutes O20: the statement bounds neither a frame's partition nor its port. The good end status of a parsed frame of partition 4 counts the 64
bytes of the frame where it counts the commit (`commits_part4_eq_bytes_port0`): 65, not 1. -/
theorem not_endStatus : ¬ Obligations.EndStatus := by
  intro h
  obtain ⟨-, hpending⟩ := h holdsFrameOfPart4 4 0
  obtain ⟨-, hparsed, -⟩ := hpending frameOfPart4 (frameGet_framePut_same _ _ _) rfl
  obtain ⟨t, ht, -, hcommits, -⟩ := hparsed rfl (by decide +kernel)
  obtain rfl : endStatus holdsFrameOfPart4 (frameKey 4 0) = t := Host.Outcome.next.inj ht
  have hpipe : procPart holdsFrameOfPart4 frameOfPart4.part = 4 := by decide
  rw [cntUp, hpipe, commits_part4_eq_bytes_port0, endStatus_part4_counts] at hcommits
  exact absurd hcommits (by decide)

end Sys2Proof.Machine
end

section
/-! PROOFS. A site that fails while it is out of service (O47). -/

namespace Sys2Proof.Machine

open Sys2Proof

-- One declaration after the other: the whole text is checked within a fixed memory.
set_option Elab.async false

variable {s : State}

/-- SITE_FAIL of a site out of service forgets what the controller has been told of it. -/
theorem siteFail_out_of_service {n : Nat} (cube : Option Nat) (drops : Nat)
    (h : 20 ≤ n ∨ (siteGet s n).fenced = true ∨ 2 ≤ (siteGet s n).role) : siteFail s n cube drops = (siteTold s n).2 := by
  unfold siteFail siteTold
  exact if_pos h

theorem siteTold_siteOut (s : State) (n : Nat) : (siteTold s n).2.flt.siteOut = s.flt.siteOut.filter fun e => e.1 != n := rfl

/-- A device at reset, whose controller has been told that site 0, which is not in service, has failed. -/
def outSiteTold : State := siteTell State.reset 0 none 0

/-- Refutes O47: SITE_FAIL of a site out of service is not without effect. Where the controller has been told of that site (`siteTell`), the event
forgets what it was told (`siteFail_out_of_service`): the state is not as before. -/
theorem not_siteTakeover : ¬ Obligations.SiteTakeover := by
  intro h
  have hout : 2 ≤ (siteGet outSiteTold 0).role := by decide
  obtain ⟨hidle, -⟩ := h.1 outSiteTold 0 none 0
  obtain ⟨t, ht, rfl⟩ := hidle (Or.inr (Or.inr hout))
  have hrun : siteFail outSiteTold 0 none 0 = outSiteTold := Host.Outcome.next.inj ht
  rw [siteFail_out_of_service none 0 (Or.inr (Or.inr hout))] at hrun
  have hkept : (siteTold outSiteTold 0).2.flt.siteOut = [(0, none, 0)] := congrArg (fun u => u.flt.siteOut) hrun
  rw [siteTold_siteOut] at hkept
  exact absurd hkept (by decide)

end Sys2Proof.Machine
end

section
/-! PROOFS. A lane failure and the link up of a front port (O22): what a fault report and the discards of a link that goes down leave of the port. -/

namespace Sys2Proof.Machine

open Sys2Proof

-- One declaration after the other: the whole text is checked within a fixed memory.
set_option Elab.async false

variable {d : Bool} {n : Nat} {a s t : State}

/-! ### What a report and a discard leave of a front port -/

/-- A register that neither shows the links of port `n` nor counts unmasked faults. -/
def OffPort (n x : Nat) : Prop := x ≠ rFP_STATUS n ∧ x ≠ rFLT_UNMASKED

/-- From `s` to `t` the sub-ports, FP_STATUS of port `n`, the count of its links that went down and the count of unmasked faults have stayed.
With `d`, so have the traffic manager and device memory. -/
structure PortStays (d : Bool) (n : Nat) (s t : State) : Prop where
  subs : t.subs = s.subs
  status : rg t (rFP_STATUS n) = rg s (rFP_STATUS n)
  unmasked : rg t rFLT_UNMASKED = rg s rFLT_UNMASKED
  downs : tget 0 t.obs.cnt (cPort n 8) = tget 0 s.obs.cnt (cPort n 8)
  tms : d = true → t.tms = s.tms
  mem : d = true → t.mem = s.mem

theorem PortStays.refl (s : State) : PortStays d n s s := ⟨rfl, rfl, rfl, rfl, fun _ => rfl, fun _ => rfl⟩

/-- A change of parts that `PortStays` does not speak of. -/
theorem PortStays.apart (h : PortStays d n a s) (hs : t.subs = s.subs := by rfl) (hr : t.regs = s.regs := by rfl) (ho : t.obs = s.obs := by rfl)
    (ht : d = true → t.tms = s.tms := by exact fun _ => rfl) (hm : d = true → t.mem = s.mem := by exact fun _ => rfl) : PortStays d n a t where
  subs := hs.trans h.subs
  status := (rg_congr hr _).trans h.status
  unmasked := (rg_congr hr _).trans h.unmasked
  downs := by rw [ho, h.downs]
  tms k := (ht k).trans (h.tms k)
  mem k := (hm k).trans (h.mem k)

/-- A record update of parts that `PortStays` does not speak of. -/
theorem PortStays.upd {pe fc gt rp xb fr rq si frs pi st ar we sh ui vd jr jo pl ti cx kn la fa si2 fl sp se sl ba ca pw bk ge mb bo wv fs smp li hp lp ti2
    ea ec} (h : PortStays d n a s) : PortStays d n a ⟨pe, fc, gt, rp, s.regs, s.mem, xb, fr, rq, s.obs, si, frs, pi, s.subs, st, ar, we, sh, ui, vd, s.tms,
      jr, jo, pl, ti, cx, kn, la, fa, si2, fl, sp, se, sl, ba, ca, pw, bk, ge, mb, bo, wv, fs, smp, li, hp, lp, ti2, ea, ec⟩ := h.apart

theorem PortStays.ite {c : Prop} [Decidable c] (hs : PortStays d n a s) (ht : PortStays d n a t) : PortStays d n a (if c then s else t) := by
  split <;> assumption

theorem PortStays.foldl {γ : Type} {f : State → γ → State} {l : List γ} (h : PortStays d n a s)
    (hf : ∀ x y, PortStays d n a x → PortStays d n a (f x y)) : PortStays d n a (l.foldl f s) := List.foldlRecOn _ _ h fun x hx y _ => hf x y hx

theorem PortStays.rgw {x v : Nat} (h : PortStays d n a s) (hx : OffPort n x) : PortStays d n a (rgw s x v) :=
  { h with status := (rg_rgw_other _ _ hx.1).trans h.status, unmasked := (rg_rgw_other _ _ hx.2).trans h.unmasked }

theorem PortStays.bump {x : Nat} (h : PortStays d n a s) (hx : OffPort n x) : PortStays d n a (bump s x) := h.rgw hx

theorem PortStays.rgwb {x i : Nat} {v : Bool} (h : PortStays d n a s) (hx : OffPort n x) : PortStays d n a (rgwb s x i v) := h.rgw hx

theorem PortStays.cinc {i k : Nat} (h : PortStays d n a s) (hi : i ≠ cPort n 8) : PortStays d n a (cinc s i k) :=
  { h with downs := by rw [cnt_cinc, if_neg hi, h.downs] }

/-! ### A fault that is reported (R312, R330) -/

theorem PortStays.stage {writer queue prio type : Nat} {body : Bytes} (hn : n < 16) (h : PortStays d n a s) :
    PortStays d n a (stage s writer queue prio type body) := by
  have hrefused : OffPort n rRQ_REFUSED := by constructor <;> simp only [fpA, rqA, fltA] <;> omega
  have hdropped : OffPort n rRQ_STAGE_DROP := by constructor <;> simp only [fpA, rqA, fltA] <;> omega
  exact .ite ((PortStays.bump h.upd hrefused).bump hdropped) h.upd

theorem PortStays.faultEnd {cls unit cap : Nat} (hn : n < 16) (h : PortStays d n a s) : PortStays d n a (faultEnd s cls unit cap) := by
  unfold Machine.faultEnd
  split
  exacts [h, .ite h.upd.upd (h.upd.stage hn).upd]

/-- An unmasked fault whose recovery ends at once is counted, and what else its report does leaves the front ports. -/
theorem portStays_faultInstant {cls unit part addr action level : Nat} {dbl : Bool} (hn : n < 16) :
    PortStays d n (bump s rFLT_UNMASKED) (faultInstant s cls unit part addr action level false dbl) := by
  have hstatus : OffPort n rFLT_STATUS := by constructor <;> simp only [fpA, fltA] <;> omega
  have hlatched : PortStays d n (bump s rFLT_UNMASKED) (bump (latchError s unit cls addr level) rFLT_UNMASKED) := (PortStays.refl _).upd
  exact ((hlatched.rgwb hstatus).upd.stage hn).faultEnd hn

/-! ### Frames that are discarded (Table TM-7) -/

theorem PortStays.slotPut {p i : Nat} {v : Option LSlot} (h : PortStays d n a s) : PortStays d n a (slotPut s p i v) := h.upd

theorem PortStays.slotSettle {p i : Nat} (h : PortStays d n a s) : PortStays d n a (slotSettle s p i) := by
  unfold Machine.slotSettle
  split
  exacts [.ite h.slotPut h, h]

theorem PortStays.slotLeft {p i : Nat} (h : PortStays d n a s) : PortStays d n a (slotLeft s p i) := by
  unfold Machine.slotLeft
  split
  exacts [h.slotPut.slotSettle, h]

theorem PortStays.tmPut {p : Nat} {v : Tm} (h : PortStays false n a s) : PortStays false n a (tmPut s p v) := h.apart (ht := nofun)

theorem PortStays.headDrop {i : Option Nat} (h : PortStays d n a s) : PortStays d n a (headDrop s i) := by
  unfold Machine.headDrop
  split
  exacts [h.upd, h]

theorem PortStays.frameUnref {k : Nat} (h : PortStays false n a s) : PortStays false n a (frameUnref s k) := by
  unfold Machine.frameUnref
  split
  exacts [h, .ite h.upd.headDrop.tmPut h.upd]

theorem PortStays.settleDc {m q k : Nat} (h : PortStays false n a s) : PortStays false n a (settleDc s k m q) := .ite h (.ite h.tmPut h.tmPut.tmPut)

theorem PortStays.tmDropped {p : Nat} (h : PortStays d n a s) (_ : p < 4) : PortStays d n a (tmDropped s p) :=
  h.cinc (by simp only [cPart, cPort]; omega)

theorem PortStays.subFlush {m : Nat} (hn : n < 16) (h : PortStays false n a s) : PortStays false n a (subFlush s n m) := by
  have hdrop : OffPort n (rTM_DROP_LINK (portPart n)) := by constructor <;> simp only [fpA, tmA, fltA, portPart] <;> omega
  have hpart : portPart n < 4 := by simp only [portPart]; omega
  unfold Machine.subFlush
  extract_lets p
  split
  extract_lets
  refine h.foldl fun _ _ h => PortStays.settleDc (PortStays.tmPut (h.foldl fun u e h => PortStays.frameUnref ?_))
  have h1 : PortStays false n a (Machine.tmDropped (Machine.bump u (rTM_DROP_LINK p)) p) := (h.bump hdrop).tmDropped hpart
  split
  exacts [h1.slotLeft, h1]

/-! ### The links of a port -/

theorem rgb_rgwb_other (s : State) (x : Nat) {i j : Nat} (v : Bool) (hj : j < 32) (hij : i ≠ j) : rgb (rgwb s x i v) x j = rgb s x j := by
  simp only [rgb, Machine.rgwb, rgwf, rg_rgw_same, bit, Nat.testBit_mod_two_pow, hj, decide_true, Bool.true_and]
  rw [testBit_putBits (by omega), if_neg (by omega)]

theorem rgb_congr {x y : Nat} (h : rg t x = rg s x) : rgb t x y = rgb s x y := by rw [rgb, rgb, h]

theorem subCount_le (s : State) (n : Nat) : subCount s n ≤ 4 := by
  unfold subCount
  split <;> omega

@[simp] theorem subGet_subPut_same (s : State) (n m : Nat) (v : SubPort) : subGet (subPut s n m v) n m = v := tget_tset_same _ _ _ _

theorem subGet_congr (h : t.subs = s.subs) (n m : Nat) : subGet t n m = subGet s n m := congrArg (tget sub0 · _) h

/-- A link that goes down: the sub-port has no lane, its LINK bit is 0, the port counts it once. -/
theorem subDown_spec {m : Nat} (hn : n < 16) (hm : m < 4) : (subGet (subDown s n m) n m).lanes = 0 ∧
    rgb (subDown s n m) (rFP_STATUS n) (28 + m) = false ∧ rg (subDown s n m) rFLT_UNMASKED = rg s rFLT_UNMASKED ∧
    cntUp s (subDown s n m) (cPort n 8) 1 := by
  unfold subDown
  extract_lets s1
  have hlink : rgb s1 (rFP_STATUS n) (28 + m) = false := by
    rw [rgb_rgwb_other _ _ _ (by omega) (by omega), rgb_rgwb_same _ _ _ (by omega)]
  have hcount : rg s1 rFLT_UNMASKED = rg s rFLT_UNMASKED := by
    have hne : rFP_STATUS n ≠ rFLT_UNMASKED := by simp only [fpA, fltA]; omega
    exact (rg_rgw_other _ _ hne).trans (rg_rgw_other _ _ hne)
  have hcnt : s1.obs = s.obs := rfl
  clear_value s1
  obtain ⟨hsubs, hstatus, hunmasked, hdowns, -, -⟩ :=
    (PortStays.refl (d := false) (n := n) (subPut s1 n m { subGet s1 n m with lanes := 0 })).subFlush (m := m) hn
  refine ⟨?_, ?_, ?_, ?_⟩
  · rw [subGet_congr (s := subPut s1 n m { subGet s1 n m with lanes := 0 }) (by rw [cinc_subs, hsubs]), subGet_subPut_same]
  · rw [← hlink]
    exact rgb_congr hstatus
  · rw [← hcount]
    exact hunmasked
  · rw [cntUp, cnt_cinc, if_pos rfl, hdowns, ← hcnt]
    rfl

/-! ### The commands -/

section
variable {m : Nat}

theorem laneFail_down (h : rgb s (rFP_STATUS n) (28 + m) = false) : laneFail s n m = s := if_pos (by simp [h])

/-- The state in which sub-port (n, m) has restarted on half its lanes, DEGRADED. -/
def lanesHalved (s : State) (n m : Nat) : State :=
  rgwb (subPut s n m { subGet s n m with lanes := (subGet s n m).lanes / 2 }) (rFP_STATUS n) (24 + m) true

theorem lanesHalved_spec (hm : m < 4) (h : rgb s (rFP_STATUS n) (28 + m) = true) :
    (subGet (lanesHalved s n m) n m).lanes = (subGet s n m).lanes / 2 ∧ rgb (lanesHalved s n m) (rFP_STATUS n) (24 + m) = true ∧
      rgb (lanesHalved s n m) (rFP_STATUS n) (28 + m) = true ∧ rg (lanesHalved s n m) rFLT_UNMASKED = rg s rFLT_UNMASKED := by
  unfold lanesHalved
  refine ⟨?_, rgb_rgwb_same _ _ _ (by omega), ?_, ?_⟩
  · rw [subGet_congr (rgwb_subs _ _ _ _), subGet_subPut_same]
  · rw [rgb_rgwb_other _ _ _ (by omega) (by omega)]
    exact h
  · exact rg_rgw_other _ _ (by simp only [fpA, fltA]; omega)

theorem laneFail_up (hn : n < 16) (hm : m < subCount s n) (h : rgb s (rFP_STATUS n) (28 + m) = true) : laneFail s n m =
    faultInstant (if (subGet s n m).lanes ≤ 1 then subDown s n m else lanesHalved s n m) 13 (unitCode 6 n) (portPart n) 0 12 0 false false :=
  if_neg (by simp [hn, hm, h])

/-- What the report of a lane failure leaves of the state in which the lanes have changed, and what it counts. -/
theorem laneFail_report {u : State} {unit part addr action level : Nat} {dbl : Bool} (hn : n < 16) (hu : rg u rFLT_UNMASKED = rg s rFLT_UNMASKED)
    (ht : t = faultInstant u 13 unit part addr action level false dbl) : counted s t rFLT_UNMASKED 1 ∧ subGet t n m = subGet u n m ∧
      (∀ i, rgb t (rFP_STATUS n) i = rgb u (rFP_STATUS n) i) ∧ tget 0 t.obs.cnt (cPort n 8) = tget 0 u.obs.cnt (cPort n 8) ∧
      t.tms = u.tms ∧ t.mem = u.mem := by
  subst ht
  obtain ⟨hsubs, hstatus, hunmasked, hdowns, htms, hmem⟩ :=
    portStays_faultInstant (d := true) (s := u) (cls := 13) (unit := unit) (part := part) (addr := addr) (action := action) (level := level)
      (dbl := dbl) hn
  have hne : rFLT_UNMASKED ≠ rFP_STATUS n := by simp only [fpA, fltA]; omega
  exact ⟨by rw [counted, hunmasked, rg_bump_same, hu], subGet_congr hsubs _ _, fun i => rgb_congr (hstatus.trans (rg_bump_other _ hne)),
    hdowns, htms rfl, hmem rfl⟩

theorem fpLinkUp_refused (h : rgb s (rFP_CFG n) 31 = false ∨ pairMismatch s n = true ∨ bit s.boot.noRef (n / 4) = true) : fpLinkUp s n m = s := by
  refine if_pos ?_
  rcases h with h | h | h <;> simp [h]

theorem fpLinkUp_runs (hn : n < 16) (hm : m < subCount s n) (hen : rgb s (rFP_CFG n) 31 = true) (hp : pairMismatch s n = false)
    (hr : bit s.boot.noRef (n / 4) = false) : fpLinkUp s n m =
      rgwb (rgwb (subPut s n m { subGet s n m with lanes := lanesFull s n }) (rFP_STATUS n) (28 + m) true) (rFP_STATUS n) (24 + m) false :=
  if_neg (by simp [hn, hm, hen, hp, hr])

end

/-- Settles O22: what a lane failure makes of the sub-port, and that the fault's report leaves it so (`PortStays`). -/
theorem portLinks : Obligations.PortLinks := by
  intro s n m hn hm
  have hm4 : m < 4 := hm.trans_le (subCount_le s n)
  refine ⟨fun hup => ⟨fun hl => ?_, fun hl => ?_⟩, fun hdown => ⟨_, rfl, laneFail_down hdown⟩, fun h => ⟨_, rfl, fpLinkUp_refused h⟩,
    fun hen hp hr => ?_⟩
  · have ht := laneFail_up hn hm hup
    rw [if_neg (by omega)] at ht
    refine ⟨_, rfl, ?_⟩
    generalize laneFail s n m = t at ht ⊢
    obtain ⟨hlanes, hdegraded, hlink, hunmasked⟩ := lanesHalved_spec (s := s) hm4 hup
    obtain ⟨hcounted, hsub, hstatus, -, htms, hmem⟩ := laneFail_report (s := s) (m := m) hn hunmasked ht
    exact ⟨by rw [hsub, hlanes], by rw [hstatus, hdegraded], by rw [hstatus, hlink], hcounted, htms, hmem⟩
  · have ht := laneFail_up hn hm hup
    rw [if_pos hl] at ht
    refine ⟨_, rfl, ?_⟩
    generalize laneFail s n m = t at ht ⊢
    obtain ⟨hlanes, hlink, hunmasked, hdowns⟩ := subDown_spec (s := s) hn hm4
    obtain ⟨hcounted, hsub, hstatus, hcnt, -, -⟩ := laneFail_report (s := s) (m := m) hn hunmasked ht
    exact ⟨by rw [hsub, hlanes], by rw [hstatus, hlink], hcounted, by rw [cntUp, hcnt, hdowns]⟩
  · refine ⟨_, rfl, ?_⟩
    rw [fpLinkUp_runs hn hm hen hp hr]
    refine ⟨?_, ?_, ?_, ?_, rfl⟩
    · rw [subGet_congr (rgwb_subs _ _ _ _), subGet_congr (rgwb_subs _ _ _ _), subGet_subPut_same]
    · rw [rgb_rgwb_other _ _ _ (by omega) (by omega), rgb_rgwb_same _ _ _ (by omega)]
    · rw [rgb_rgwb_same _ _ _ (by omega)]
    · exact fun x hx => (regsBut_rgwb _ _ _ _ x hx).trans (regsBut_rgwb _ _ _ _ x hx)

end Sys2Proof.Machine
end

section
/-! PROOFS. The MAC of a front port and the PFC frames that it receives (O19). -/

namespace Sys2Proof.Machine

open Sys2Proof

-- One declaration after the other: the whole text is checked within a fixed memory.
set_option Elab.async false

variable {n m i j : Nat} {b : Bytes} {bad ptp : Bool} {a s t u : State}

/-! ### The MAC (R36) -/

theorem macReceive_closed (h : ¬macOpen s n m) : macReceive s n m b bad ptp = s := by
  refine if_pos ?_
  simp only [macOpen, not_and_or] at h
  rcases h with h | h | h | h <;> simp [h]

/-- A sub-port that carries traffic notes the arrival, and the frame is a PFC frame, a load channel's, or the pipes'. -/
theorem macReceive_open (h : macOpen s n m) : macReceive s n m b bad ptp =
    if isPfc b then pfcReceive (arrivalNote s (portPart n)) n m b bad
    else if (sessionOf s n m b).isSome then arrivalNote s (portPart n) else frameArrive (arrivalNote s (portPart n)) n m b bad ptp := by
  obtain ⟨hn, hm, hup, ht⟩ := h
  exact if_neg (by simp [hn, hm, hup, ht])

/-- A frame that fails a check leaves its arrival and the counts of the check. -/
theorem macBad_arrivalNote_frame (s : State) (p n k : Nat) : macBad (arrivalNote s p) n k =
    { s with regs := (macBad (arrivalNote s p) n k).regs, obs := (macBad (arrivalNote s p) n k).obs, arrivals := (macBad (arrivalNote s p) n k).arrivals } := by
  unfold macBad
  split <;> rfl

/-- Of the registers, the counter of the failed check is the one that counts. -/
theorem rg_macBad (s : State) (n k x : Nat) : rg (macBad s n k) x = rg (bump s (macCounter n k)) x := by
  match k with
  | 0 => rfl
  | 1 => rfl
  | _ + 2 => rfl

theorem macBad_counted (s : State) (n k : Nat) : counted s (macBad s n k) (macCounter n k) 1 := by
  rw [counted, rg_macBad, rg_bump_same]

theorem regsBut_macBad (s : State) (n k : Nat) : regsBut s (macBad s n k) [macCounter n k] := fun x hx => by
  rw [rg_macBad, rg_bump_other _ (by simpa [eq_comm] using hx)]

theorem counted_zero (h : rg t i = rg s i) : counted s t i 0 := by
  have := rg_lt s i
  rw [counted, h]
  omega

/-! ### The pause timers (R234) -/

/-- The pause timer of priority `i` of sub-port (n, m). -/
def pauseTimer (s : State) (n m i : Nat) : List (Nat × Nat) := tget [] (tmGet s (portPart n)).pause ((n * 4 + m) * 8 + i)

theorem pauseTimer_congr (h : t.tms = s.tms) (n m i : Nat) : pauseTimer t n m i = pauseTimer s n m i := by rw [pauseTimer, tmGet, h, ← tmGet, ← pauseTimer]

@[simp] theorem tmPut_regs (s : State) (p : Nat) (v : Tm) : (tmPut s p v).regs = s.regs := rfl

@[simp] theorem tmGet_tmPut_same (s : State) (p : Nat) (v : Tm) : tmGet (tmPut s p v) p = v := tget_tset_same _ _ _ _

theorem pauseTimer_tmPut {v : Tm} (h : v.pause = (tmGet s (portPart n)).pause) : pauseTimer (tmPut s (portPart n) v) n m i = pauseTimer s n m i := by
  rw [pauseTimer, tmGet_tmPut_same, h, ← pauseTimer]

/-- The timer that a PFC frame starts comes last: decisions observe it 20 ns later, and it lasts `time` × 512 bit times. -/
theorem pauseSet_timer_last (s : State) (n m i time : Nat) : (pauseTimer (pauseSet s n m i time) n m i).getLast? =
    some (s.gt + 20, s.gt + if subRate s n m = 0 then 0 else cdiv (time * 512) (subRate s n m)) := by
  simp only [pauseTimer, pauseSet, tmGet_tmPut_same, tget_tset_same, List.getLast?_append, List.getLast?_singleton, Option.some_or]

@[simp] theorem pauseSet_regs (s : State) (n m i time : Nat) : (pauseSet s n m i time).regs = s.regs := rfl

theorem pauseSet_timer_other (s : State) (n m : Nat) {i j : Nat} (time : Nat) (h : j ≠ i) :
    pauseTimer (pauseSet s n m j time) n m i = pauseTimer s n m i := by
  simp only [pauseTimer, pauseSet, tmGet_tmPut_same]
  exact tget_tset_other _ _ _ (by omega)

/-- From `s` to `t` priority `i` of sub-port (n, m) has counted no PFC frame and its pause timer has stayed; Global Time, the configuration of the
port and the lanes of the sub-ports have stayed. -/
structure PriorityStays (n m i : Nat) (s t : State) : Prop where
  count : rg t (rFP_PFC_RX n i) = rg s (rFP_PFC_RX n i)
  timer : pauseTimer t n m i = pauseTimer s n m i
  cfg : rg t (rFP_CFG n) = rg s (rFP_CFG n)
  gt : t.gt = s.gt
  subs : t.subs = s.subs

/-- What a good PFC frame does to priority `i`: it counts, and starts the priority's timer, where the frame names and FP_CFG honours it. -/
structure PausedBy (b : Bytes) (n m i : Nat) (s t : State) : Prop where
  count : counted s t (rFP_PFC_RX n i) (b2n (bit (beAt b 16 2) i))
  started : bit (beAt b 16 2) i = true → bit (rgf s (rFP_CFG n) 23 16) i = true → (pauseTimer t n m i).getLast? =
    some (s.gt + 20, s.gt + if subRate s n m = 0 then 0 else cdiv (beAt b (18 + 2 * i) 2 * 512) (subRate s n m))
  stayed : bit (beAt b 16 2) i = false ∨ bit (rgf s (rFP_CFG n) 23 16) i = false → pauseTimer t n m i = pauseTimer s n m i

theorem PriorityStays.refl (s : State) : PriorityStays n m i s s := ⟨rfl, rfl, rfl, rfl, rfl⟩

theorem PriorityStays.trans (h : PriorityStays n m i a s) (g : PriorityStays n m i s t) : PriorityStays n m i a t :=
  ⟨g.count.trans h.count, g.timer.trans h.timer, g.cfg.trans h.cfg, g.gt.trans h.gt, g.subs.trans h.subs⟩

theorem subRate_congr (hc : rg t (rFP_CFG n) = rg s (rFP_CFG n)) (hs : t.subs = s.subs) : subRate t n m = subRate s n m := by
  unfold subRate breakout subGet rgf
  rw [hc, hs]

/-- What a frame does to a priority may come between changes that leave the priority. -/
theorem PriorityStays.between (h : PriorityStays n m i a s) (g : PausedBy b n m i s t) (k : PriorityStays n m i t u) : PausedBy b n m i a u := by
  obtain ⟨hcount, htimer, hcfg, hgt, hsubs⟩ := h
  obtain ⟨gcount, gstarted, gstayed⟩ := g
  have hrgf : rgf s (rFP_CFG n) 23 16 = rgf a (rFP_CFG n) 23 16 := by rw [rgf, rgf, hcfg]
  rw [hrgf, subRate_congr hcfg hsubs, hgt] at gstarted
  rw [hrgf, htimer] at gstayed
  exact ⟨by rw [counted, k.count, gcount, hcount], by rwa [k.timer], by rwa [k.timer]⟩

/-! ### A good PFC frame (R37) -/

/-- What a good PFC frame does for one priority. -/
def pfcPriority (n m : Nat) (b : Bytes) (s : State) (i : Nat) : State :=
  if bit (beAt b 16 2) i then
    let s := cinc (bump s (rFP_PFC_RX n i)) (cPort n 7) 1
    if bit (rgf s (rFP_CFG n) 23 16) i then pauseSet s n m i (beAt b (18 + 2 * i) 2) else s
  else s

theorem pfcReceive_good (h : macCheck s n b bad = none) :
    pfcReceive s n m b bad = pfcRelay ([0, 1, 2, 3, 4, 5, 6, 7].foldl (pfcPriority n m b) s) n m b := by
  simp only [pfcReceive, h]
  rfl

theorem pfcReceive_bad {k : Nat} (h : macCheck s n b bad = some k) : pfcReceive s n m b bad = macBad s n k := by simp only [pfcReceive, h]

theorem pfcPriority_pauses (s : State) : PausedBy b n m i s (pfcPriority n m b s i) := by
  have hcfg : rgf (cinc (bump s (rFP_PFC_RX n i)) (cPort n 7) 1) (rFP_CFG n) 23 16 = rgf s (rFP_CFG n) 23 16 := by
    rw [rgf, rg_congr (cinc_regs _ _ _), rg_bump_other _ (by simp only [fpA]; omega), rgf]
  have hrate : subRate (cinc (bump s (rFP_PFC_RX n i)) (cPort n 7) 1) n m = subRate s n m :=
    subRate_congr (by rw [rg_congr (cinc_regs _ _ _), rg_bump_other _ (by simp only [fpA]; omega)]) rfl
  unfold pfcPriority
  extract_lets u
  cases hen : bit (beAt b 16 2) i with
  | false => exact ⟨by rw [hen]; exact counted_zero rfl, by simp [hen], fun _ => rfl⟩
  | true =>
    have hcount : rg u (rFP_PFC_RX n i) = min (rg s (rFP_PFC_RX n i) + 1) 0xFFFFFFFF :=
      (rg_congr (cinc_regs _ _ _) _).trans (rg_bump_same s _)
    rw [if_pos rfl]
    cases hh : bit (rgf s (rFP_CFG n) 23 16) i with
    | false =>
      rw [if_neg (by rw [hcfg, hh]; exact Bool.false_ne_true)]
      exact ⟨by rw [counted, hcount, hen, b2n_true], by simp [hh], fun _ => rfl⟩
    | true =>
      rw [if_pos (by rw [hcfg, hh])]
      refine ⟨by rw [hen]; exact (rg_congr (pauseSet_regs u n m i _) _).trans hcount, fun _ _ => ?_, fun h => ?_⟩
      · rw [pauseSet_timer_last, hrate]
        rfl
      · simp [hen, hh] at h

/-- A priority stays when a register other than its counter and FP_CFG counts. -/
theorem priorityStays_bump (s : State) {x : Nat} (hx : x ≠ rFP_PFC_RX n i) (hc : x ≠ rFP_CFG n) : PriorityStays n m i s (bump s x) :=
  ⟨rg_bump_other s hx, pauseTimer_congr (bump_tms s x) n m i, rg_bump_other s hc, bump_gt s x, bump_subs s x⟩

theorem priorityStays_cinc (s : State) (x k : Nat) : PriorityStays n m i s (cinc s x k) :=
  ⟨rg_congr (cinc_regs s x k) _, pauseTimer_congr (cinc_tms s x k) n m i, rg_congr (cinc_regs s x k) _, cinc_gt s x k, cinc_subs s x k⟩

theorem priorityStays_tmPut (s : State) {v : Tm} (h : pauseTimer (tmPut s (portPart n) v) n m i = pauseTimer s n m i) :
    PriorityStays n m i s (tmPut s (portPart n) v) := ⟨rg_congr (tmPut_regs s _ v) _, h, rg_congr (tmPut_regs s _ v) _, rfl, rfl⟩

theorem pfcPriority_other (s : State) (h : j ≠ i) : PriorityStays n m i s (pfcPriority n m b s j) := by
  have hcounted : PriorityStays n m i s (cinc (bump s (rFP_PFC_RX n j)) (cPort n 7) 1) :=
    (priorityStays_bump s (by simp only [fpA]; omega) (by simp only [fpA]; omega)).trans (priorityStays_cinc _ _ _)
  unfold pfcPriority
  extract_lets u
  split
  · split
    · exact hcounted.trans (priorityStays_tmPut u (pauseSet_timer_other u n m _ h))
    · exact hcounted
  · exact .refl s

theorem pfcPriorities_other (s : State) {l : List Nat} (h : i ∉ l) : PriorityStays n m i s (l.foldl (pfcPriority n m b) s) := by
  induction l generalizing s with
  | nil => exact .refl s
  | cons j l ih =>
    rw [List.mem_cons, not_or] at h
    exact (pfcPriority_other s (Ne.symm h.1)).trans (ih _ h.2)

/-- Each of the priorities that a frame goes through is paused by it once. -/
theorem pfcPriorities_pause (s : State) {l : List Nat} (hl : l.Nodup) (hi : i ∈ l) : PausedBy b n m i s (l.foldl (pfcPriority n m b) s) := by
  obtain ⟨before, after, rfl⟩ := List.append_of_mem hi
  rw [List.nodup_append, List.nodup_cons] at hl
  obtain ⟨-, ⟨hafter, -⟩, hdisjoint⟩ := hl
  have hbefore : i ∉ before := fun h => hdisjoint i h i List.mem_cons_self rfl
  rw [List.foldl_append, List.foldl_cons]
  exact (pfcPriorities_other s hbefore).between (pfcPriority_pauses _) (pfcPriorities_other _ hafter)

/-- The relay of a PFC frame (R235) leaves the priorities of the port that received it. -/
theorem pfcRelay_stays (s : State) (hi : i < 8) : PriorityStays n m i s (pfcRelay s n m b) := by
  unfold pfcRelay
  extract_lets p o v k
  split
  · have hcount : rTM_PFC_RELAYED p ≠ rFP_PFC_RX n i := by simp only [fpA, tmA]; omega
    have hcfg : rTM_PFC_RELAYED p ≠ rFP_CFG n := by simp only [fpA, tmA]; omega
    refine PriorityStays.trans ?_ (priorityStays_bump _ hcount hcfg)
    exact priorityStays_tmPut s (pauseTimer_tmPut rfl)
  · exact .refl s

theorem pfcReceive_pauses (hi : i < 8) (h : macCheck s n b bad = none) : PausedBy b n m i s (pfcReceive s n m b bad) := by
  rw [pfcReceive_good h]
  have hmem : i ∈ [0, 1, 2, 3, 4, 5, 6, 7] := by
    simp only [List.mem_cons, List.not_mem_nil, or_false]
    omega
  exact (PriorityStays.refl s).between (pfcPriorities_pause s (by decide) hmem) (pfcRelay_stays _ hi)

/-- PFC_FRAME_RECEIVE of a PFC frame at a sub-port that carries traffic. -/
theorem runsTo_pfcFrameReceive {P : State → Prop} (ho : macOpen s n m) (hp : isPfc b = true)
    (h : P (pfcReceive (arrivalNote s (portPart n)) n m b bad)) : runsTo (.pfcFrameReceive n m b bad) s P := by
  refine ⟨_, rfl, ?_⟩
  rw [if_pos hp, macReceive_open ho, if_pos hp]
  exact h

/-- Settles O19: each priority is handled once, and what is done for the others and the relay leave it (`PriorityStays`). A frame at a sub-port that
carries no traffic leaves nothing (log entry 20). -/
theorem pauseFrames : Obligations.PauseFrames := by
  intro s n m b bad
  refine ⟨fun h => ⟨_, rfl, ?_⟩, fun k ho hp hk => runsTo_pfcFrameReceive ho hp ?_, fun ho hp hk => runsTo_pfcFrameReceive ho hp fun i hi => ?_⟩
  · rcases h with h | h
    · exact if_neg (by simp [h])
    · rw [macReceive_closed h, ite_self]
  · rw [pfcReceive_bad (s := arrivalNote s (portPart n)) hk]
    exact ⟨macBad_counted (arrivalNote s (portPart n)) n k, regsBut_macBad (arrivalNote s (portPart n)) n k, macBad_arrivalNote_frame s _ n k⟩
  · have hnoted : PriorityStays n m i s (arrivalNote s (portPart n)) := ⟨rfl, rfl, rfl, rfl, rfl⟩
    obtain ⟨hcount, hstarted, hstayed⟩ := hnoted.between (pfcReceive_pauses (bad := bad) hi hk) (.refl _)
    exact ⟨hcount, hstarted, hstayed⟩

end Sys2Proof.Machine
end

section
/-! PROOFS. A frame arrives at a sub-port (O18): what storing it writes, and what its hand-off to a pipe does. -/

namespace Sys2Proof.Machine

open Sys2Proof

-- One declaration after the other: the whole text is checked within a fixed memory.
set_option Elab.async false

variable {n m p q k : Nat} {b : Bytes} {bad ptp : Bool} {f g : Frame} {a s t u : State}

/-! ### Where general home space lies -/

/-- The registers that lay out general home space have stayed. -/
structure LayoutStays (s t : State) : Prop where
  hist : rg t rBT_HIST = rg s rBT_HIST
  config : rg t rGLB_CONFIG = rg s rGLB_CONFIG
  tables : ∀ q < 4, ∀ ep, rg t (grnCfg q ep) = rg s (grnCfg q ep)

theorem LayoutStays.histRegion (h : LayoutStays s t) : histRegion t = histRegion s := by
  unfold Machine.histRegion rgf
  rw [h.hist]

theorem LayoutStays.tableSlices (h : LayoutStays s t) (hp : p < 4) : tableSlices t p = tableSlices s p := by
  simp only [Machine.tableSlices, tableSlice, wayLog2, rgf, h.tables p hp]

theorem LayoutStays.generalRoom (h : LayoutStays s t) (hn : n < 4096) : generalRoom t n = generalRoom s n := by
  simp only [Machine.generalRoom, bankRoom, h.histRegion, h.tableSlices (p := n / 1024) (by omega)]

theorem LayoutStays.generalPlace (h : LayoutStays s t) (hp : p < 4) (y : Nat) : generalPlace t p y = generalPlace s p y := by
  have hoff : freeOff t = freeOff s := by
    unfold freeOff
    rw [h.histRegion]
  rw [Machine.generalPlace, Machine.generalPlace, hoff, h.tableSlices hp, h.generalRoom (n := 1024 * p) (by omega),
    h.generalRoom (n := 4062) (by omega)]

theorem LayoutStays.generalA (h : LayoutStays s t) (hp : p < 4) (y : Nat) : generalA t p y = generalA s p y := by
  unfold Machine.generalA
  rw [h.generalPlace hp]

theorem LayoutStays.generalPieces (h : LayoutStays s t) (hp : p < 4) (i y k : Nat) : generalPieces t p i y k = generalPieces s p i y k := by
  induction i generalizing y k with
  | zero => rfl
  | succ i ih => simp only [Machine.generalPieces, h.generalA hp, ih]

theorem LayoutStays.poolCells (h : LayoutStays s t) : poolCells t = poolCells s := by rw [Machine.poolCells, rgf, h.config, ← rgf, ← Machine.poolCells]

/-! ### What storing a frame writes (R39) -/

/-- The spans of general home space that storing a frame writes: its cells, their link-table entries, its ring entry. -/
def storedSpans (s : State) (f : Frame) : List (Nat × Nat) :=
  (f.cells.flatMap fun c => [(256 * c, 256), (linkAt s c, 32)]) ++ [(ringAt s f.ring, 32)]

theorem linkAt_congr (h : t.regs = s.regs) : linkAt t = linkAt s := by
  unfold linkAt poolCells
  rw [rgf_funext h]

theorem ringAt_congr (h : t.regs = s.regs) : ringAt t = ringAt s := by
  unfold ringAt poolCells
  rw [rgf_funext h]

theorem tget_piecesW {l : List (Nat × Nat)} {x : Nat} (h : ∀ e ∈ l, x < e.1 ∨ e.1 + e.2 ≤ x) :
    tget 0 (piecesW l b s).mem x = tget 0 s.mem x := by
  induction l generalizing b s with
  | nil => rfl
  | cons e l ih =>
    obtain ⟨y, k⟩ := e
    have hy := h _ List.mem_cons_self
    rw [piecesW, ih fun e he => h e (List.mem_cons_of_mem _ he), tget_memW]
    have := List.length_take_le k b
    omega

theorem generalBut_generalW (s : State) (p y : Nat) (b : Bytes) : generalBut s (generalW s p y b) p [(y, b.length)] :=
  fun _ h => tget_piecesW (h y b.length List.mem_cons_self)

theorem generalBut.append {xs ys : List (Nat × Nat)} (h : generalBut s t p xs) (g : generalBut t u p ys) (hr : t.regs = s.regs) :
    generalBut s u p (xs ++ ys) := fun x hx => by
  rw [g x fun y k hy => ?_, h x fun y k hy => hx y k (List.mem_append_left _ hy)]
  rw [generalPieces_congr hr]
  exact hx y k (List.mem_append_right _ hy)

/-- Memory is all that `generalBut` speaks of. -/
theorem generalBut.mem {ys : List (Nat × Nat)} (h : generalBut s t p ys) (hm : u.mem = t.mem) : generalBut s u p ys := fun x hx => by
  rw [hm]
  exact h x hx

theorem generalBut.of_layout {ys : List (Nat × Nat)} (h : generalBut t u p ys) (hl : LayoutStays s t) (hp : p < 4) (hm : t.mem = s.mem) :
    generalBut s u p ys := fun x hx => by
  rw [h x fun y k hy => ?_, hm]
  rw [hl.generalPieces hp]
  exact hx y k hy

/-! ### What intake leaves -/

/-- From `s` to `t` the registers and the sub-ports have stayed, and of each pipe its queue, its bypass and who serves for it. -/
structure IntakeStays (s t : State) : Prop where
  regs : t.regs = s.regs
  subs : t.subs = s.subs
  dq : ∀ q, (pipeGet t q).dq = (pipeGet s q).dq
  bypass : ∀ q, (pipeGet t q).bypass = (pipeGet s q).bypass
  out : ∀ q, (pipeGet t q).out = (pipeGet s q).out

theorem IntakeStays.refl (s : State) : IntakeStays s s := ⟨rfl, rfl, fun _ => rfl, fun _ => rfl, fun _ => rfl⟩

/-- A record update of parts that `IntakeStays` does not speak of. -/
theorem IntakeStays.upd {pe fc gt rp me xb fr rq ob si frs st ar we sh ui vd tm jr jo pl ti cx kn la fa si2 fl sp se sl ba ca pw bk ge mb bo wv fs smp li hp
    lp ti2 ea ec} (h : IntakeStays a s) : IntakeStays a ⟨pe, fc, gt, rp, s.regs, me, xb, fr, rq, ob, si, frs, s.pipes, s.subs, st, ar, we, sh, ui, vd, tm,
      jr, jo, pl, ti, cx, kn, la, fa, si2, fl, sp, se, sl, ba, ca, pw, bk, ge, mb, bo, wv, fs, smp, li, hp, lp, ti2, ea, ec⟩ :=
  ⟨h.regs, h.subs, h.dq, h.bypass, h.out⟩

theorem IntakeStays.lpCount {x i : Nat} (h : IntakeStays a s) : IntakeStays a (lpCount s k x i) := by
  unfold Machine.lpCount
  split
  · exact h
  · exact List.foldlRecOn _ _ h fun _ h _ _ => h.upd

theorem IntakeStays.memW {x : Nat} (h : IntakeStays a s) : IntakeStays a (memW s x b) := by
  unfold Machine.memW
  split
  exacts [h, h.lpCount.upd]

theorem IntakeStays.generalW {y : Nat} (h : IntakeStays a s) : IntakeStays a (generalW s p y b) := by
  unfold Machine.generalW
  generalize Machine.generalPieces s p (b.length / 512 + 2) y b.length = l
  induction l generalizing s b with
  | nil => exact h
  | cons e l ih => exact ih h.memW

theorem IntakeStays.cellsWrite {cs : List Nat} (h : IntakeStays a s) : IntakeStays a (cellsWrite p cs b s) := by
  induction cs generalizing s b with
  | nil => exact h
  | cons c cs ih =>
    rw [Machine.cellsWrite]
    exact ih h.generalW.generalW

theorem IntakeStays.pipePut {v : Pipe} (h : IntakeStays a s) (hd : v.dq = (pipeGet s p).dq) (hb : v.bypass = (pipeGet s p).bypass)
    (ho : v.out = (pipeGet s p).out) : IntakeStays a (pipePut s p v) := by
  have hget : ∀ q, pipeGet (Machine.pipePut s p v) q = if p = q then v else pipeGet s q := fun q => tget_tset _ _ _ _ _
  refine ⟨h.regs, h.subs, fun q => ?_, fun q => ?_, fun q => ?_⟩ <;> rw [hget] <;> split
  · subst_vars; rw [hd, h.dq]
  · exact h.dq q
  · subst_vars; rw [hb, h.bypass]
  · exact h.bypass q
  · subst_vars; rw [ho, h.out]
  · exact h.out q

theorem IntakeStays.procPart (h : IntakeStays s t) (p : Nat) : procPart t p = procPart s p := by rw [Machine.procPart, h.out, ← Machine.procPart]

theorem IntakeStays.pipeMark_bypass (h : IntakeStays s t) (q : Nat) : (pipeMark (pipeGet t q)).bypass = (pipeMark (pipeGet s q)).bypass := by
  simp only [pipeMark, h.bypass, h.dq]

/-! ### A frame is stored -/

/-- The state in which the first bytes of `b` stand in cell `c`, and its link-table entry is written. -/
def cellWritten (s : State) (p c : Nat) (b : Bytes) : State :=
  generalW (generalW s p (256 * c) (slice b 0 256)) p (linkAt s c) (List.replicate 32 0)

theorem cellsWrite_cons (s : State) (p c : Nat) (cs : List Nat) (b : Bytes) :
    cellsWrite p (c :: cs) b s = cellsWrite p cs (b.drop 256) (cellWritten s p c b) := by
  rw [cellsWrite, cellWritten]

theorem cellWritten_regs (s : State) (p c : Nat) (b : Bytes) : (cellWritten s p c b).regs = s.regs := (IntakeStays.refl s).generalW.generalW.regs

theorem generalBut_cellWritten (s : State) (p c : Nat) (b : Bytes) : generalBut s (cellWritten s p c b) p [(256 * c, 256), (linkAt s c, 32)] := by
  have hcell := generalBut_generalW s p (256 * c) (slice b 0 256)
  have hlink := generalBut_generalW (generalW s p (256 * c) (slice b 0 256)) p (linkAt s c) (List.replicate 32 0)
  rw [slice_length] at hcell
  rw [List.length_replicate] at hlink
  exact hcell.append hlink (IntakeStays.refl s).generalW.regs

theorem generalBut_cellsWrite (p : Nat) (cs : List Nat) (b : Bytes) (s : State) :
    generalBut s (cellsWrite p cs b s) p (cs.flatMap fun c => [(256 * c, 256), (linkAt s c, 32)]) := by
  induction cs generalizing b s with
  | nil => exact fun _ _ => rfl
  | cons c cs ih =>
    have hrest := ih (b.drop 256) (cellWritten s p c b)
    rw [linkAt_congr (cellWritten_regs s p c b)] at hrest
    rw [cellsWrite_cons, List.flatMap_cons]
    exact (generalBut_cellWritten s p c b).append hrest (cellWritten_regs s p c b)

theorem framePut_mem (s : State) (k : Nat) (f : Frame) : (framePut s k f).mem = s.mem := rfl

theorem descBytes_length (f : Frame) (steered : Bool) : (descBytes f steered).length = 32 := by
  simp only [descBytes, List.length_append, leBytes_length]

/-- What storing a frame comes to: the frame has cells, a ring entry and perhaps a slot of the head buffer, it is stored, memory changes in its spans only. -/
structure Stores (p : Nat) (f : Frame) (s : State) (k : Nat) (g : Frame) (t : State) : Prop where
  stays : IntakeStays s t
  frame : g = { f with cells := g.cells, headSlot := g.headSlot, ring := g.ring }
  stored : frameGet t k = some g
  mem : generalBut s t p (storedSpans s g)

theorem frameStore_stores (h : frameStore s p f = (k, g, t)) : Stores p f s k g t := by
  unfold frameStore at h
  split at h
  rename_i cs s1 e
  obtain ⟨htaken, hmem⟩ : IntakeStays s s1 ∧ s1.mem = s.mem := by
    obtain rfl := congrArg Prod.snd e
    exact ⟨(IntakeStays.refl s).upd, rfl⟩
  extract_lets s2 v s3 q w slot s4 g' k' at h
  injection h with hk h
  injection h with hg ht
  subst hk hg ht
  have hcells : generalBut s s2 p (cs.flatMap fun c => [(256 * c, 256), (linkAt s c, 32)]) := by
    have hwritten := generalBut_cellsWrite p cs f.bytes s1
    rw [linkAt_congr htaken.regs] at hwritten
    have hnone : generalBut s s1 p [] := fun _ _ => by rw [hmem]
    exact hnone.append hwritten htaken.regs
  obtain ⟨hslot, hslotMem⟩ : IntakeStays s s4 ∧ s4.mem = s2.mem := by
    have hnext : IntakeStays s s3 := htaken.cellsWrite.pipePut rfl rfl rfl
    unfold s4
    clear_value slot
    split
    · exact ⟨hnext.pipePut rfl rfl rfl, rfl⟩
    · exact ⟨hnext, rfl⟩
  have hdesc := generalBut_generalW s4 p (ringAt s4 g'.ring) (descBytes g' (q != p))
  rw [descBytes_length] at hdesc
  refine ⟨hslot.generalW.upd, rfl, frameGet_framePut_same _ _ _, ?_⟩
  rw [storedSpans, ← ringAt_congr hslot.regs]
  exact (hcells.mem hslotMem).append (hdesc.mem (framePut_mem _ _ _)) hslot.regs

theorem procPart_lt (s : State) (hp : p < 4) : procPart s p < 4 := by
  unfold procPart
  split <;> omega

/-! ### The hand-off to a pipe (R32, R39) -/

theorem pipeArrive_queues (hb : (pipeMark (pipeGet s (procPart s f.part))).bypass = false) (hc : rgb s (rPIPE_CTRL (procPart s f.part)) 0 = false) :
    pipeArrive s k f = pipePut (pipePut s (procPart s f.part) (pipeMark (pipeGet s (procPart s f.part)))) (procPart s f.part)
      (pipeMark { pipeMark (pipeGet s (procPart s f.part)) with dq := (pipeGet s (procPart s f.part)).dq ++ [k] }) :=
  if_neg (by rw [hb, Bool.false_or]; exact fun h => Bool.false_ne_true (hc.symm.trans h))

theorem pipeArrive_bypasses
    (h : (pipeMark (pipeGet s (procPart s f.part))).bypass = true ∨ rgb s (rPIPE_CTRL (procPart s f.part)) 0 = true) :
    pipeArrive s k f = bypassFrame (pipePut s (procPart s f.part) (pipeMark (pipeGet s (procPart s f.part)))) (procPart s f.part) k f :=
  if_pos (Bool.or_eq_true_iff.mpr h)

/-- A frame from a front port that bypasses leaves the queues, and counts unless its end status is pending. -/
theorem bypassFrame_spec (hq : q < 4) (hf : f.fromPeer = false) : (∀ p, (pipeGet (bypassFrame s q k f) p).dq = (pipeGet s p).dq) ∧
    counted s (bypassFrame s q k f) (rPIPE_BYPASS_FRAMES q) (b2n !f.endPending) := by
  cases he : f.endPending with
  | false => exact ⟨fun p => bypassFrame_dq he p, bypassFrame_counted hq he⟩
  | true =>
    have hstays : bypassFrame s q k f = framePut s k { f with stage := .bypassed } := by
      simp only [bypassFrame, hf, he, Bool.false_eq_true, if_false, if_true]
    rw [hstays]
    exact ⟨fun _ => rfl, counted_zero rfl⟩

/-! ### A frame is admitted (R36, R38, R220) -/

/-- The state in which the sub-port's sequence is taken and a good short frame is counted. -/
def seqTaken (s : State) (n m : Nat) (b : Bytes) : State :=
  let v := subGet s n m
  let t := subPut s n m { v with seq := (v.seq + 1) % 2 ^ 32 }
  if decide (b.length > 512) then t else macGood t n b.length

/-- The frame that the MAC of sub-port (n, m) admits, with as many cells as it will take. -/
def macFrame (s : State) (n m : Nat) (b : Bytes) (bad ptp : Bool) : Frame :=
  { part := portPart n, cells := List.replicate (min 38 (cdiv b.length 256)) 0, refs := 1, bytes := b, gt := (seqTaken s n m b).gt, port := n,
    sub := m, endPending := decide (b.length > 512), ptp := ptp, fecBad := bad, seq := (subGet s n m).seq, fromPeer := false, srcDev := 0,
    length := b.length, headSlot := none, ring := 0, stage := .queued, hold := none, entry := none, ipver := 0, ipoff := 0,
    color := 0, msgHdr := [], replayed := false, tables := none }

/-- A frame that finds no more than GUARD cells free is dropped, whatever check of R36 it would fail (log entry 131). -/
theorem frameArrive_full (h : poolFree s (portPart n) ≤ guardCells s (portPart n)) :
    frameArrive s n m b bad ptp = cinc (bump s (rTM_DROP_INGRESS (portPart n))) (cPart (portPart n) 16) 1 := if_pos h

theorem counted_cinc_bump (s : State) (x i k : Nat) : counted s (cinc (bump s x) i k) x 1 := by
  rw [counted, rg_congr (cinc_regs _ _ _), rg_bump_same]

theorem regsBut_cinc_bump (s : State) (x i k : Nat) : regsBut s (cinc (bump s x) i k) [x] := fun y hy => by
  rw [rg_congr (cinc_regs _ _ _), rg_bump_other _ (by simpa [eq_comm] using hy)]

theorem cinc_bump_arrivalNote_frame (s : State) (p x i k : Nat) : cinc (bump (arrivalNote s p) x) i k =
    { s with regs := (cinc (bump (arrivalNote s p) x) i k).regs, obs := (cinc (bump (arrivalNote s p) x) i k).obs,
             arrivals := (cinc (bump (arrivalNote s p) x) i k).arrivals } := rfl

theorem frameArrive_bad (h : guardCells s (portPart n) < poolFree s (portPart n)) (hl : decide (512 < b.length) = false)
    (hk : macCheck s n b bad = some k) : frameArrive s n m b bad ptp = macBad s n k := by
  have hl' : decide (b.length > 512) = false := hl
  simp only [frameArrive, if_neg (Nat.not_le_of_lt h), hl', hk, Bool.false_eq_true, if_false]

theorem frameArrive_stores (h : guardCells s (portPart n) < poolFree s (portPart n))
    (hk : decide (512 < b.length) = true ∨ macCheck s n b bad = none) : frameArrive s n m b bad ptp =
      pipeArrive (frameStore (seqTaken s n m b) (portPart n) (macFrame s n m b bad ptp)).2.2
        (frameStore (seqTaken s n m b) (portPart n) (macFrame s n m b bad ptp)).1
        (frameStore (seqTaken s n m b) (portPart n) (macFrame s n m b bad ptp)).2.1 := by
  have hc : (if decide (b.length > 512) = true then none else macCheck s n b bad) = none := by
    rcases hk with hk | hk
    · exact if_pos hk
    · rw [hk, ite_self]
  refine (if_neg (Nat.not_le_of_lt h)).trans ?_
  rw [hc]
  rfl

theorem rg_seqTaken_other {x : Nat} (h : rFP_RX_FRAMES n ≠ x) : rg (seqTaken s n m b) x = rg s x := by
  unfold seqTaken
  extract_lets v t
  split
  · rfl
  · exact rg_bump_other t h

theorem seqTaken_counted (s : State) (n m : Nat) (b : Bytes) : counted s (seqTaken s n m b) (rFP_RX_FRAMES n) (b2n !decide (512 < b.length)) := by
  unfold seqTaken
  extract_lets v t
  by_cases hl : 512 < b.length
  · rw [if_pos (decide_eq_true hl), decide_eq_true hl]
    exact counted_zero rfl
  · rw [if_neg (by simpa using hl), decide_eq_false hl]
    exact rg_bump_same t _

theorem seqTaken_mem (s : State) (n m : Nat) (b : Bytes) : (seqTaken s n m b).mem = s.mem := by
  unfold seqTaken
  split <;> rfl

theorem seqTaken_pipes (s : State) (n m : Nat) (b : Bytes) : (seqTaken s n m b).pipes = s.pipes := by
  unfold seqTaken
  split <;> rfl

theorem seqTaken_gt (s : State) (n m : Nat) (b : Bytes) : (seqTaken s n m b).gt = s.gt := by
  unfold seqTaken
  split <;> rfl

theorem seqTaken_subs (s : State) (n m : Nat) (b : Bytes) :
    (seqTaken s n m b).subs = (subPut s n m { subGet s n m with seq := ((subGet s n m).seq + 1) % 2 ^ 32 }).subs := by
  unfold seqTaken
  split <;> rfl

theorem seqTaken_seq (s : State) (n m : Nat) (b : Bytes) : (subGet (seqTaken s n m b) n m).seq = ((subGet s n m).seq + 1) % 2 ^ 32 := by
  rw [subGet_congr (seqTaken_subs s n m b), subGet_subPut_same]

theorem layoutStays_seqTaken (s : State) (m : Nat) (b : Bytes) (hn : n < 16) : LayoutStays s (seqTaken s n m b) := by
  refine ⟨rg_seqTaken_other ?_, rg_seqTaken_other ?_, fun q hq ep => rg_seqTaken_other ?_⟩
  · simp only [fpA, btA]
    omega
  · simp only [fpA, glbA]
    omega
  · unfold grnCfg
    split <;> simp only [fpA, grnA] <;> omega

theorem storedSpans_layout (h : LayoutStays s t) (f : Frame) : storedSpans t f = storedSpans s f := by
  simp only [storedSpans, linkAt, ringAt, h.poolCells]

theorem macFrame_gt (s : State) (n m : Nat) (b : Bytes) (bad ptp : Bool) : (macFrame s n m b bad ptp).gt = s.gt := by
  rw [macFrame, seqTaken_gt]

/-- A frame that arrives in `s` at sub-port (n, m) is admitted: in `t` it is stored as frame `k`, and `f`, its sequence is taken, and it is counted if it
is short; the pipes' queues, their bypass and who serves for whom have stayed, and every other register. -/
structure Admits (s : State) (n m : Nat) (b : Bytes) (bad ptp : Bool) (k : Nat) (f : Frame) (t : State) : Prop where
  count : counted s t (rFP_RX_FRAMES n) (b2n !decide (512 < b.length))
  seq : (subGet t n m).seq = ((subGet s n m).seq + 1) % 2 ^ 32
  frame : f = { macFrame s n m b bad ptp with cells := f.cells, headSlot := f.headSlot, ring := f.ring }
  stored : frameGet t k = some f
  mem : generalBut s t (portPart n) (storedSpans s f)
  dq : ∀ q, (pipeGet t q).dq = (pipeGet s q).dq
  bypass : ∀ q, (pipeMark (pipeGet t q)).bypass = (pipeMark (pipeGet s q)).bypass
  serves : ∀ p, procPart t p = procPart s p
  regs : ∀ x, rFP_RX_FRAMES n ≠ x → rg t x = rg s x

/-- The frame that the MAC admits is stored, and no more is done than `Admits` says. -/
theorem admits_of_frameStore (hn : n < 16) (h : frameStore (seqTaken s n m b) (portPart n) (macFrame s n m b bad ptp) = (k, f, t)) :
    Admits s n m b bad ptp k f t := by
  obtain ⟨hstays, hframe, hstored, hmem⟩ := frameStore_stores h
  have hpipes : ∀ q, pipeGet (seqTaken s n m b) q = pipeGet s q := pipeGet_congr (seqTaken_pipes s n m b)
  have hlayout := layoutStays_seqTaken s m b hn
  refine ⟨(rg_congr hstays.regs _).trans (seqTaken_counted s n m b), ?_, hframe, hstored, ?_, fun q => ?_, fun q => ?_, fun p => ?_,
    fun x hx => (rg_congr hstays.regs x).trans (rg_seqTaken_other hx)⟩
  · rw [subGet_congr hstays.subs, seqTaken_seq]
  · rw [← storedSpans_layout hlayout]
    exact hmem.of_layout hlayout (by simp only [portPart]; omega) (seqTaken_mem s n m b)
  · rw [hstays.dq, hpipes]
  · rw [hstays.pipeMark_bypass, hpipes]
  · rw [hstays.procPart, procPart, hpipes, ← procPart]

section
variable (hg : guardCells s (portPart n) < poolFree s (portPart n)) (hk : decide (512 < b.length) = true ∨ macCheck s n b bad = none)
include hg hk

theorem frameArrive_admits (hn : n < 16) : ∃ k f u, frameArrive s n m b bad ptp = pipeArrive u k f ∧ Admits s n m b bad ptp k f u := by
  obtain ⟨⟨k, f, u⟩, hstore⟩ : ∃ r, frameStore (seqTaken s n m b) (portPart n) (macFrame s n m b bad ptp) = r := ⟨_, rfl⟩
  refine ⟨k, f, u, ?_, admits_of_frameStore hn hstore⟩
  rw [frameArrive_stores hg hk, hstore]

/-- An admitted frame that no pipe bypasses: its descriptor joins the queue. -/
theorem frameArrive_queued (hn : n < 16) (hb : (pipeMark (pipeGet s (procPart s (portPart n)))).bypass = false)
    (hc : rgb s (rPIPE_CTRL (procPart s (portPart n))) 0 = false) : ∃ k f t, frameArrive s n m b bad ptp = t ∧
      (pipeGet t (procPart s (portPart n))).dq = (pipeGet s (procPart s (portPart n))).dq ++ [k] ∧
      counted s t (rFP_RX_FRAMES n) (b2n !decide (512 < b.length)) ∧ (subGet t n m).seq = ((subGet s n m).seq + 1) % 2 ^ 32 ∧
      frameGet t k = some f ∧ f = { macFrame s n m b bad ptp with cells := f.cells, headSlot := f.headSlot, ring := f.ring } ∧
      generalBut s t (portPart n) (storedSpans s f) := by
  obtain ⟨k, f, u, harrive, h⟩ := frameArrive_admits (m := m) (ptp := ptp) hg hk hn
  have hq : procPart u f.part = procPart s (portPart n) := by rw [h.serves, h.frame]; rfl
  have hctrl : rgb u (rPIPE_CTRL (procPart s (portPart n))) 0 = false :=
    (rgb_congr (h.regs _ (by simp only [fpA, pipeA]; omega))).trans hc
  rw [pipeArrive_queues (by rw [hq, h.bypass, hb]) (by rw [hq, hctrl]), hq] at harrive
  refine ⟨k, f, _, harrive, ?_, h.count, h.seq, h.stored, h.frame, h.mem.mem rfl⟩
  rw [pipeGet_pipePut_same, ← h.dq]
  rfl

/-- An admitted frame that a pipe bypasses joins no queue, and counts as bypassed unless its end status is pending. -/
theorem frameArrive_bypassed (hn : n < 16) (hb : (pipeMark (pipeGet s (procPart s (portPart n)))).bypass = true ∨
      rgb s (rPIPE_CTRL (procPart s (portPart n))) 0 = true) : ∃ t, frameArrive s n m b bad ptp = t ∧
    (pipeGet t (procPart s (portPart n))).dq = (pipeGet s (procPart s (portPart n))).dq ∧
      counted s t (rPIPE_BYPASS_FRAMES (procPart s (portPart n))) (b2n !decide (512 < b.length)) := by
  obtain ⟨k, f, u, harrive, h⟩ := frameArrive_admits (m := m) (ptp := ptp) hg hk hn
  have hq : procPart u f.part = procPart s (portPart n) := by rw [h.serves, h.frame]; rfl
  have hpeer : f.fromPeer = false := by rw [h.frame]; rfl
  have hpending : f.endPending = decide (512 < b.length) := by rw [h.frame]; rfl
  have hq4 : procPart s (portPart n) < 4 := procPart_lt s (by simp only [portPart]; omega)
  have hctrl : rgb u (rPIPE_CTRL (procPart s (portPart n))) 0 = rgb s (rPIPE_CTRL (procPart s (portPart n))) 0 :=
    rgb_congr (h.regs _ (by simp only [fpA, pipeA]; omega))
  rw [pipeArrive_bypasses (by rw [hq, h.bypass, hctrl]; exact hb), hq] at harrive
  obtain ⟨hdq, hcount⟩ := bypassFrame_spec (s := pipePut u (procPart s (portPart n)) (pipeMark (pipeGet u (procPart s (portPart n)))))
    (k := k) hq4 hpeer
  refine ⟨_, harrive, ?_, ?_⟩
  · rw [hdq, pipeGet_pipePut_same, ← h.dq]
    rfl
  · have hcountU : counted u _ _ _ := hcount
    rwa [counted, h.regs _ (by simp only [fpA, pipeA]; omega), hpending] at hcountU

end

/-- FRAME_RECEIVE of a frame that is neither PFC nor a load channel's, at a sub-port that carries traffic. -/
theorem runsTo_frameReceive {P : State → Prop} (ho : macOpen s n m) (hp : isPfc b = false) (hs : sessionOf s n m b = none)
    (h : P (frameArrive (arrivalNote s (portPart n)) n m b bad ptp)) : runsTo (.frameReceive n m b bad ptp) s P := by
  refine ⟨_, rfl, ?_⟩
  rw [macReceive_open ho, if_neg (by simp [hp]), if_neg (by simp [hs])]
  exact h

/-- Settles O18: an admitted frame is stored and handed to its pipe (`frameArrive_queued`, `frameArrive_bypassed`); each other frame leaves a count,
or its arrival alone. One at a sub-port that carries no traffic leaves nothing (log entry 20). -/
theorem framesArrive : Obligations.FramesArrive := by
  intro s n m b bad ptp
  dsimp only
  refine ⟨fun h => ⟨_, rfl, macReceive_closed h⟩, fun ho hp hs => ⟨_, rfl, ?_⟩,
    fun ⟨ho, hp, hs⟩ hg hk => ⟨fun hb hc => runsTo_frameReceive ho hp hs ?_, fun hb => runsTo_frameReceive ho hp hs ?_⟩,
    fun ⟨ho, hp, hs⟩ hg => runsTo_frameReceive ho hp hs ?_, fun k ⟨ho, hp, hs⟩ hg hl hk => runsTo_frameReceive ho hp hs ?_⟩
  · rw [macReceive_open ho, if_neg (by simp [hp]), if_pos (Option.isSome_iff_ne_none.mpr hs)]
    rfl
  · obtain ⟨k, f, t, ht, hdq, hcount, hseq, hf, hframe, hmem⟩ :=
      frameArrive_queued (s := arrivalNote s (portPart n)) (m := m) (ptp := ptp) hg hk ho.1 hb hc
    rw [ht]
    refine ⟨hcount, hseq, k, f, hdq, hf, ?_⟩
    have hgt : f.gt = s.gt := by rw [hframe]; exact macFrame_gt (arrivalNote s (portPart n)) n m b bad ptp
    have hlayout : LayoutStays s (arrivalNote s (portPart n)) := ⟨rfl, rfl, fun _ _ _ => rfl⟩
    rw [storedSpans_layout hlayout] at hmem
    have hpart : portPart n < 4 := by have := ho.1; simp only [portPart]; omega
    refine ⟨?_, ?_, hgt, ?_, ?_, ?_, ?_, ?_, hmem.of_layout hlayout hpart rfl⟩ <;> (rw [hframe]; rfl)
  · obtain ⟨t, ht, hdq, hcount⟩ := frameArrive_bypassed (s := arrivalNote s (portPart n)) (m := m) (ptp := ptp) hg hk ho.1 hb
    rw [ht]
    exact ⟨hdq, hcount⟩
  · rw [frameArrive_full (s := arrivalNote s (portPart n)) hg]
    exact ⟨counted_cinc_bump (arrivalNote s (portPart n)) _ _ _, regsBut_cinc_bump (arrivalNote s (portPart n)) _ _ _,
      cinc_bump_arrivalNote_frame s _ _ _ _⟩
  · rw [frameArrive_bad (s := arrivalNote s (portPart n)) hg hl hk]
    exact ⟨macBad_counted (arrivalNote s (portPart n)) n k, regsBut_macBad (arrivalNote s (portPart n)) n k, macBad_arrivalNote_frame s _ n k⟩

end Sys2Proof.Machine
end

section
/-! PROOFS. The tokens of the Granary and its eviction seed (O15), and the rules for storing a share or an entry that O13 to O17 rest on. -/

namespace Sys2Proof.Machine

open Sys2Proof

-- One declaration after the other: the whole text is checked within a fixed memory.
set_option Elab.async false

variable {s t : State} {p q i j : Nat} {ep : Bool}

/-! ### A share and an entry are stored -/

@[simp] theorem shareGet_sharePut_same (s : State) (p : Nat) (v : Share) : shareGet (sharePut s p v) p = v := tget_tset_same _ _ _ _

theorem shareGet_sharePut_other (s : State) (v : Share) (h : q ≠ p) : shareGet (sharePut s p v) q = shareGet s q := tget_tset_other _ _ _ h.symm

/-- A share that is stored with its two tables as they were leaves every entry. -/
theorem entGet_sharePut {v : Share} (hf : v.flow = (shareGet s p).flow) (he : v.ep = (shareGet s p).ep) (q : Nat) (ep : Bool) (i : Nat) :
    entGet (sharePut s p v) q ep i = entGet s q ep i := by
  by_cases h : q = p
  · subst h
    rw [entGet, shareGet_sharePut_same, hf, he, ← entGet]
  · rw [entGet, shareGet_sharePut_other _ _ h, ← entGet]

theorem shareGet_congr (h : t.shares = s.shares) (p : Nat) : shareGet t p = shareGet s p := congrArg (tget share0 · p) h

/-! ### An advance of the epoch after a write -/

theorem epochAdvance_shares (s : State) (cause : Nat) : (epochAdvance s cause).shares = s.shares := by rw [epochAdvance_frame]

/-- The epoch advances from what a write has left as it was. -/
theorem epochMoved_of_stays {cause : Nat} (hr : rg t rGLB_EPOCH = rg s rGLB_EPOCH) (hat : t.epochAt = s.epochAt) (hgt : t.gt = s.gt)
    (hc : t.epochCause = s.epochCause) : epochMoved s (epochAdvance t cause) cause := by
  have h := epochMoved_epochAdvance t cause
  rwa [epochMoved, hr, hat, hgt, hc] at h

/-! ### The commands -/

/-- A share that is stored with its two tables as they were: what else of the state stays. -/
theorem sharePut_spec {v : Share} (hf : v.flow = (shareGet s p).flow) (he : v.ep = (shareGet s p).ep) :
    (∀ ep i, entGet (sharePut s p v) p ep i = entGet s p ep i) ∧ (∀ q, q ≠ p → shareGet (sharePut s p v) q = shareGet s q) ∧
      sharePut s p v = { s with shares := (sharePut s p v).shares } :=
  ⟨entGet_sharePut hf he p, fun _ => shareGet_sharePut_other s v, rfl⟩

theorem runsTo_insertTokenAccrue (s : State) (p : Nat) : runsTo (.insertTokenAccrue p) s fun t =>
    (shareGet t p).ins = min (insBurst s p) ((shareGet s p).ins + 1) ∧ (∀ ep i, entGet t p ep i = entGet s p ep i) ∧
      (∀ q, q ≠ p → shareGet t q = shareGet s q) ∧ t = { s with shares := t.shares } :=
  ⟨_, rfl, by rw [shareGet_sharePut_same], sharePut_spec rfl rfl⟩

theorem runsTo_moveTokenAccrue (h : rgf s (rGRN_MOVE p) 15 0 ≠ 0) : runsTo (.moveTokenAccrue p) s fun t =>
    (shareGet t p).mov = min (movBurst s p) ((shareGet s p).mov + 1) ∧ (∀ ep i, entGet t p ep i = entGet s p ep i) ∧
      (∀ q, q ≠ p → shareGet t q = shareGet s q) ∧ t = { s with shares := t.shares } :=
  ⟨_, if_neg h, by rw [shareGet_sharePut_same], sharePut_spec rfl rfl⟩

/-- A seed stored in register `x` and in the LFSR. The register is a variable: its address is nothing to compute with. -/
def seedStored (s : State) (p x v : Nat) : State := sharePut (rgw s x v) p { shareGet (rgw s x v) p with lfsr := lfsrSeed (BitVec.ofNat 32 v) }

theorem evictSeedWrite_eq (s : State) (p v : Nat) : evictSeedWrite s p v = seedStored s p (rGRN_EVICT_SEED p) v := rfl

theorem seedStored_frame (s : State) (p x v : Nat) : seedStored s p x v =
    { s with regs := (rgw s x v).regs, shares := (sharePut s p { shareGet s p with lfsr := lfsrSeed (BitVec.ofNat 32 v) }).shares } := rfl

theorem seedStored_spec {x : Nat} (v : Nat) (hx : x ≠ rGLB_EPOCH) (ht : t = epochAdvance (seedStored s p x v) 3) :
    rg t x = v % 2 ^ 32 ∧ (shareGet t p).lfsr = lfsrSeed (BitVec.ofNat 32 v) ∧ epochMoved s t 3 ∧
      (∀ ep i, entGet t p ep i = entGet s p ep i) ∧ regsBut s t [x, rGLB_EPOCH] := by
  subst ht
  have hshares := epochAdvance_shares (seedStored s p x v) 3
  have hregs : (seedStored s p x v).regs = (rgw s x v).regs := rfl
  refine ⟨?_, ?_, ?_, fun ep i => ?_, fun y hy => ?_⟩
  · rw [rg_epochAdvance_other _ _ hx, rg_congr hregs, rg_rgw_same]
  · rw [shareGet_congr hshares, seedStored, shareGet_sharePut_same]
  · exact epochMoved_of_stays ((rg_congr hregs _).trans (rg_rgw_other _ _ hx)) rfl rfl rfl
  · rw [entGet_congr hshares]
    exact entGet_sharePut (by rfl) (by rfl) p ep i
  · obtain ⟨hy, hepoch⟩ : y ≠ x ∧ y ≠ rGLB_EPOCH := by simpa using hy
    rw [rg_epochAdvance_other _ _ hepoch, rg_congr hregs, rg_rgw_other _ _ hy.symm]

/-- The seed's register and the LFSR are written, then the epoch advances. -/
theorem runsTo_grnEvictSeedWrite (s : State) (p v : Nat) : runsTo (.grnEvictSeedWrite p v) s fun t =>
    rg t (rGRN_EVICT_SEED p) = v % 2 ^ 32 ∧ (shareGet t p).lfsr = lfsrSeed (BitVec.ofNat 32 v) ∧ epochMoved s t 3 ∧
      (∀ ep i, entGet t p ep i = entGet s p ep i) ∧ regsBut s t [rGRN_EVICT_SEED p, rGLB_EPOCH] := by
  have hne : rGRN_EVICT_SEED p ≠ rGLB_EPOCH := by simp only [grnA, glbA]; omega
  exact ⟨_, rfl, seedStored_spec v hne (congrArg (epochAdvance · 3) (evictSeedWrite_eq s p v))⟩

/-- Settles O15: each command stores one share, with its tables as they were. -/
theorem granaryTokens : Obligations.GranaryTokens := fun s p v =>
  ⟨runsTo_insertTokenAccrue s p, runsTo_moveTokenAccrue, fun h => ⟨_, if_pos h, rfl⟩, runsTo_grnEvictSeedWrite s p v⟩

end Sys2Proof.Machine
end

section
/-! PROOFS. A visit of the aging scan that leaves an entry with a parity error (O14). -/

namespace Sys2Proof.Machine

open Sys2Proof

-- One declaration after the other: the whole text is checked within a fixed memory.
set_option Elab.async false

/-- A flow entry that nobody pinned, with words `par` in error, that names ledger slot `slot`. -/
def flowInError (uid par : Nat) (slot : Option Nat) : GEnt :=
  { uid := uid, static := false, pinned := false, digest := false, ksize := 0, cls := 0, port := 0, moves := 0, last := 0, first := 0,
    key := List.replicate 40 (BitVec.ofNat 8 uid), vs := { vstate0 with lslot := slot }, par := par }

/-- An open ledger slot of flow entry 1. -/
def slotOfEntry1 : LSlot :=
  { entry := 1, uid := 1, cls := 0, opened := true, pframes := 0, pbytes := 0, mbytes := 0, qleft := 0, since := 0 }

/-- Share 0 with its flow table and its scan on, a pass begun at time 0, and two entries in the first bucket: entry 0, with an error in a word of its
key, names the ledger slot that is entry 1's; entry 1 has an error in a word of its VSTATE. -/
def scansStraySlot : State :=
  let on := rgw (rgw State.reset (rGRN_SCAN 0) 1) (grnCfg 0 false) 0x80000008
  let entries := entPut (entPut on 0 false 0 (some (flowInError 0 4 (some 0)))) 0 false 1 (some (flowInError 1 64 none))
  slotPut (passPut entries 0 false (some (0, []))) 0 0 (some slotOfEntry1)

/-- The visit finds entry 1 after entry 0 is gone, with new parity over its VSTATE, and leaves it. -/
theorem ageBucket_scansStraySlot : (entGet (ageBucket scansStraySlot 0 false 0 0 []) 0 false 1).map (fun e => e.par) = some 0 := by decide +kernel

/-- Refutes O14: an entry of the bucket with a parity error may survive the visit. Entry 0 is invalidated first, and the ledger slot that it names is
resolved; where that slot is entry 1's (`scansStraySlot`), entry 1's VSTATE is written with new parity, so that the scan no longer finds its error. -/
theorem not_granaryScan : ¬ Obligations.GranaryScan := by
  intro h
  have hpass : passGet scansStraySlot 0 false = some (0, []) := by decide +kernel
  obtain ⟨hvisit, -⟩ := h.2 scansStraySlot 0 false 0 0 0 [] (by decide +kernel) hpass
  obtain ⟨t, ht, -, hgone⟩ := hvisit (by decide +kernel) ⟨rfl, rfl⟩
  obtain rfl : ageBucket scansStraySlot 0 false 0 0 [] = t := Host.Outcome.next.inj ht
  have hentry : entGet scansStraySlot 0 false 1 = some (flowInError 1 64 none) := by decide +kernel
  have hnone : entGet (ageBucket scansStraySlot 0 false 0 0 []) 0 false 1 = none := hgone 1 _ (by decide) hentry (Or.inr (by decide))
  have hkept := ageBucket_scansStraySlot
  rw [hnone] at hkept
  cases hkept

end Sys2Proof.Machine
end

section
/-! PROOFS. The host's commands on single Granary entries (O16): what storing an entry and an answer leave, then one lemma for each command. -/

namespace Sys2Proof.Machine

open Sys2Proof

-- One declaration after the other: the whole text is checked within a fixed memory.
set_option Elab.async false

variable {s t u : State} {p ks op i j : Nat} {ep : Bool} {par : List ParHit} {e : GEnt}

/-! ### An entry is stored -/

theorem entGet_entPut (s : State) (p : Nat) (ep : Bool) (i j : Nat) (v : Option GEnt) :
    entGet (entPut s p ep i v) p ep j = if i = j then v else entGet s p ep j := by
  cases ep <;> simp only [entGet, entPut, shareGet_sharePut_same, tget_tset, if_true, Bool.false_eq_true, if_false]

@[simp] theorem entGet_entPut_same (s : State) (p : Nat) (ep : Bool) (i : Nat) (v : Option GEnt) : entGet (entPut s p ep i v) p ep i = v := by
  rw [entGet_entPut, if_pos rfl]

theorem entGet_entPut_other (s : State) (p : Nat) (ep : Bool) (v : Option GEnt) (h : j ≠ i) : entGet (entPut s p ep i v) p ep j = entGet s p ep j := by
  rw [entGet_entPut, if_neg h.symm]

theorem entGet_entRemove_same (s : State) (p : Nat) (ep : Bool) (i : Nat) (e : GEnt) : entGet (entRemove s p ep i e) p ep i = none :=
  entGet_entPut_same _ _ _ _ _

theorem memW_shares (s : State) (x : Nat) (b : Bytes) : (memW s x b).shares = s.shares := by
  unfold memW
  split
  · rfl
  · have hcount : (lpCount s 1 x b.length).shares = s.shares := by rw [(CountsOnly.lpCount s 1 x b.length).1]
    exact hcount

theorem generalW_shares (s : State) (p y : Nat) (b : Bytes) : (generalW s p y b).shares = s.shares := by
  unfold generalW
  generalize generalPieces s p (b.length / 512 + 2) y b.length = l
  induction l generalizing s b with
  | nil => rfl
  | cons e l ih => exact (ih _ _).trans (memW_shares _ _ _)

/-- A new entry stands where it was put; its feature state is of the tier, not of the tables. -/
theorem entGet_putEntry_same (s : State) (p : Nat) (ep : Bool) (i : Nat) (e : GEnt) : entGet (putEntry s p ep i e) p ep i = some e := by
  unfold putEntry
  extract_lets u
  have hput : entGet u p ep i = some e := entGet_entPut_same _ _ _ _ _
  split
  · exact hput
  · rwa [fsPut, entGet_congr (generalW_shares _ _ _ _)]

/-! ### No entry has a parity error (R79) -/

/-- Where no entry has an error and none strikes, the check of what is read changes nothing. -/
theorem parityCheck_clean (h : ∀ i e, entGet s p ep i = some e → e.par = 0) (reads : List Nat) : parityCheck s p ep [] reads = s := by
  refine List.foldl_fixed' (fun i => ?_) reads
  split
  · rename_i e he
    simp [h i e he]
  · rfl

/-! ### A command's answer -/

theorem rgw_frame (s : State) (x v : Nat) : rgw s x v = { s with regs := (rgw s x v).regs } := rfl

theorem grnStatus_frame (s : State) (p r i : Nat) : grnStatus s p r i = { s with regs := (grnStatus s p r i).regs } := rgw_frame _ _ _

theorem entGet_grnStatus (s : State) (p r i : Nat) : entGet (grnStatus s p r i) = entGet s := entGet_congr (rgw_shares _ _ _)

/-- RESULT, and the entry's index where the command succeeded. -/
theorem grnStatus_result {r : Nat} (s : State) (p : Nat) (h : r = 0 ∨ i = 0) :
    rg (grnStatus s p r i) (rGRN_CMD_STATUS p) = (r * 2 ^ 28 + i) % 2 ^ 32 := by
  have hval : fld r 28 + (if r = 0 then i else 0) = r * 2 ^ 28 + i := by
    rw [fld, Nat.shiftLeft_eq]
    split <;> omega
  rw [grnStatus, rg_rgw_same, hval]

/-- A command that fails answers, and leaves what finding its key has left. -/
theorem grnStatus_fails {r : Nat} (u : State) (p : Nat) : rg (grnStatus u p r 0) (rGRN_CMD_STATUS p) = (r * 2 ^ 28 + 0) % 2 ^ 32 ∧
    grnStatus u p r 0 = { u with regs := (grnStatus u p r 0).regs } := ⟨grnStatus_result u p (Or.inr rfl), grnStatus_frame u p r 0⟩

/-! ### What each command does -/

/-- An entry with the fields that GRN_ENTRY gives. -/
def hostFields (s : State) (p : Nat) (e : GEnt) : GEnt :=
  let w0 := leAt (hostEntry s p) 0 8
  { e with cls := bits w0 57 50, port := bits w0 49 43, static := bit w0 62, pinned := bit w0 61, last := grnTime s.gt }

/-- GRN_ENTRY with the bytes of an entry. -/
def entryShown (s : State) (p : Nat) (ep : Bool) (e : GEnt) : State :=
  (List.range 16).foldl (fun s j => rgw s (rGRN_ENTRY p j) (leAt (entBytes ep e) (4 * j) 4)) s

/-- What the host command `op` does with the entry that its key names; `s` is the state in which the command came, `u` the one in which the key was found. -/
def hostEffect (s u : State) (p op : Nat) (ep : Bool) (i : Nat) (e : GEnt) : State :=
  match op with
  | 1 => entPut u p ep i (some (hostFields s p e))
  | 2 => entRemove u p ep i e
  | 3 => entryShown u p ep e
  | 4 => entPut u p ep i (some { e with pinned := true })
  | _ => entPut u p ep i (some { e with pinned := false })

theorem grnCommand_off (statics : Bool) (h : grnOn s p ep = false) : grnCommand s p op ep ks statics par = grnStatus s p 3 0 := if_pos (by simp [h])

section
variable {statics : Bool} (hon : grnOn s p ep = true) (hop : 0 < op ∧ op < 6)

include hon hop

theorem grnCommand_found (hf : hostFind s p ep (hostKey s p ks) (if op = 3 then par else []) = (some i, u)) (he : entGet u p ep i = some e) :
    grnCommand s p op ep ks statics par = grnStatus (hostEffect s u p op ep i e) p 0 i := by
  have hknown : ¬(op = 0 ∨ op > 6) ∧ op ≠ 6 := by omega
  simp only [grnCommand, hon, hknown, hf, he, Bool.not_true, Bool.false_eq_true, if_false]
  obtain ⟨hlo, hhi⟩ := hop
  interval_cases op <;> rfl

theorem grnCommand_missed (hne : op ≠ 1) (hf : hostFind s p ep (hostKey s p ks) (if op = 3 then par else []) = (none, u)) :
    grnCommand s p op ep ks statics par = grnStatus u p 1 0 := by
  have hknown : ¬(op = 0 ∨ op > 6) ∧ op ≠ 6 := by omega
  simp only [grnCommand, hon, hknown, hf, hne, Bool.not_true, Bool.false_eq_true, if_false]

end

theorem grnCommand_inserts {statics : Bool} (hon : grnOn s p ep = true) (hf : hostFind s p ep (hostKey s p ks) [] = (none, u))
    (hs : slotForInsert u (procPart u p) p ep (hostKey s p ks) = (some i, t)) :
    grnCommand s p 1 ep ks statics par = grnStatus (putEntry t p ep i (hostFields s p (newEntry t (hostKey s p ks) 0 0 t.gt))) p 0 i := by
  simp [grnCommand, hon, hf, hs]
  rfl

theorem grnCommand_noSlot {statics : Bool} (hon : grnOn s p ep = true) (hf : hostFind s p ep (hostKey s p ks) [] = (none, u))
    (hs : slotForInsert u (procPart u p) p ep (hostKey s p ks) = (none, t)) : grnCommand s p 1 ep ks statics par = grnStatus t p 2 0 := by
  simp [grnCommand, hon, hf, hs]

theorem keyMatch_hostFields (s t : State) (p gt : Nat) (key : Bytes) :
    keyMatch (hostFields s p (newEntry t key 0 0 gt)) (storedKey key) = true := by simp [keyMatch, hostFields, newEntry]

theorem leNat_lt (b : Bytes) : leNat b < 256 ^ b.length := by
  induction b with
  | nil => exact Nat.one_pos
  | cons x b ih =>
    have hx : x.toNat < 256 := x.isLt
    rw [leNat, List.length_cons, pow_succ]
    omega

/-- Registers written one after the other: each reads as it was written, and nothing else of the state moves. -/
theorem foldl_rgw_spec {f g : Nat → Nat} (hf : f.Injective) (l : List Nat) (s : State) :
    (∀ k ∈ l, rg (l.foldl (fun s j => rgw s (f j) (g j)) s) (f k) = g k % 2 ^ 32) ∧
      l.foldl (fun s j => rgw s (f j) (g j)) s = { s with regs := (l.foldl (fun s j => rgw s (f j) (g j)) s).regs } := by
  refine List.reverseRecOn l ⟨nofun, rfl⟩ fun l j ih => ?_
  obtain ⟨hread, hframe⟩ := ih
  rw [List.foldl_append, List.foldl_cons, List.foldl_nil]
  refine ⟨fun k hk => ?_, ?_⟩
  · by_cases hj : k = j
    · rw [hj, rg_rgw_same]
    · rw [rg_rgw_other _ _ fun h => hj (hf h).symm]
      exact hread k (by simpa [hj] using hk)
  · rw [rgw_frame, hframe]

/-- The bytes of the entry stand in GRN_ENTRY after the answer. -/
theorem entryShown_spec (u : State) (p : Nat) (ep : Bool) (e : GEnt) (i : Nat) :
    (∀ j, j < 16 → rg (grnStatus (entryShown u p ep e) p 0 i) (rGRN_ENTRY p j) = leAt (entBytes ep e) (4 * j) 4) ∧
      grnStatus (entryShown u p ep e) p 0 i = { u with regs := (grnStatus (entryShown u p ep e) p 0 i).regs } := by
  have hinj : (rGRN_ENTRY p).Injective := fun j k h => by
    simp only [grnA] at h
    omega
  obtain ⟨hread, hframe⟩ := foldl_rgw_spec (g := fun j => leAt (entBytes ep e) (4 * j) 4) hinj (List.range 16) u
  refine ⟨fun j hj => ?_, ?_⟩
  · have hne : rGRN_CMD_STATUS p ≠ rGRN_ENTRY p j := by
      simp only [grnA]
      omega
    have hlt := leNat_lt (slice (entBytes ep e) (4 * j) 4)
    rw [slice_length] at hlt
    exact (rg_rgw_other _ _ hne).trans ((hread j (List.mem_range.mpr hj)).trans (Nat.mod_eq_of_lt hlt))
  · rw [grnStatus_frame, entryShown, hframe]

/-- Settles O16: the key is found or not (`grnCommand_found`, `grnCommand_missed`), and what a command does with the entry it found is `hostEffect`. -/
theorem granaryHostEntries : Obligations.GranaryHostEntries := by
  intro s p ks ep par key w0 at_ u atR uR result fields others
  have hfields : ∀ e, fields (hostFields s p e) := fun _ => ⟨rfl, rfl, rfl, rfl, rfl⟩
  have hothers : ∀ i v, others (grnStatus (entPut u p ep i v) p 0 i) i := fun i v j hj => by
    rw [entGet_grnStatus, entGet_entPut_other _ _ _ _ hj]
  have hstored : ∀ i v, entGet (grnStatus (entPut u p ep i v) p 0 i) p ep i = v := fun i v => by rw [entGet_grnStatus, entGet_entPut_same]
  have hnew : ∀ w i e, entGet (grnStatus (putEntry w p ep i e) p 0 i) p ep i = some e := fun w i e => by rw [entGet_grnStatus, entGet_putEntry_same]
  have hresult : ∀ w i, result (grnStatus w p 0 i) 0 i := fun w i => grnStatus_result w p (Or.inl rfl)
  refine ⟨fun hon hat => ?_, fun i e hon hat he => ?_, fun hon hat => ?_, fun i e hon hat he => ?_, fun hoff c hc => ?_, fun hclean => ?_⟩
  · have hf : hostFind s p ep key [] = (none, u) := Prod.ext hat rfl
    refine ⟨fun i hi => ?_, fun hi => ?_, ?_, ?_, ?_⟩
    · exact ⟨_, congrArg Host.Outcome.next (grnCommand_inserts hon hf (Prod.ext hi rfl)), hresult _ _, _, hnew _ _ _, hfields _,
        keyMatch_hostFields _ _ _ _ _⟩
    · exact ⟨_, congrArg Host.Outcome.next (grnCommand_noSlot hon hf (Prod.ext hi rfl)), (grnStatus_fails _ p).1⟩
    · exact ⟨_, congrArg Host.Outcome.next (grnCommand_missed hon (by decide) (by decide) hf), grnStatus_fails u p⟩
    · exact ⟨_, congrArg Host.Outcome.next (grnCommand_missed hon (by decide) (by decide) hf), grnStatus_fails u p⟩
    · exact ⟨_, congrArg Host.Outcome.next (grnCommand_missed hon (by decide) (by decide) hf), grnStatus_fails u p⟩
  · have hf : hostFind s p ep key [] = (some i, u) := Prod.ext hat rfl
    refine ⟨?_, ?_, ?_, ?_⟩
    · exact ⟨_, congrArg Host.Outcome.next (grnCommand_found hon (by decide) hf he), hresult _ _, hothers _ _, _, hstored _ _, hfields e, rfl, rfl, rfl⟩
    · refine ⟨_, congrArg Host.Outcome.next (grnCommand_found hon (by decide) hf he), hresult _ _, ?_⟩
      rw [entGet_grnStatus]
      exact entGet_entRemove_same _ _ _ _ _
    · exact ⟨_, congrArg Host.Outcome.next (grnCommand_found hon (by decide) hf he), hresult _ _, hstored _ _, hothers _ _⟩
    · exact ⟨_, congrArg Host.Outcome.next (grnCommand_found hon (by decide) hf he), hresult _ _, hstored _ _, hothers _ _⟩
  · exact ⟨_, congrArg Host.Outcome.next (grnCommand_missed hon (by decide) (by decide) (Prod.ext hat rfl)), grnStatus_fails uR p⟩
  · exact ⟨_, congrArg Host.Outcome.next (grnCommand_found hon (by decide) (Prod.ext hat rfl) he), hresult _ _, entryShown_spec uR p ep e i⟩
  · simp only [List.mem_cons, List.not_mem_nil, or_false] at hc
    rcases hc with rfl | rfl | rfl | rfl | rfl <;> exact ⟨_, congrArg Host.Outcome.next (grnCommand_off false hoff), grnStatus_fails s p⟩
  · exact parityCheck_clean hclean _

end Sys2Proof.Machine
end

section
/-! PROOFS. FLUSH of a Granary table and a write of its configuration (O17): what removing entries leaves of the table and of the rest of the state. -/

namespace Sys2Proof.Machine

open Sys2Proof

-- One declaration after the other: the whole text is checked within a fixed memory.
set_option Elab.async false

variable {a s t u : State} {p i j k hi lo v w : Nat} {ep statics : Bool} {e : GEnt}

/-! ### A removal leaves the other entries what they are (R210) -/

/-- Which entry stands at an index, if one does: its identity, its key, whether it is STATIC. -/
def entIdent (s : State) (p : Nat) (ep : Bool) (j : Nat) : Option (Nat × Bytes × Bool) := (entGet s p ep j).map fun e => (e.uid, e.key, e.static)

theorem entIdent_congr (h : t.shares = s.shares) (p : Nat) (ep : Bool) (j : Nat) : entIdent t p ep j = entIdent s p ep j := by
  rw [entIdent, entGet_congr h, ← entIdent]

/-- A change of VSTATE leaves the entry that it is made in. -/
theorem entIdent_entVs (s : State) (p i u : Nat) (f : VState → VState) (j : Nat) : entIdent (entVs s p i u f) p false j = entIdent s p false j := by
  unfold entVs
  split
  · rename_i e he
    split
    · rw [entIdent, entGet_entPut]
      split
      · subst_vars
        rw [entIdent, he]
        rfl
      · rfl
    · rfl
  · rfl

/-- From `s` to `t` entries, ledger slots and the count of the slots that stood have changed, and nothing else. -/
structure EntriesGo (p : Nat) (s t : State) : Prop where
  regs : regsBut s t [rVD_STOOD p]
  frame : t = { s with regs := t.regs, shares := t.shares, vds := t.vds }

theorem EntriesGo.refl (s : State) : EntriesGo p s s := ⟨fun _ _ => rfl, rfl⟩

theorem EntriesGo.trans (h : EntriesGo p a s) (g : EntriesGo p s t) : EntriesGo p a t :=
  ⟨fun x hx => (g.regs x hx).trans (h.regs x hx), g.frame.trans (by rw [h.frame])⟩

theorem entriesGo_slotSettle (s : State) (p i : Nat) : EntriesGo p s (slotSettle s p i) ∧ (slotSettle s p i).shares = s.shares := by
  unfold slotSettle
  split
  · split
    · exact ⟨⟨fun _ _ => rfl, rfl⟩, rfl⟩
    · exact ⟨.refl s, rfl⟩
  · exact ⟨.refl s, rfl⟩

theorem entriesGo_entVs (s : State) (p i u : Nat) (f : VState → VState) : EntriesGo p s (entVs s p i u f) := by
  rw [entVs_frame]
  exact ⟨fun _ _ => rfl, rfl⟩

theorem entriesGo_slotResolve (s : State) (p i : Nat) :
    EntriesGo p s (slotResolve s p i) ∧ ∀ j, entIdent (slotResolve s p i) p false j = entIdent s p false j := by
  unfold slotResolve
  split
  · exact ⟨.refl s, fun _ => rfl⟩
  · extract_lets s1 s2
    have hput : EntriesGo p s s1 := ⟨fun _ _ => rfl, rfl⟩
    obtain ⟨hsettle, hshares⟩ := entriesGo_slotSettle s2 p i
    exact ⟨(hput.trans (entriesGo_entVs _ _ _ _ _)).trans hsettle,
      fun j => (entIdent_congr hshares p false j).trans (entIdent_entVs _ _ _ _ _ _)⟩

theorem bump_frame (s : State) (x : Nat) : bump s x = { s with regs := (bump s x).regs, shares := (bump s x).shares, vds := (bump s x).vds } := rfl

theorem entriesGo_bump (s : State) (p : Nat) : EntriesGo p s (bump s (rVD_STOOD p)) := ⟨regsBut_rgw _ _ _, bump_frame _ _⟩

theorem entriesGo_entStood (s : State) (p : Nat) (e : GEnt) :
    EntriesGo p s (entStood s p e) ∧ ∀ j, entIdent (entStood s p e) p false j = entIdent s p false j := by
  unfold entStood slotStood
  split
  · split
    · split
      · obtain ⟨hgo, hident⟩ := entriesGo_slotResolve s p ‹_›
        exact ⟨hgo.trans (entriesGo_bump _ p), fun j => (entIdent_congr (bump_shares _ _) p false j).trans (hident j)⟩
      · exact ⟨.refl s, fun _ => rfl⟩
    · exact ⟨.refl s, fun _ => rfl⟩
  · exact ⟨.refl s, fun _ => rfl⟩

/-- A removal frees its index and leaves every other entry where it is. -/
theorem entriesGo_entRemove (s : State) (p : Nat) (ep : Bool) (i : Nat) (e : GEnt) :
    EntriesGo p s (entRemove s p ep i e) ∧ ∀ j, entIdent (entRemove s p ep i e) p ep j = if i = j then none else entIdent s p ep j := by
  obtain ⟨hgo, hident⟩ : EntriesGo p s (if ep then s else entStood s p e) ∧
      ∀ j, entIdent (if ep then s else entStood s p e) p ep j = entIdent s p ep j := by
    cases ep
    · exact entriesGo_entStood s p e
    · exact ⟨.refl s, fun _ => rfl⟩
  refine ⟨hgo.trans ⟨fun _ _ => rfl, rfl⟩, fun j => ?_⟩
  rw [entIdent, entRemove, entGet_entPut]
  split
  · rfl
  · exact hident j

/-! ### A table is cleared (R82, R84) -/

/-- The entries of a table, by index. -/
def tableOf (s : State) (p : Nat) (ep : Bool) : Tab (Option GEnt) := if ep then (shareGet s p).ep else (shareGet s p).flow

/-- A clear removes this entry: any, or one that is not STATIC. -/
def cleared (statics : Bool) (x : Nat × Option GEnt) : Bool := x.2.any fun e => statics || !e.static

/-- One step of a clear. -/
def clearEntry (p : Nat) (ep statics : Bool) (s : State) (x : Nat × Option GEnt) : State :=
  match x.2 with
  | some e => if e.static && !statics then s else entRemove s p ep x.1 e
  | none => s

theorem tableClear_eq (s : State) (p : Nat) (ep statics : Bool) : tableClear s p ep statics = (tableOf s p ep).foldl (clearEntry p ep statics) s := rfl

theorem clearEntry_spec (s : State) (p : Nat) (ep statics : Bool) (x : Nat × Option GEnt) : EntriesGo p s (clearEntry p ep statics s x) ∧
    ∀ j, entIdent (clearEntry p ep statics s x) p ep j = if x.1 = j ∧ cleared statics x = true then none else entIdent s p ep j := by
  obtain ⟨i, y⟩ := x
  cases y with
  | none => exact ⟨.refl s, fun j => (if_neg (by simp [cleared])).symm⟩
  | some e =>
    simp only [clearEntry]
    split
    · rename_i hkept
      exact ⟨.refl s, fun j => (if_neg (by simp_all [cleared])).symm⟩
    · rename_i hgone
      have hcleared : cleared statics (i, some e) = true := by cases hs : e.static <;> simp_all [cleared]
      obtain ⟨hgo, hident⟩ := entriesGo_entRemove s p ep i e
      exact ⟨hgo, fun j => by simp only [hident, hcleared, and_true]⟩

theorem foldl_clearEntry_spec (p : Nat) (ep statics : Bool) (l : Tab (Option GEnt)) (s : State) :
    EntriesGo p s (l.foldl (clearEntry p ep statics) s) ∧ ∀ j, entIdent (l.foldl (clearEntry p ep statics) s) p ep j =
      if ∃ x ∈ l, x.1 = j ∧ cleared statics x = true then none else entIdent s p ep j := by
  induction l generalizing s with
  | nil => exact ⟨.refl s, fun j => by simp⟩
  | cons x l ih =>
    obtain ⟨hgo, hident⟩ := clearEntry_spec s p ep statics x
    obtain ⟨hgoes, hidents⟩ := ih (clearEntry p ep statics s x)
    refine ⟨hgo.trans hgoes, fun j => ?_⟩
    rw [List.foldl_cons, hidents, hident]
    simp only [List.mem_cons, exists_eq_or_imp]
    by_cases hx : x.1 = j ∧ cleared statics x = true
    · rw [if_pos hx, if_pos (Or.inl hx), ite_self]
    · rw [if_neg hx]
      exact if_congr (or_iff_right hx).symm rfl rfl

theorem mem_of_tget {α : Type} {d y : α} {m : Tab α} (h : tget d m k = y) (hd : y ≠ d) : (k, y) ∈ m := by
  induction m with
  | nil => exact absurd h.symm hd
  | cons x m ih =>
    obtain ⟨j, z⟩ := x
    rw [tget] at h
    split at h
    · subst_vars
      exact List.mem_cons_self
    · exact List.mem_cons_of_mem _ (ih h)

/-- In a table that lists no key twice every listed value is the one that is read. -/
theorem tget_of_mem {α : Type} {d y : α} {m : Tab α} (hm : (m.map fun x => x.1).Nodup) (h : (k, y) ∈ m) : tget d m k = y := by
  induction m with
  | nil => cases h
  | cons x m ih =>
    obtain ⟨j, z⟩ := x
    obtain ⟨hj, hm⟩ := List.nodup_cons.mp hm
    rw [tget]
    rcases List.mem_cons.mp h with heq | h
    · cases heq
      exact if_pos rfl
    · rw [if_neg, ih hm h]
      rintro rfl
      exact hj (List.mem_map.mpr ⟨_, h, rfl⟩)

theorem entIdent_eq_none : entIdent s p ep i = none ↔ entGet s p ep i = none := Option.map_eq_none_iff

/-- What a clear removes is gone. -/
theorem entGet_tableClear_cleared (h : ∀ e, entGet s p ep i = some e → statics = true ∨ e.static = false) :
    entGet (tableClear s p ep statics) p ep i = none := by
  rw [← entIdent_eq_none, tableClear_eq, (foldl_clearEntry_spec _ _ _ _ _).2]
  cases he : entGet s p ep i with
  | none => rw [entIdent_eq_none.mpr he, ite_self]
  | some e =>
    refine if_pos ⟨(i, some e), mem_of_tget he nofun, rfl, ?_⟩
    rcases h e he with h | h <;> simp [cleared, h]

/-- A STATIC entry stays where a clear spares it. -/
theorem entGet_tableClear_static (hd : ((tableOf s p ep).map fun x => x.1).Nodup) (he : entGet s p ep i = some e) (hs : e.static = true) :
    ∃ e', entGet (tableClear s p ep false) p ep i = some e' ∧ e'.uid = e.uid ∧ e'.key = e.key ∧ e'.static = true := by
  have hident : entIdent (tableClear s p ep false) p ep i = some (e.uid, e.key, e.static) := by
    rw [tableClear_eq, (foldl_clearEntry_spec _ _ _ _ _).2, if_neg, entIdent, he]
    · rfl
    · rintro ⟨⟨j, y⟩, hmem, rfl, hcleared⟩
      obtain rfl : some e = y := he.symm.trans (tget_of_mem hd hmem)
      simp [cleared, hs] at hcleared
  obtain ⟨e', he', heq⟩ := Option.map_eq_some_iff.mp hident
  obtain ⟨huid, hkey, hstatic⟩ : e'.uid = e.uid ∧ e'.key = e.key ∧ e'.static = e.static := by simpa using heq
  exact ⟨e', he', huid, hkey, hstatic.trans hs⟩

/-! ### FLUSH -/

theorem grnCommand_flush {ks : Nat} {par : List ParHit} (h : grnOn s p ep = true) :
    grnCommand s p 6 ep ks statics par = grnStatus (tableClear s p ep statics) p 0 0 := by simp [grnCommand, h]

/-! ### A table's configuration (R84) -/

theorem testBit_bits (v hi lo i : Nat) : (bits v hi lo).testBit i = (decide (i < hi + 1 - lo) && v.testBit (lo + i)) := by
  rw [bits, Nat.testBit_mod_two_pow, Nat.testBit_shiftRight]

theorem bits_congr (h : ∀ k, lo ≤ k → k ≤ hi → v.testBit k = w.testBit k) : bits v hi lo = bits w hi lo := by
  refine Nat.eq_of_testBit_eq fun i => ?_
  rw [testBit_bits, testBit_bits]
  by_cases hi' : i < hi + 1 - lo
  · rw [h (lo + i) (by omega) (by omega)]
  · simp [hi']

/-- The bits of a table's configuration that a write can change. -/
def cfgMask (ep : Bool) : Nat := if ep then 0xE03F001F else 0xE73F001F

/-- What a write of `w` over `old` stores while the table is on: WAY_LOG2 and FS_STRIDE stay. -/
def cfgKept (old w : Nat) : Nat := putBits (putBits w 4 0 (bits old 4 0)) 26 24 (bits old 26 24)

theorem testBit_cfgKept (old w k : Nat) : (cfgKept old w).testBit k = if k ≤ 4 ∨ (24 ≤ k ∧ k ≤ 26) then old.testBit k else w.testBit k := by
  rw [cfgKept, testBit_putBits (by omega), testBit_putBits (by omega), testBit_bits, testBit_bits]
  by_cases hway : k ≤ 4
  · simp [hway, show ¬ 24 ≤ k by omega, show k < 5 by omega]
  · by_cases hfs : 24 ≤ k ∧ k ≤ 26
    · simp [hfs, show k - 24 < 3 by omega]
    · simp [hway, hfs]

theorem testBit_and_cfgMask (v : Nat) (ep : Bool) (hk : k = 31 ∨ k = 30) : (v &&& cfgMask ep).testBit k = v.testBit k := by
  have hmask : (cfgMask ep).testBit k = true := by rcases hk with rfl | rfl <;> cases ep <;> decide
  rw [Nat.testBit_and, hmask, Bool.and_true]

theorem cfgMask_lt (v : Nat) (ep : Bool) : v &&& cfgMask ep < 2 ^ 32 := Nat.and_lt_two_pow v (by cases ep <;> decide)

/-- A register that holds what `cfgKept` gives: its fields. -/
theorem cfgKept_fields (old v : Nat) (ep : Bool) : let x := cfgKept old (v &&& cfgMask ep) % 2 ^ 32
    bits x 4 0 = bits old 4 0 ∧ bits x 26 24 = bits old 26 24 ∧ bit x 31 = bit v 31 ∧ bit x 30 = bit v 30 := by
  have hbit : ∀ k < 32, (cfgKept old (v &&& cfgMask ep) % 2 ^ 32).testBit k =
      if k ≤ 4 ∨ (24 ≤ k ∧ k ≤ 26) then old.testBit k else (v &&& cfgMask ep).testBit k := fun k hk => by
    rw [Nat.testBit_mod_two_pow, testBit_cfgKept, decide_eq_true hk, Bool.true_and]
  refine ⟨bits_congr fun k _ hk => ?_, bits_congr fun k hk hk' => ?_, ?_, ?_⟩
  · rw [hbit k (by omega), if_pos (by omega)]
  · rw [hbit k (by omega), if_pos (by omega)]
  · rw [bit, hbit 31 (by omega), if_neg (by omega), testBit_and_cfgMask v ep (by omega), bit]
  · rw [bit, hbit 30 (by omega), if_neg (by omega), testBit_and_cfgMask v ep (by omega), bit]

theorem grnCfgWrite_on (v : Nat) (h : bit (rg s (grnCfg p ep)) 31 = true) :
    grnCfgWrite s p ep v = rgw s (grnCfg p ep) (cfgKept (rg s (grnCfg p ep)) (v &&& cfgMask ep)) := if_pos h

/-- A write to a table that is off: where it turns the table on, the table starts. -/
theorem grnCfgWrite_off (v : Nat) (h : bit (rg s (grnCfg p ep)) 31 = false) : grnCfgWrite s p ep v =
    if bit v 31 then grnEnable (rgw s (grnCfg p ep) (v &&& cfgMask ep)) p ep else rgw s (grnCfg p ep) (v &&& cfgMask ep) := by
  have hbit : bit (v &&& cfgMask ep) 31 = bit v 31 := testBit_and_cfgMask v ep (Or.inl rfl)
  rw [← hbit]
  exact if_neg (by simp [h])

/-- A table that starts: empty, with both budgets full, and no pass. -/
theorem grnEnable_spec (s : State) (p : Nat) (ep : Bool) : EntriesGo p s (grnEnable s p ep) ∧ (∀ i, entGet (grnEnable s p ep) p ep i = none) ∧
    (shareGet (grnEnable s p ep) p).ins = insBurst (grnEnable s p ep) p ∧ (shareGet (grnEnable s p ep) p).mov = movBurst (grnEnable s p ep) p ∧
    passGet (grnEnable s p ep) p ep = none := by
  have hgo : EntriesGo p s (tableClear s p ep true) := (foldl_clearEntry_spec p ep true (tableOf s p ep) s).1
  have hempty : ∀ i, entGet (tableClear s p ep true) p ep i = none := fun i => entGet_tableClear_cleared fun _ _ => Or.inl rfl
  unfold grnEnable
  generalize tableClear s p ep true = u at hgo hempty ⊢
  refine ⟨hgo.trans ⟨fun _ _ => rfl, rfl⟩, fun i => ?_, ?_, ?_, ?_⟩
  · rw [← hempty i]
    cases ep <;> simp only [passPut, entGet, shareGet_sharePut_same, if_true, Bool.false_eq_true, if_false]
  all_goals cases ep <;> simp only [passPut, passGet, shareGet_sharePut_same, if_true, Bool.false_eq_true, if_false] <;> rfl

theorem entriesGo_grnCfgWrite (s : State) (p : Nat) (ep : Bool) (v : Nat) : ∃ y, EntriesGo p (rgw s (grnCfg p ep) y) (grnCfgWrite s p ep v) := by
  cases h : bit (rg s (grnCfg p ep)) 31 with
  | true =>
    rw [grnCfgWrite_on v h]
    exact ⟨_, .refl _⟩
  | false =>
    rw [grnCfgWrite_off v h]
    split
    · exact ⟨_, (grnEnable_spec _ p ep).1⟩
    · exact ⟨_, .refl _⟩

theorem epochMoved_of_entriesGo {x y : Nat} (h : EntriesGo p (rgw s x y) t) (hx : x ≠ rGLB_EPOCH) : epochMoved s (epochAdvance t 3) 3 := by
  obtain ⟨hregs, hframe⟩ := h
  have hne : rGLB_EPOCH ∉ [rVD_STOOD p] := by
    rw [List.mem_singleton]
    simp only [vdA, glbA]
    omega
  refine epochMoved_of_stays ((hregs _ hne).trans (rg_rgw_other _ _ hx)) ?_ ?_ ?_ <;> rw [hframe] <;> rfl

theorem grnCfg_ne (p q : Nat) (ep : Bool) : grnCfg p ep ≠ rGLB_EPOCH ∧ grnCfg p ep ≠ rVD_STOOD q := by
  unfold grnCfg
  split <;> constructor <;> simp only [grnA, glbA, vdA] <;> omega

/-- A write to a table that is off stores every bit that it can. -/
theorem grnCfgWrite_stores (v : Nat) (h : bit (rg s (grnCfg p ep)) 31 = false) : rg (grnCfgWrite s p ep v) (grnCfg p ep) = v &&& cfgMask ep := by
  have hne : grnCfg p ep ∉ [rVD_STOOD p] := by
    rw [List.mem_singleton]
    exact (grnCfg_ne p p ep).2
  have hstored : rg (rgw s (grnCfg p ep) (v &&& cfgMask ep)) (grnCfg p ep) = v &&& cfgMask ep := by
    rw [rg_rgw_same, Nat.mod_eq_of_lt (cfgMask_lt v ep)]
  rw [grnCfgWrite_off v h]
  split
  · exact ((grnEnable_spec _ p ep).1.regs _ hne).trans hstored
  · exact hstored

theorem bursts_epochAdvance (s : State) (cause p : Nat) :
    insBurst (epochAdvance s cause) p = insBurst s p ∧ movBurst (epochAdvance s cause) p = movBurst s p := by
  have hins : rGRN_INSERT p ≠ rGLB_EPOCH := by simp only [grnA, glbA]; omega
  have hmov : rGRN_MOVE p ≠ rGLB_EPOCH := by simp only [grnA, glbA]; omega
  simp only [insBurst, movBurst, rgf, rg_epochAdvance_other _ _ hins, rg_epochAdvance_other _ _ hmov, and_self]

/-- Settles O17: a clear removes the entries it must and leaves the others (`foldl_clearEntry_spec`), and the fields that a write stores are those of
`cfgKept` while the table is on. -/
theorem granaryTables : Obligations.GranaryTables := by
  constructor
  · intro s p ep statics hon
    refine ⟨_, congrArg Host.Outcome.next (grnCommand_flush hon), grnStatus_result _ p (Or.inl rfl), fun i e he h => ?_, fun hd i e he hn hs => ?_⟩
    · rw [entGet_grnStatus]
      exact entGet_tableClear_cleared fun e' he' => Option.some.inj (he.symm.trans he') ▸ h
    · subst hn
      rw [entGet_grnStatus]
      exact entGet_tableClear_static hd he hs
  · intro s p v ep a w
    obtain ⟨hepoch, -⟩ := grnCfg_ne p p ep
    have hread : rg (epochAdvance (grnCfgWrite s p ep v) 3) a = rg (grnCfgWrite s p ep v) a := rg_epochAdvance_other _ _ hepoch
    have hshares := epochAdvance_shares (grnCfgWrite s p ep v) 3
    obtain ⟨y, hgo⟩ := entriesGo_grnCfgWrite s p ep v
    refine ⟨_, rfl, epochMoved_of_entriesGo hgo hepoch, fun hon => ?_, fun hoff => hread.trans (grnCfgWrite_stores v hoff), fun hoff hv => ?_⟩
    · obtain ⟨hway, hstride, hen, hevict⟩ := cfgKept_fields (rg s a) v ep
      rw [hread, hshares, grnCfgWrite_on v hon, rg_rgw_same]
      exact ⟨hway, hstride, hen, hevict, rgw_shares _ _ _⟩
    · obtain ⟨hins, hmov⟩ := bursts_epochAdvance (grnCfgWrite s p ep v) 3 p
      rw [hins, hmov, entGet_congr hshares, shareGet_congr hshares, passGet, shareGet_congr hshares, ← passGet, grnCfgWrite_off v hoff, if_pos hv]
      exact (grnEnable_spec _ p ep).2

end Sys2Proof.Machine
end

section
/-! PROOFS. A probe of the Granary (O13). An expired hit is counted once: all else that its deletion does, the EOF that it may fire included, leaves that
count. One lemma for each function of the model that the EOF of an entry, which has no frame, can reach, named after it as in the proofs of O60. -/

namespace Sys2Proof.Machine

open Sys2Proof

-- One declaration after the other: the whole text is checked within a fixed memory.
set_option Elab.async false

variable {a s t : State} {p q i : Nat} {ep : Bool} {key : Bytes} {par : List ParHit} {e : GEnt}

/-! ### What leaves the count of expired hits -/

/-- From `s` to `t` the share has counted no expired hit. -/
def LateStays (p : Nat) (s t : State) : Prop := rg t (rGRN_LATE_EXPIRE p) = rg s (rGRN_LATE_EXPIRE p)

theorem LateStays.refl (s : State) : LateStays p s s := rfl

theorem LateStays.trans (h : LateStays p a s) (g : LateStays p s t) : LateStays p a t := Eq.trans g h

/-- A change of anything but registers. -/
theorem LateStays.apart (h : LateStays p a s) (hr : t.regs = s.regs) : LateStays p a t := (rg_congr hr _).trans h

/-- A record update of anything but registers. -/
theorem LateStays.upd {pe fc gt rp me xb fr rq ob si frs pi su st ar we sh ui vd tm jr jo pl ti cx kn la fa si2 fl sp se sl ba ca pw bk ge mb bo wv fs smp
    li hp lp ti2 ea ec} (h : LateStays p a s) : LateStays p a ⟨pe, fc, gt, rp, s.regs, me, xb, fr, rq, ob, si, frs, pi, su, st, ar, we, sh, ui, vd, tm,
      jr, jo, pl, ti, cx, kn, la, fa, si2, fl, sp, se, sl, ba, ca, pw, bk, ge, mb, bo, wv, fs, smp, li, hp, lp, ti2, ea, ec⟩ := h.apart rfl

theorem LateStays.ite {c : Prop} [Decidable c] (hs : LateStays p a s) (ht : LateStays p a t) : LateStays p a (if c then s else t) := by
  split <;> assumption

theorem LateStays.foldl {γ : Type} {f : State → γ → State} {l : List γ} (h : LateStays p a s) (hf : ∀ x y, LateStays p a x → LateStays p a (f x y)) :
    LateStays p a (l.foldl f s) := List.foldlRecOn _ _ h fun x hx y _ => hf x y hx

theorem LateStays.snd {β : Type} {r : β × State} {b : β} (e : r = (b, t)) (h : LateStays p a r.2) : LateStays p a t := by rwa [e] at h

/-- Another register is written. -/
theorem LateStays.rgw {x v : Nat} (h : LateStays p a s)
    (hx : x ≠ rGRN_LATE_EXPIRE p := by simp only [grnA, pipeA, bindA, vdA, tilA, btA, rqA, plA, plLinkA, fltA, glbA, lpA]; omega) :
    LateStays p a (rgw s x v) := (rg_rgw_other _ _ hx).trans h

theorem LateStays.bump {x : Nat} (h : LateStays p a s)
    (hx : x ≠ rGRN_LATE_EXPIRE p := by simp only [grnA, pipeA, bindA, vdA, tilA, btA, rqA, plA, plLinkA, fltA, glbA, lpA]; omega) :
    LateStays p a (bump s x) := h.rgw hx

theorem LateStays.bumpDiv {x n d : Nat} (h : LateStays p a s)
    (hx : x ≠ rGRN_LATE_EXPIRE p := by simp only [grnA, plLinkA]; omega) : LateStays p a (bumpDiv s x n d) := LateStays.rgw h.upd hx

theorem LateStays.cinc {k n : Nat} (h : LateStays p a s) : LateStays p a (cinc s k n) := h.upd

/-! ### Records, faults, banks -/

theorem LateStays.rqRefuse {q : Nat} (h : LateStays p a s) : LateStays p a (rqRefuse s q) := by
  unfold Machine.rqRefuse rqPut
  exact h.upd.bump

theorem LateStays.stage {writer queue prio type : Nat} {body : Bytes} (h : LateStays p a s) : LateStays p a (stage s writer queue prio type body) :=
  .ite h.rqRefuse.bump h.upd

theorem LateStays.epochAdvance {cause : Nat} (h : LateStays p a s) : LateStays p a (epochAdvance s cause) := .ite h.upd h.upd.rgw

theorem LateStays.latchError {unit cls addr level : Nat} (h : LateStays p a s) : LateStays p a (latchError s unit cls addr level) := h.upd

theorem LateStays.faultDetect {cls unit part addr action level : Nat} {masked dbl : Bool} (h : LateStays p a s) :
    LateStays p a (faultDetect s cls unit part addr action level masked dbl) :=
  (LateStays.ite h.latchError.bump h.latchError.bump.rgw).upd.stage

theorem LateStays.faultEnd {cls unit cap : Nat} (h : LateStays p a s) : LateStays p a (faultEnd s cls unit cap) := by
  unfold Machine.faultEnd
  split
  exacts [h, .ite h.upd.upd h.upd.stage.upd]

theorem LateStays.faultInstant {cls unit part addr action level : Nat} {masked dbl : Bool} (h : LateStays p a s) :
    LateStays p a (faultInstant s cls unit part addr action level masked dbl) := h.faultDetect.faultEnd

theorem LateStays.blkPut {b : Nat} {v : FBlock} (h : LateStays p a s) : LateStays p a (blkPut s b v) := h.upd

theorem LateStays.blkErased {b : Nat} (h : LateStays p a s) : LateStays p a (blkErased s b) := h.upd.upd.blkPut

theorem LateStays.fUnitWrite {u : FUnit} {body : Bytes} (h : LateStays p a s) : LateStays p a (fUnitWrite s u body) :=
  (LateStays.ite h.blkErased h).upd.blkPut

theorem LateStays.fUnitPlace {kind idx copy seq : Nat} {body : Bytes} (h : LateStays p a s) : LateStays p a (fUnitPlace s kind idx copy seq body).1 :=
  h.fUnitWrite.upd.foldl fun _ _ h => h.blkPut

theorem LateStays.checkpoint (h : LateStays p a s) : LateStays p a (checkpoint s) := (h.fUnitPlace.fUnitPlace.foldl fun _ _ h => h.blkPut).upd

theorem LateStays.batchWrite {es : List Bytes} (h : LateStays p a s) : LateStays p a (batchWrite s es) :=
  .ite h (.ite h.fUnitWrite.upd.checkpoint h.fUnitWrite.upd)

theorem LateStays.flsUpdate {n : Nat} {body : Bytes} (h : LateStays p a s) : LateStays p a (flsUpdate s n body) :=
  .ite h.fUnitPlace.batchWrite (h.foldl fun _ _ h => h.fUnitPlace.batchWrite)

theorem LateStays.repairSet {i v : Nat} (h : LateStays p a s) : LateStays p a (repairSet s i v) := h.upd

theorem LateStays.repairCommit (h : LateStays p a s) : LateStays p a (repairCommit s) := .ite h.flsUpdate h

theorem LateStays.groupPut {g : Nat} {v : Machine.Group} (h : LateStays p a s) : LateStays p a (groupPut s g v) := h.upd

theorem LateStays.bankRecord {event n off : Nat} (h : LateStays p a s) : LateStays p a (bankRecord s event n off) := h.stage

theorem LateStays.cellsLeave {n : Nat} (h : LateStays p a s) : LateStays p a (cellsLeave s n) := .ite h h.upd

theorem LateStays.bankRetire {n cls addr : Nat} {masked : Bool} (h : LateStays p a s) : LateStays p a (bankRetire s n cls addr masked) := by
  unfold Machine.bankRetire
  extract_lets
  refine .ite h ?_
  split
  exacts [h.groupPut.faultDetect, h.groupPut.repairSet.repairCommit.epochAdvance.faultInstant.cellsLeave.bankRecord]

theorem LateStays.bankUe {n x : Nat} (h : LateStays p a s) : LateStays p a (bankUe s n x) :=
  .ite h.bump.bankRecord.faultInstant h.bump.bankRecord.faultInstant.bankRetire

theorem LateStays.tierMiss {x : Nat} (h : LateStays p a s) : LateStays p a (tierMiss s x) := .ite h.bankUe h

/-! ### A trigger without a frame -/

theorem LateStays.generalW {q y : Nat} {b : Bytes} (h : LateStays p a s) : LateStays p a (generalW s q y b) :=
  h.apart (IntakeStays.refl s).generalW.regs

theorem LateStays.vdPut {q : Nat} {v : Vd} (h : LateStays p a s) : LateStays p a (vdPut s q v) := h.upd

/-- The verdict of a trigger that has neither a flow nor a frame is recorded and counted. -/
theorem LateStays.formVerdict {q entry dcls : Nat} {x : Verdict} (h : LateStays p a s) : LateStays p a (formVerdict s q none entry x dcls none) := by
  unfold Machine.formVerdict
  extract_lets _ _ s1 slot _
  split
  rename_i _ s2 e
  obtain rfl : s = s2 := congrArg Prod.snd e
  split
  rename_i _ _ s3 e
  obtain rfl : s = s3 := congrArg (fun r => r.2.2) e
  extract_lets _ _ _ s4 s5 s6 s7
  have h4 : LateStays p a s4 := .ite h.stage h
  have h6 : LateStays p a s6 := .ite h4.bump.cinc.bump.cinc h4.bump.cinc
  have h7 : LateStays p a s7 := .ite h6.bump h6
  exact .ite h7.bump h7

/-- A trigger of an entry that is gone, and of no frame, is refused. -/
theorem LateStays.refuseFired {r : Fired} {dcls ctx : Nat} {smp : Bool} (h : LateStays p a s) (hu : r.uid = none) (hf : r.frame = none) :
    LateStays p a (refuseFired s r dcls ctx smp) := by
  unfold Machine.refuseFired
  rw [hu, hf]
  exact h.formVerdict

theorem LateStays.enqueueReq {q slot ctx : Nat} (h : LateStays p a s) : LateStays p a (enqueueReq s q slot ctx) := by
  have hrefused : LateStays p a (refuse (Machine.cinc (Machine.bump s (rTIL_REQ_Q_FULL (tileSite s (ctx / 1024)))) (cTile (ctx / 1024) 10) 1) q slot ctx) :=
    h.bump.cinc.vdPut
  exact .ite hrefused h.upd

theorem LateStays.sendLocal {r : Fired} {ctx : Nat} {smp : Bool} (h : LateStays p a s) (hu : r.uid = none) (hf : r.frame = none) :
    LateStays p a (sendLocal s r ctx smp) := by
  unfold Machine.sendLocal
  rw [hf]
  split
  · exact h.bump.refuseFired hu hf
  · have hjournal : ∀ i v, LateStays p a (jNew s r.p i v) := fun i v => LateStays.generalW h.upd
    exact (hjournal _ _).cinc.enqueueReq

theorem LateStays.sendFlit {l i : Nat} {m : Msg} (h : LateStays p a s) : LateStays p a (sendFlit s l m i) := by
  have hput : ∀ v, LateStays p a (linkPut s l v) := fun v => h.upd
  exact (hput _).bumpDiv.cinc

theorem LateStays.linkPump {l n : Nat} (h : LateStays p a s) : LateStays p a (linkPump l n s) := by
  induction n generalizing s with
  | zero => exact h
  | succ n ih =>
    unfold Machine.linkPump
    extract_lets
    split
    exacts [h, ih h.sendFlit]

theorem LateStays.plSend {kind dst dpart : Nat} {b : Bytes} (h : LateStays p a s) : LateStays p a (plSend s kind dst dpart b).2 := by
  unfold Machine.plSend
  extract_lets
  split
  · exact h.upd.bump
  · exact LateStays.linkPump h.upd.upd

theorem LateStays.sendForward {r : Fired} {ctx dev dpart : Nat} {smp : Bool} (h : LateStays p a s) (hu : r.uid = none) (hf : r.frame = none) :
    LateStays p a (sendForward s r ctx dev dpart smp) := by
  unfold Machine.sendForward
  rw [hf]
  split
  · exact h.bump.refuseFired hu hf
  · extract_lets
    split
    rename_i _ t e
    have hsent : LateStays p a t := LateStays.snd e (LateStays.plSend h.upd)
    have hcounted : LateStays p a (Machine.cinc (Machine.cinc (Machine.bump t rPL_FWD_REQ) (cPart r.q 20) 1) (cPart r.q 4) 1) := hsent.bump.cinc.cinc
    split
    exacts [.ite hcounted.vdPut hcounted, hcounted]

theorem LateStays.fire {r : Fired} (h : LateStays p a s) (hu : r.uid = none) (hf : r.frame = none) : LateStays p a (fire s r) := by
  unfold Machine.fire
  rw [hf]
  extract_lets
  split
  · exact h.cinc.bump.refuseFired hu hf
  · extract_lets _ _ _ fwd
    have hsampled : ∀ v c, LateStays p a (sampPut (Machine.cinc s (cPart r.q 3) 1) r.q c v) := fun v c => h.cinc.vdPut
    refine .ite ?_ ?_
    · exact (hsampled _ _).bump.cinc
    · clear_value fwd
      split
      · exact (hsampled _ _).sendLocal hu hf
      · exact .ite ((hsampled _ _).sendForward hu hf) (hsampled _ _)

/-! ### An expired hit is deleted -/

/-- The EOF of an entry has no frame. -/
theorem LateStays.entEof (h : LateStays p a s) : LateStays p a (entEof s q p i e) := by
  unfold Machine.entEof
  split
  refine .ite ?_ h
  split
  exacts [h.tierMiss, h.fire rfl rfl]

theorem LateStays.entRemove (h : LateStays p a s) : LateStays p a (entRemove s p ep i e) := by
  have hne : rGRN_LATE_EXPIRE p ∉ [rVD_STOOD p] := by
    rw [List.mem_singleton]
    simp only [grnA, vdA]
    omega
  exact h.trans ((entriesGo_entRemove s p ep i e).1.regs _ hne)

section
variable (hon : grnOn s p ep = true) {u : State}
include hon

theorem execProbe_missed (hf : probeWays s p ep key par = (none, u)) : execProbe p ep key par s = .next u := by simp [execProbe, hon, lookup, hf]

theorem execProbe_fresh (hf : probeWays s p ep key par = (some i, u)) (he : entGet u p ep i = some e) (hx : entExpired u p ep e = false) :
    execProbe p ep key par s = .next u := by simp [execProbe, hon, lookup, hf, he, hx]

theorem execProbe_expired (hf : probeWays s p ep key par = (some i, u)) (he : entGet u p ep i = some e) (hx : entExpired u p ep e = true) :
    execProbe p ep key par s =
      .next (Machine.bump (Machine.entRemove (if ep then u else Machine.entEof u (procPart s p) p i e) p ep i e) (rGRN_LATE_EXPIRE p)) := by
  simp [execProbe, hon, lookup, hf, he, hx]

end

theorem probeWays_clean (h : ∀ i e, entGet s p ep i = some e → e.par = 0) : (probeWays s p ep key []).2 = s := by
  unfold probeWays
  extract_lets w k b u
  have hu : u = s := parityCheck_clean h _
  split
  · exact hu
  · exact (congrArg (fun v => parityCheck v p ep [] _) hu).trans (parityCheck_clean h _)

/-- Settles O13: the lookup misses, hits, or deletes what it hit; what the deletion does beside counting leaves the count (`LateStays`). -/
theorem granaryLookup : Obligations.GranaryLookup := by
  intro s p ep key par found u
  refine ⟨fun hoff => ⟨s, if_neg (by simp [hoff]), rfl⟩, fun hon hf => ⟨u, execProbe_missed hon (Prod.ext hf rfl), rfl⟩, fun i e hon hf he => ?_,
    fun hpar hclean => ?_⟩
  · have hprobe : probeWays s p ep key par = (some i, u) := Prod.ext hf rfl
    refine ⟨fun hx => ⟨u, execProbe_fresh hon hprobe he hx, rfl⟩, fun hx => ⟨_, execProbe_expired hon hprobe he hx, ?_, ?_⟩⟩
    · rw [entGet_congr (bump_shares _ _)]
      exact entGet_entRemove_same _ _ _ _ _
    · have hstays : LateStays p u (entRemove (if ep then u else entEof u (procPart s p) p i e) p ep i e) :=
        LateStays.entRemove (.ite (.refl u) (LateStays.refl u).entEof)
      rw [counted, rg_bump_same, hstays]
  · subst hpar
    exact probeWays_clean hclean

end Sys2Proof.Machine
end

section
/-! PROOFS. What a teardown, the report of a fault and the release of a context leave as it was (for O24 to O28): `Quiet`, one lemma for each function of
the model that they can reach, named after it as in the proofs of O60; and what a teardown and a fault make of the context. -/

namespace Sys2Proof.Machine

open Sys2Proof

-- One declaration after the other: the whole text is checked within a fixed memory.
set_option Elab.async false

/-! ### What a teardown and the report of a fault leave -/

/-- From `s` to `t` device memory, Global Time, knots, contexts and the partitions' energy have stayed, and so have the registers of the tiles but for
their TIL_REFUSED and the counts of issued commands; no scoreboard entry has been taken. With `d`, tiles and model slots have stayed too. -/
structure Quiet (d : Bool) (s t : State) : Prop where
  mem : t.mem = s.mem
  gt : t.gt = s.gt
  knots : t.knots = s.knots
  ctxs : t.ctxs = s.ctxs
  parts : t.pwr.parts = s.pwr.parts
  tileRegs : ∀ n o, o < 0x1000 → o ≠ 0x44 → rg t (tilA n o) = rg s (tilA n o)
  issues : ∀ l < 20, tget 0 t.obs.cnt (cTile l 7) = tget 0 s.obs.cnt (cTile l 7)
  free : ∀ l i, tget none (tileGet s l).sb i = none → tget none (tileGet t l).sb i = none
  tiles : d = true → t.tiles = s.tiles
  slots : d = true → t.slots = s.slots

variable {d : Bool} {a s t : State}

theorem Quiet.refl (s : State) : Quiet d s s :=
  ⟨rfl, rfl, rfl, rfl, rfl, fun _ _ _ _ => rfl, fun _ _ => rfl, fun _ _ => id, fun _ => rfl, fun _ => rfl⟩

/-- A change of any part of the state: what it owes for each part that `Quiet` speaks of and that may change; a part that is not named has stayed. -/
theorem Quiet.change (h : Quiet d a s)
    (hr : ∀ n o, o < 0x1000 → o ≠ 0x44 → rg t (tilA n o) = rg s (tilA n o) := by exact fun _ _ _ _ => rfl)
    (hi : ∀ l < 20, tget 0 t.obs.cnt (cTile l 7) = tget 0 s.obs.cnt (cTile l 7) := by exact fun _ _ => rfl)
    (hf : ∀ l i, tget none (tileGet s l).sb i = none → tget none (tileGet t l).sb i = none := by exact fun _ _ => id)
    (ht : d = true → t.tiles = s.tiles := by exact fun _ => rfl) (hl : d = true → t.slots = s.slots := by exact fun _ => rfl)
    (hm : t.mem = s.mem := by rfl) (hg : t.gt = s.gt := by rfl) (hk : t.knots = s.knots := by rfl) (hc : t.ctxs = s.ctxs := by rfl)
    (hp : t.pwr.parts = s.pwr.parts := by rfl) : Quiet d a t where
  mem := hm.trans h.mem
  gt := hg.trans h.gt
  knots := hk.trans h.knots
  ctxs := hc.trans h.ctxs
  parts := hp.trans h.parts
  tileRegs n o l k := (hr n o l k).trans (h.tileRegs n o l k)
  issues l k := (hi l k).trans (h.issues l k)
  free l i e := hf l i (h.free l i e)
  tiles e := (ht e).trans (h.tiles e)
  slots e := (hl e).trans (h.slots e)

/-- A record update of parts that `Quiet` does not speak of. -/
theorem Quiet.upd {pe fc rp xb fr rq si frs pi su st ar we sh ui vd tm jr jo pl la fa si2 fl sp se ba ca bk ge mb bo wv fs smp li hp lp ti2 ea ec}
    (h : Quiet d a s) : Quiet d a ⟨pe, fc, s.gt, rp, s.regs, s.mem, xb, fr, rq, s.obs, si, frs, pi, su, st, ar, we, sh, ui, vd, tm, jr, jo, pl, s.tiles,
      s.ctxs, s.knots, la, fa, si2, fl, sp, se, s.slots, ba, ca, s.pwr, bk, ge, mb, bo, wv, fs, smp, li, hp, lp, ti2, ea, ec⟩ := h.change

theorem Quiet.trans {u : State} (h : Quiet d s t) (g : Quiet d t u) : Quiet d s u :=
  h.change g.tileRegs g.issues g.free g.tiles g.slots g.mem g.gt g.knots g.ctxs g.parts

theorem Quiet.ite {c : Prop} [Decidable c] (hs : Quiet d a s) (ht : Quiet d a t) : Quiet d a (if c then s else t) := by
  split <;> assumption

theorem Quiet.foldl {γ : Type} {f : State → γ → State} {l : List γ} (h : Quiet d a s) (hf : ∀ x y, Quiet d a x → Quiet d a (f x y)) :
    Quiet d a (l.foldl f s) := List.foldlRecOn _ _ h fun x hx y _ => hf x y hx

/-! ### Registers, counters, records -/

/-- The registers of the tile sites lie above the others that these operations write. -/
theorem Quiet.rgw {x v : Nat} (h : Quiet d a s) (hx : x < 0x20000000 := by decide) : Quiet d a (rgw s x v) :=
  h.change (hr := fun n o _ _ => rg_rgw_other s v (by simp only [tilA]; omega))

theorem Quiet.bump {x : Nat} (h : Quiet d a s) (hx : x < 0x20000000 := by decide) : Quiet d a (bump s x) := h.rgw hx

theorem Quiet.rgwb {x i : Nat} {v : Bool} (h : Quiet d a s) (hx : x < 0x20000000 := by decide) : Quiet d a (rgwb s x i v) := h.rgw hx

theorem Quiet.bumpOther {x : Nat} (h : Quiet d a s) (hx : ∀ n o, o < 0x1000 → o ≠ 0x44 → x ≠ tilA n o) : Quiet d a (Machine.bump s x) :=
  h.change (hr := fun n o hl hne => rg_bump_other s (hx n o hl hne))

theorem Quiet.bumpRefused {n : Nat} (h : Quiet d a s) : Quiet d a (Machine.bump s (rTIL_REFUSED n)) :=
  h.bumpOther fun m o hl hne => by simp only [tilA]; omega

theorem Quiet.cinc {i n : Nat} (h : Quiet d a s) (hi : ∀ l < 20, i ≠ cTile l 7 := by intro l hl; simp only [cTile, cChan]; omega) :
    Quiet d a (cinc s i n) :=
  h.change (hi := fun l hl => by rw [cnt_cinc, if_neg (hi l hl)])

theorem Quiet.epochAdvance {cause : Nat} (h : Quiet d a s) : Quiet d a (epochAdvance s cause) := .ite h.upd h.upd.rgw

theorem Quiet.rqRefuse {q : Nat} (h : Quiet d a s) : Quiet d a (rqRefuse s q) := h.upd.bump

theorem Quiet.stage {writer queue prio type : Nat} {body : Bytes} (h : Quiet d a s) : Quiet d a (stage s writer queue prio type body) :=
  .ite h.rqRefuse.bump h.upd

/-! ### Faults -/

theorem Quiet.faultDetect {cls unit part addr action level : Nat} {masked dbl : Bool} (h : Quiet d a s) :
    Quiet d a (faultDetect s cls unit part addr action level masked dbl) := (Quiet.ite h.upd.bump h.upd.bump.rgwb).upd.stage

theorem Quiet.faultEnd {cls unit cap : Nat} (h : Quiet d a s) : Quiet d a (faultEnd s cls unit cap) := by
  unfold Machine.faultEnd
  split
  exacts [h, .ite h.upd.upd h.upd.stage.upd]

theorem Quiet.faultInstant {cls unit part addr action level : Nat} {masked dbl : Bool} (h : Quiet d a s) :
    Quiet d a (faultInstant s cls unit part addr action level masked dbl) := h.faultDetect.faultEnd

theorem Quiet.lpUe {x : Nat} (h : Quiet d a s) : Quiet d a (lpUe s x) := h.bump.cinc.upd

theorem Quiet.faultUe {cls unit part addr : Nat} (h : Quiet d a s) : Quiet d a (faultUe s cls unit part addr) := (Quiet.ite h.lpUe h).faultInstant

theorem Quiet.waitDone {c : Nat} (h : Quiet d a s) : Quiet d a (waitDone s c) := h.upd.foldl fun _ _ h => .ite h h.faultEnd

/-! ### The retirement of a bank -/

theorem Quiet.blkPut {b : Nat} {v : FBlock} (h : Quiet d a s) : Quiet d a (blkPut s b v) := h.upd

theorem Quiet.blkErased {b : Nat} (h : Quiet d a s) : Quiet d a (blkErased s b) := h.upd.upd.blkPut

theorem Quiet.fUnitWrite {u : FUnit} {body : Bytes} (h : Quiet d a s) : Quiet d a (fUnitWrite s u body) := (Quiet.ite h.blkErased h).upd.blkPut

theorem Quiet.fUnitPlace {kind idx copy seq : Nat} {body : Bytes} (h : Quiet d a s) : Quiet d a (fUnitPlace s kind idx copy seq body).1 :=
  h.fUnitWrite.upd.foldl fun _ _ h => h.blkPut

theorem Quiet.checkpoint (h : Quiet d a s) : Quiet d a (checkpoint s) := (h.fUnitPlace.fUnitPlace.foldl fun _ _ h => h.blkPut).upd

theorem Quiet.batchWrite {es : List Bytes} (h : Quiet d a s) : Quiet d a (batchWrite s es) :=
  .ite h (.ite h.fUnitWrite.upd.checkpoint h.fUnitWrite.upd)

theorem Quiet.flsUpdate {n : Nat} {body : Bytes} (h : Quiet d a s) : Quiet d a (flsUpdate s n body) :=
  .ite h.fUnitPlace.batchWrite (h.foldl fun _ _ h => h.fUnitPlace.batchWrite)

theorem Quiet.repairCommit (h : Quiet d a s) : Quiet d a (repairCommit s) := .ite h.flsUpdate h

theorem Quiet.groupPut {g : Nat} {v : Machine.Group} (h : Quiet d a s) : Quiet d a (groupPut s g v) := h.change

theorem Quiet.bankRecord {event n off : Nat} (h : Quiet d a s) : Quiet d a (bankRecord s event n off) := h.stage

theorem Quiet.cellsLeave {n : Nat} (h : Quiet d a s) : Quiet d a (cellsLeave s n) := .ite h h.upd

theorem Quiet.bankRetire {n cls addr : Nat} {masked : Bool} (h : Quiet d a s) : Quiet d a (bankRetire s n cls addr masked) := by
  have hset : ∀ {u : State} {i v : Nat}, Quiet d a u → Quiet d a (repairSet u i v) := fun h => h.upd
  unfold Machine.bankRetire
  extract_lets
  refine .ite h ?_
  split
  exacts [h.groupPut.faultDetect, (hset h.groupPut).repairCommit.epochAdvance.faultInstant.cellsLeave.bankRecord]

theorem Quiet.tierMiss {x : Nat} (h : Quiet d a s) : Quiet d a (tierMiss s x) :=
  .ite (.ite h.bump.bankRecord.faultUe h.bump.bankRecord.faultUe.bankRetire) h

/-! ### Teardown (R101) -/

theorem Quiet.refuse {p i c : Nat} (h : Quiet d a s) : Quiet d a (refuse s p i c) := h.upd

theorem Quiet.refuseBufs {c : Nat} {bufs : Tab (Option RBuf)} (h : Quiet d a s) : Quiet d a (refuseBufs s c bufs) :=
  h.foldl fun _ _ h => h.bumpRefused.cinc.refuse

theorem Quiet.modelRecord {rq event status tag c slot gen detail : Nat} {digest : Bytes} (h : Quiet d a s) :
    Quiet d a (modelRecord s rq event status tag c slot gen detail digest) := h.stage

theorem Quiet.mslotPut {c k : Nat} {v : ModelSlot} (h : Quiet false a s) : Quiet false a (mslotPut s c k v) := h.change (hl := nofun)

theorem Quiet.sessionClose {i rq tag : Nat} (h : Quiet d a s) : Quiet d a (sessionClose s i rq tag) := by
  unfold Machine.sessionClose
  split
  exacts [h, h.upd.modelRecord]

theorem Quiet.waitFail {i status detail : Nat} (h : Quiet false a s) : Quiet false a (waitFail s i status detail) := by
  have hdone : ∀ {u : State} {op status tag : Nat}, Quiet false a u → Quiet false a (mboxDone u op status tag) := fun h => h.upd
  unfold Machine.waitFail
  split
  · exact h
  · split
    exacts [h, hdone (Quiet.ite h.upd.mslotPut h.upd).modelRecord]

theorem Quiet.sessionFail {i status detail : Nat} (h : Quiet false a s) : Quiet false a (sessionFail s i status detail) := by
  unfold Machine.sessionFail
  split
  · exact h
  · split
    exacts [h, h.waitFail.sessionClose]

theorem Quiet.slotsDown {c : Nat} (h : Quiet false a s) : Quiet false a (slotsDown s c) :=
  (h.foldl fun _ _ h => h.sessionFail).foldl fun _ _ h => .ite h.mslotPut (.ite h.refuseBufs.mslotPut h)

/-- A change of the entries that are listed takes none that is not. -/
theorem tget_map_none {α : Type} {m : Tab (Option α)} {f : Nat × Option α → Nat × Option α} (hk : ∀ e, (f e).1 = e.1) (hn : ∀ i, (f (i, none)).2 = none)
    {i : Nat} (h : tget none m i = none) : tget none (m.map f) i = none := by
  induction m with
  | nil => rfl
  | cons e m ih =>
    obtain ⟨j, v⟩ := e
    have hf : f (j, v) = (j, (f (j, v)).2) := Prod.ext (hk _) rfl
    rw [List.map_cons, hf]
    simp only [tget] at h ⊢
    split
    · rw [if_pos ‹_›] at h
      rw [h, hn]
    · rw [if_neg ‹_›] at h
      exact ih h

theorem tileGet_tilePut (s : State) (l k : Nat) (v : Tile) : tileGet (tilePut s l v) k = if l = k then v else tileGet s k := tget_tset tile0 s.tiles l k v

/-- A tile is stored with a scoreboard in which every free entry is free yet. -/
theorem Quiet.tilePut {l : Nat} {v : Tile} (h : Quiet false a s) (hv : ∀ i, tget none (tileGet s l).sb i = none → tget none v.sb i = none) :
    Quiet false a (tilePut s l v) :=
  h.change (ht := nofun) (hf := fun k i e => by
    rw [tileGet_tilePut]
    split
    · subst_vars; exact hv i e
    · exact e)

theorem Quiet.passLeave {c : Nat} (h : Quiet false a s) : Quiet false a (passLeave s c) := by
  unfold Machine.passLeave
  extract_lets l t strip gone sb u
  have hu : Quiet false a u := h.tilePut fun i hi => tget_map_none (by rintro ⟨j, _ | x⟩; exacts [rfl, by dsimp only; split <;> rfl]) (fun _ => rfl) hi
  exact .ite (hu.tilePut fun _ => id) hu

/-- A context that is torn down at a time: QUIESCING, its PLY advanced, nothing outstanding. -/
def tornCtx (x : Ctx) (gt : Nat) : Ctx :=
  { x with state := 2, ply := (x.ply + 1) % 4096, bufs := [], b := 0, n := 0, fresh := false, downAt := gt, restart := none, restoring := false, toks := [] }

theorem ctxGet_ctxPut_same (s : State) (c : Nat) (v : Ctx) : ctxGet (ctxPut s c v) c = v := tget_tset_same _ _ _ _

theorem ctxsBut_ctxPut (s : State) (c : Nat) (v : Ctx) : ctxsBut s (ctxPut s c v) c := fun _ he => tget_tset_other _ _ _ he.symm

theorem ctxGet_congr (h : t.ctxs = s.ctxs) (c : Nat) : ctxGet t c = ctxGet s c := by rw [ctxGet, h, ← ctxGet]

theorem ctxsBut_congr {u : State} {c : Nat} (h : ctxsBut t u c) (hc : t.ctxs = s.ctxs) : ctxsBut s u c := fun e he => (h e he).trans (ctxGet_congr hc e)

/-- What becomes of context `c`: it is `x`, and every other is as before; all else that has changed is what `Quiet` lets change. -/
structure CtxTurns (d : Bool) (s t : State) (c : Nat) (x : Ctx) : Prop where
  quiet : Quiet d s { t with ctxs := s.ctxs }
  ctx : ctxGet t c = x
  others : ctxsBut s t c

theorem Quiet.turns {c : Nat} {x : Ctx} (h : Quiet d s t) : CtxTurns d s (ctxPut t c x) c x :=
  ⟨⟨h.mem, h.gt, h.knots, rfl, h.parts, h.tileRegs, h.issues, h.free, h.tiles, h.slots⟩, ctxGet_ctxPut_same _ _ _,
    ctxsBut_congr (ctxsBut_ctxPut _ _ _) h.ctxs⟩

theorem CtxTurns.ctxPut {c : Nat} {x y : Ctx} (h : CtxTurns d s t c x) : CtxTurns d s (ctxPut t c y) c y :=
  ⟨h.quiet, ctxGet_ctxPut_same _ _ _, fun e he => (ctxsBut_ctxPut t c y e he).trans (h.others e he)⟩

theorem CtxTurns.andThen {u : State} {c : Nat} {x : Ctx} (h : CtxTurns d s t c x) (g : Quiet d t u) : CtxTurns d s u c x :=
  ⟨h.quiet.change g.tileRegs g.issues g.free g.tiles g.slots g.mem g.gt g.knots rfl g.parts, (ctxGet_congr g.ctxs c).trans h.ctx,
    fun e he => (ctxGet_congr g.ctxs e).trans (h.others e he)⟩

section
variable {c : Nat} {x : Ctx}

theorem CtxTurns.mem (h : CtxTurns d s t c x) : t.mem = s.mem := h.quiet.mem

theorem CtxTurns.knots (h : CtxTurns d s t c x) : t.knots = s.knots := h.quiet.knots

theorem CtxTurns.tiles (h : CtxTurns true s t c x) : t.tiles = s.tiles := h.quiet.tiles rfl

theorem CtxTurns.slots (h : CtxTurns true s t c x) : t.slots = s.slots := h.quiet.slots rfl

theorem CtxTurns.tileReg {n o : Nat} (h : CtxTurns d s t c x) (hl : o < 0x1000) (hne : o ≠ 0x44) : rg t (tilA n o) = rg s (tilA n o) :=
  h.quiet.tileRegs n o hl hne

end

theorem teardown_turns (s : State) (c : Nat) : CtxTurns false s (teardown s c) c (tornCtx (ctxGet s c) s.gt) := by
  have h : Quiet false s (passLeave (slotsDown (refuseBufs s c (ctxGet s c).bufs) c) c) := (Quiet.refl s).refuseBufs.slotsDown.passLeave
  have ht : teardown s c = ctxPut (passLeave (slotsDown (refuseBufs s c (ctxGet s c).bufs) c) c) c (tornCtx (ctxGet s c) s.gt) := by
    simp only [teardown, tornCtx, ctxGet_congr h.ctxs c, h.gt]
  rw [ht]
  exact h.turns

/-- The counts of a context's fault (R100). -/
def faultNoted (s : State) (c : Nat) : State := cinc (bump s (rTIL_CTX_FAULTS (tileSite s (c / 1024)))) (cTile (c / 1024) 17) 1

/-- The bytes that a context's fault record holds of its first fault (Table FLT-8). -/
def faultBytes (s : State) (c unit : Nat) (f : CtxFlt) : Bytes :=
  leBytes 2 ((ctxGet s c).ply % 4096) ++ leBytes 1 (tileSite s (c / 1024)) ++ leBytes 1 unit ++ leBytes 8 s.gt ++ slice f.detail 0 8

theorem ctxFault_turns {c : Nat} (unit : Nat) (f : CtxFlt) (hx : (ctxGet s c).state = 1) : CtxTurns false (faultNoted s c) (ctxFault s c unit f) c
    { tornCtx (ctxGet s c) s.gt with fault := f.code, faultInfo := faultBytes s c unit f, overlap := 0 } := by
  have ht := teardown_turns (faultNoted s c) c
  have hf : ctxFault s c unit f = ctxPut (teardown (faultNoted s c) c) c
      { ctxGet (teardown (faultNoted s c) c) c with fault := f.code, faultInfo := faultBytes s c unit f, overlap := 0 } := by
    simp only [ctxFault, hx, faultNoted, faultBytes]
  have hg : (faultNoted s c).gt = s.gt := by rw [faultNoted, cinc_gt, bump_gt]
  have hc : ctxGet (faultNoted s c) c = ctxGet s c := ctxGet_congr (by rw [faultNoted, cinc_ctxs, bump_ctxs]) c
  rw [hf, ht.ctx, hg, hc]
  exact ht.ctxPut

end Sys2Proof.Machine
end

section
/-! PROOFS. Host commands on contexts, the end of a quiesce and of a restart (O27, O28). -/

namespace Sys2Proof.Machine

open Sys2Proof

-- One declaration after the other: the whole text is checked within a fixed memory.
set_option Elab.async false

variable {d : Bool} {a s t : State}

/-! ### Host commands (R101, R104, R108) -/

theorem ctxResult_spec (s : State) (c r : Nat) : ctxResult s c r = { s with ctxs := (ctxResult s c r).ctxs } ∧
    ctxGet (ctxResult s c r) c = { ctxGet s c with result := r } ∧ ctxsBut s (ctxResult s c r) c :=
  ⟨rfl, ctxGet_ctxPut_same _ _ _, ctxsBut_ctxPut _ _ _⟩

theorem ctxCommand_odd {c : Nat} (op : Nat) (h : braidOdd s (c / 1024) = true) : ctxCommand s op c = ctxResult s c 1 := if_pos h

section
variable {c : Nat} (h : braidOdd s (c / 1024) = false)
include h

theorem ctxCommand_teardown : ctxCommand s 1 c = if (ctxGet s c).state = 1 then ctxResult (teardown s c) c 0 else ctxResult s c 1 := if_neg (by simp [h])

theorem ctxCommand_fault : ctxCommand s 2 c =
    if (ctxGet s c).state = 1 then ctxResult (ctxFault s c 0 (fltAt 9 0)) c 0 else ctxResult s c 1 := if_neg (by simp [h])

theorem ctxCommand_knotRead : ctxCommand s 3 c =
    if (ctxGet s c).state = 0 then ctxResult s c 1
    else if knotSel s (c / 1024) ≥ (ctxGet s c).img.knotCount then ctxResult s c 2
    else ctxResult (rgw s (rTIL_KNOT_VAL (tileSite s (c / 1024))) (knotGet s (c / 1024) (ctxGet s c).img (knotSel s (c / 1024)))) c 0 :=
  if_neg (by simp [h])

theorem ctxCommand_knotWrite : ctxCommand s 4 c =
    if (ctxGet s c).state ≠ 3 then ctxResult s c 1
    else if knotSel s (c / 1024) ≥ (ctxGet s c).img.knotCount then ctxResult s c 2
    else ctxResult (knotPut s (c / 1024) (ctxGet s c).img (knotSel s (c / 1024)) (rg s (rTIL_KNOT_VAL (tileSite s (c / 1024))))) c 0 :=
  if_neg (by simp [h])

end

/-- RESULT of a context that has changed. -/
theorem CtxTurns.result {c : Nat} {x : Ctx} (h : CtxTurns d s t c x) (r : Nat) : CtxTurns d s (ctxResult t c r) c { x with result := r } := by
  rw [ctxResult, h.ctx]
  exact h.ctxPut

/-- A register is stored, and the context's RESULT: nothing else has changed. -/
theorem ctxResult_rgw_spec (s : State) (c r x v : Nat) : rg (ctxResult (rgw s x v) c r) x = v % 2 ^ 32 ∧ regsBut s (ctxResult (rgw s x v) c r) [x] ∧
    ctxGet (ctxResult (rgw s x v) c r) c = { ctxGet s c with result := r } ∧ ctxsBut s (ctxResult (rgw s x v) c r) c ∧
    ctxResult (rgw s x v) c r = { s with ctxs := (ctxResult (rgw s x v) c r).ctxs, regs := (ctxResult (rgw s x v) c r).regs } :=
  ⟨rg_rgw_same s x v, regsBut_rgw s x v, ctxGet_ctxPut_same _ _ _, ctxsBut_ctxPut _ _ _, rfl⟩

/-- A fault of an ACTIVE context counts in its tile's TIL_CTX_FAULTS. -/
theorem ctxFault_counted {c : Nat} (unit : Nat) (f : CtxFlt) (hx : (ctxGet s c).state = 1) :
    counted s (ctxFault s c unit f) (rTIL_CTX_FAULTS (tileSite s (c / 1024))) 1 := by
  rw [counted, (ctxFault_turns unit f hx).tileReg (n := tileSite s (c / 1024)) (o := 0x4c) (by omega) (by omega), faultNoted,
    rg_congr (cinc_regs _ _ _), rg_bump_same]

theorem faultNoted_ctxs (s : State) (c : Nat) : (faultNoted s c).ctxs = s.ctxs := by rw [faultNoted, cinc_ctxs, bump_ctxs]

theorem faultNoted_mem (s : State) (c : Nat) : (faultNoted s c).mem = s.mem := by rw [faultNoted, cinc_mem, bump_mem]

theorem faultNoted_knots (s : State) (c : Nat) : (faultNoted s c).knots = s.knots := by rw [faultNoted, cinc_knots, bump_knots]

/-! ### Slot commit (R262) -/

theorem Quiet.applyActions {p : Nat} {es : List (Nat × List Nat)} (h : Quiet d a s) : Quiet d a (applyActions s p es) := h.foldl fun _ _ h => h.upd

theorem knotsInit_frame (s : State) (l : Nat) (v : SlotImg) : knotsInit s l v = { s with knots := (knotsInit s l v).knots } := by
  unfold knotsInit
  exact List.foldlRecOn (motive := fun u : State => u = { s with knots := u.knots }) _ _ rfl fun u hu i _ => by rw [hu]; rfl

theorem commitSlot_spec (s : State) (c k : Nat) : (ctxGet (commitSlot s c k) c).state = 1 ∧ (ctxGet (commitSlot s c k) c).active = k ∧
    (ctxGet (commitSlot s c k) c).fault = 0 ∧ (mslotGet (commitSlot s c k) c k).state = 4 ∧ ctxsBut s (commitSlot s c k) c ∧
    (commitSlot s c k).tiles = s.tiles := by
  unfold commitSlot
  extract_lets m x l g s1 old s2 src img s3 s4 s5 s6
  have h2 : s2.ctxs = s.ctxs ∧ s2.tiles = s.tiles := by
    simp only [s2]
    split <;> exact ⟨rfl, rfl⟩
  have h4 : s4 = { s3 with knots := s4.knots } := knotsInit_frame _ _ _
  have hq : Quiet true s5 (modelRecord (epochAdvance s6 5) m.rq (if m.forced then 6 else 3) 0 0 c k g 0 m.digest) :=
    (Quiet.ite (Quiet.refl s5).applyActions (Quiet.refl s5)).epochAdvance.modelRecord
  rw [ctxGet_congr hq.ctxs, ctxGet_ctxPut_same]
  refine ⟨rfl, rfl, rfl, ?_, fun e he => ?_, ?_⟩
  · have hs : s5.slots = s3.slots := by simp only [s5, ctxPut]; rw [h4]
    rw [mslotGet, hq.slots rfl, hs]
    simp only [s3, mslotPut, tget_tset_same]
  · rw [ctxGet_congr hq.ctxs, ctxsBut_ctxPut s4 c _ e he, ctxGet_congr (t := s4) (s := s3) (by rw [h4]), ctxGet_congr (t := s3) (s := s) h2.1]
  · rw [hq.tiles rfl]
    simp only [s5, ctxPut]
    rw [h4]
    exact h2.2

theorem slotCommit_not_active {c : Nat} (h : (ctxGet s c).state ≠ 1) : slotCommit s c = s := by
  have hr : commitReady s c = false := by simp [commitReady, h]
  unfold slotCommit
  split
  · rfl
  · rw [hr, Bool.false_and, if_neg Bool.false_ne_true]

theorem forcedCommit_not_active {c : Nat} (h : (ctxGet s c).state ≠ 1) : forcedCommit s c = s := by
  unfold forcedCommit
  extract_lets x
  split
  · rfl
  · exact if_neg fun e => h e.1

/-! ### The end of a quiesce (R103, R104) -/

theorem armedSlot_congr (h : t.slots = s.slots) (c : Nat) : armedSlot t c = armedSlot s c := by
  unfold armedSlot mslotGet
  rw [h]

/-- The context with its transfers returned: FREE, or FAULTED when a fault is latched. -/
def releasedCtx (x : Ctx) : Ctx := { x with state := if x.fault = 0 then 0 else 3 }

/-- A context is released: then the slot that was armed meanwhile commits. -/
theorem ctxRelease_turns (s : State) (c : Nat) : ∃ u, CtxTurns true s u c (releasedCtx (ctxGet s c)) ∧
    ctxRelease s c = match armedSlot s c with | some k => commitSlot u c k | none => u := by
  have h : Quiet true s (if (ctxGet s c).fault = 0 then s else stage s 9 (rgf s rFLT_CFG 25 20) 6 5
      (leBytes 2 (c % 2 ^ 15) ++ leBytes 1 (ctxGet s c).fault ++ leBytes 1 (ctxGet s c).overlap ++ slice (ctxGet s c).faultInfo 0 20)) :=
    .ite (.refl s) (Quiet.refl s).stage
  obtain ⟨u, hu⟩ : ∃ u, u = waitDone (ctxPut (if (ctxGet s c).fault = 0 then s else stage s 9 (rgf s rFLT_CFG 25 20) 6 5
      (leBytes 2 (c % 2 ^ 15) ++ leBytes 1 (ctxGet s c).fault ++ leBytes 1 (ctxGet s c).overlap ++ slice (ctxGet s c).faultInfo 0 20)) c
      (releasedCtx (ctxGet s c))) c := ⟨_, rfl⟩
  have ht : CtxTurns true s u c (releasedCtx (ctxGet s c)) := by
    rw [hu]
    exact h.turns.andThen (Quiet.refl _).waitDone
  refine ⟨u, ht, ?_⟩
  rw [← armedSlot_congr (t := u) (ht.slots), hu]
  rfl

theorem quiesceEnd_held {c : Nat} (h : sbHeld s c ≠ 0) : quiesceEnd s c = s := if_pos h

theorem quiesceEnd_releases {c : Nat} (h : sbHeld s c = 0) (hx : (ctxGet s c).state = 2) : quiesceEnd s c = ctxRelease s c := by
  simp only [quiesceEnd, h, hx, ne_eq, not_true_eq_false, if_false, if_true]

theorem quiesceEnd_restarts {c : Nat} {b : Bool} (h : sbHeld s c = 0) (hx : (ctxGet s c).state ≠ 2) (hr : (ctxGet s c).restart = some b) :
    quiesceEnd s c = restartEnd s c := by
  simp only [quiesceEnd, h, hx, hr, ne_eq, not_true_eq_false, if_false, Option.isSome_some, if_true]

theorem quiesceEnd_none {c : Nat} (hx : (ctxGet s c).state ≠ 2) (hr : (ctxGet s c).restart = none) : quiesceEnd s c = s := by
  simp only [quiesceEnd, hx, hr, if_false, Option.isSome_none, Bool.false_eq_true, ite_self]

/-- A context that is released with no slot armed: FREE, or FAULTED when a fault is latched. -/
theorem ctxRelease_unarmed {c : Nat} (h : armedSlot s c = none) : CtxTurns true s (ctxRelease s c) c (releasedCtx (ctxGet s c)) := by
  obtain ⟨u, hu, hr⟩ := ctxRelease_turns s c
  rw [hr, h]
  exact hu

/-- A context that is released with a slot armed meanwhile: the slot is ACTIVE. -/
theorem ctxRelease_armed {c k : Nat} (h : armedSlot s c = some k) : let t := ctxRelease s c
    (ctxGet t c).state = 1 ∧ (ctxGet t c).active = k ∧ (ctxGet t c).fault = 0 ∧ (mslotGet t c k).state = 4 ∧ ctxsBut s t c ∧ t.tiles = s.tiles := by
  obtain ⟨u, hu, hr⟩ := ctxRelease_turns s c
  simp only [hr, h]
  obtain ⟨hs, ha, hf, hm, ho, ht⟩ := commitSlot_spec u c k
  exact ⟨hs, ha, hf, hm, fun e he => (ho e he).trans (hu.others e he), ht.trans (hu.tiles)⟩

/-! ### The end of a restart (R318) -/

/-- From `s` to `t` contexts, tiles and model slots have stayed. -/
def CtxsStay (s t : State) : Prop := t.ctxs = s.ctxs ∧ t.tiles = s.tiles ∧ t.slots = s.slots

theorem CtxsStay.refl (s : State) : CtxsStay s s := ⟨rfl, rfl, rfl⟩

theorem CtxsStay.memW {x : Nat} {b : Bytes} (h : CtxsStay a s) : CtxsStay a (memW s x b) := by
  have hc : Machine.lpCount s 1 x b.length = { s with obs := (Machine.lpCount s 1 x b.length).obs } := (CountsOnly.lpCount s 1 x b.length).1
  unfold Machine.memW
  split
  · exact h
  · rw [hc]
    exact h

theorem CtxsStay.bufWrite {l i ply : Nat} {v : SlotImg} {j : JSlot} (h : CtxsStay a s) : CtxsStay a (bufWrite s l v i ply j) :=
  List.foldlRecOn (motive := fun r : State × Bytes => CtxsStay a r.1) _ _ h fun _ hr _ _ => hr.memW

theorem CtxsStay.faultRedisp {p : Nat} (h : CtxsStay a s) : CtxsStay a (faultRedisp s p) := h

/-- A restart ends with no slot armed: TOKENS are restored and requests taken again, then the context runs. -/
theorem restartEnd_turns {c : Nat} {b : Bool} (hh : sbHeld s c = 0) (hr : (ctxGet s c).restart = some b) (hg : (ctxGet s c).restoring = false)
    (ha : armedSlot s c = none) :
    ∃ u bufs, CtxsStay s u ∧ CtxTurns true u (restartEnd s c) c { ctxGet s c with restart := none, bufs := bufs, toks := [] } := by
  unfold restartEnd
  extract_lets +onlyGivenNames x l
  split
  · rename_i h
    cases hr.symm.trans h
  · rename_i r h
    rw [if_neg (by rw [hh, show x.restoring = false from hg]; decide)]
    extract_lets +onlyGivenNames u v bufs w
    have hu : CtxsStay s u := List.foldlRecOn _ _ (CtxsStay.refl s) fun _ h _ _ => h.memW
    have hv : CtxsStay s v := by
      simp only [v]
      split
      · refine List.foldlRecOn _ _ hu fun z hz e _ => ?_
        split
        · split
          exacts [hz.bufWrite.faultRedisp, hz]
        · exact hz
      · exact hu
    have hw : CtxTurns true v w c { x with restart := none, bufs := bufs, toks := [] } := (Quiet.refl v).turns.andThen (Quiet.refl _).waitDone
    clear_value u v w bufs
    rw [armedSlot_congr ((hw.slots).trans hv.2.2), ha]
    exact ⟨v, bufs, hv, hw⟩

/-- The context after its restart has ended. -/
theorem restartEnd_spec {c : Nat} {b : Bool} (hh : sbHeld s c = 0) (hr : (ctxGet s c).restart = some b) (hg : (ctxGet s c).restoring = false)
    (ha : armedSlot s c = none) : (ctxGet (restartEnd s c) c).restart = none ∧ (ctxGet (restartEnd s c) c).state = (ctxGet s c).state ∧
    ctxsBut s (restartEnd s c) c ∧ (restartEnd s c).tiles = s.tiles := by
  obtain ⟨u, bufs, ⟨hc, ht, -⟩, hw⟩ := restartEnd_turns hh hr hg ha
  rw [hw.ctx]
  exact ⟨rfl, rfl, ctxsBut_congr hw.others hc, (hw.tiles).trans ht⟩

/-! ### The timeout (R103) -/

theorem quiesceTimeout_early {c : Nat} (h : s.gt < (ctxGet s c).downAt + 100000) : quiesceTimeout s c = s := if_neg fun e => by omega

theorem quiesceTimeout_none {c : Nat} (hx : (ctxGet s c).state ≠ 2) (hr : (ctxGet s c).restart = none) : quiesceTimeout s c = s :=
  if_neg fun e => by simp [hx, hr] at e

theorem quiesceTimeout_due {c : Nat} (h : (ctxGet s c).downAt + 100000 ≤ s.gt) (hx : (ctxGet s c).state = 2 ∨ (ctxGet s c).restart.isSome) :
    quiesceTimeout s c = quiesceEnd (purge s c) c := if_pos ⟨hx, h⟩

theorem tileSite_tilePut {l : Nat} {v : Tile} (hv : v.site = (tileGet s l).site) : tileSite (tilePut s l v) = tileSite s := by
  funext k
  rw [tileSite, tileGet_tilePut]
  split
  · subst_vars
    rw [hv, tileSite]
  · rfl

/-- The entries of context `c` have left the scoreboard of its tile. -/
def entriesPurged (s : State) (c : Nat) : State :=
  tilePut s (c / 1024) { tileGet s (c / 1024) with
    sb := (tileGet s (c / 1024)).sb.filter fun e => match e.2 with | some x => x.ctx != c | none => false }

theorem purge_eq (s : State) (c : Nat) : purge s c = bumpN (entriesPurged s c) (rTIL_QUIESCE_PURGE (tileSite s (c / 1024))) (sbHeld s c) := by
  have h : tileSite (entriesPurged s c) = tileSite s := tileSite_tilePut rfl
  rw [← h]
  rfl

theorem purge_ctxs (s : State) (c : Nat) : (purge s c).ctxs = s.ctxs := by rw [purge_eq, bumpN_ctxs]; rfl

theorem purge_slots (s : State) (c : Nat) : (purge s c).slots = s.slots := by rw [purge_eq, bumpN_slots]; rfl

theorem purge_mem (s : State) (c : Nat) : (purge s c).mem = s.mem := by rw [purge_eq, bumpN_mem]; rfl

theorem purge_counted (s : State) (c : Nat) : counted s (purge s c) (rTIL_QUIESCE_PURGE (tileSite s (c / 1024))) (sbHeld s c) := by
  rw [purge_eq, counted, rg_bumpN_same, rg_congr (t := entriesPurged s c) (s := s) rfl]

theorem sbHeld_purge (s : State) (c : Nat) : sbHeld (purge s c) c = 0 := by
  have h : (tileGet (purge s c) (c / 1024)).sb = (tileGet s (c / 1024)).sb.filter fun e => match e.2 with | some x => x.ctx != c | none => false := by
    rw [purge_eq, tileGet, bumpN_tiles, ← tileGet, entriesPurged, tileGet_tilePut_same]
  rw [sbHeld, h, List.length_eq_zero_iff, List.filter_eq_nil_iff]
  rintro ⟨j, _ | x⟩ hk
  · exact Bool.false_ne_true
  · simpa using (List.mem_filter.mp hk).2

theorem sbHeld_congr (h : t.tiles = s.tiles) (c : Nat) : sbHeld t c = sbHeld s c := by rw [sbHeld, sbHeld, tileGet, tileGet, h]

/-- Settles O28: the branches of QUIESCE_END and QUIESCE_TIMEOUT, a context's release (`ctxRelease_unarmed`, `ctxRelease_armed`), the end of a restart
(`restartEnd_spec`), and the purge before them. -/
theorem quiesce : Obligations.Quiesce := by
  intro s c x l timeout
  have hp : ctxGet (purge s c) c = x := ctxGet_congr (purge_ctxs s c) c
  have hpa : armedSlot (purge s c) c = armedSlot s c := armedSlot_congr (purge_slots s c) c
  refine ⟨fun h => ⟨_, rfl, quiesceEnd_held h⟩, fun hx hr => ⟨⟨_, rfl, quiesceEnd_none hx hr⟩, ⟨_, rfl, _, rfl, ?_⟩⟩, fun h hx ha => ⟨_, rfl, ?_⟩,
    fun k h hx ha => ⟨_, rfl, ?_⟩, fun b h hx hr hg ha => ⟨_, rfl, ?_⟩, fun h => ⟨_, rfl, _, quiesceTimeout_early h, rfl⟩,
    fun h hx ha => ⟨_, rfl, _, ?_, rfl⟩, fun k h hx ha => ⟨_, rfl, _, ?_, rfl⟩, fun b h hx hr hg ha => ⟨_, rfl, _, ?_, rfl⟩⟩
  · rw [quiesceTimeout_none hx hr]
  · rw [quiesceEnd_releases h hx]
    have hu := ctxRelease_unarmed ha
    exact ⟨hu.ctx, hu.others, hu.mem, hu.tiles⟩
  · rw [quiesceEnd_releases h hx]
    obtain ⟨hs, hk, hf, hm, ho, -⟩ := ctxRelease_armed ha
    exact ⟨hs, hk, hf, hm, ho⟩
  · rw [quiesceEnd_restarts h hx hr]
    obtain ⟨hn, hs, ho, -⟩ := restartEnd_spec h hr hg ha
    exact ⟨hn, hs, ho⟩
  · rw [quiesceTimeout_due h (.inl hx), quiesceEnd_releases (sbHeld_purge s c) (by rw [hp]; exact hx)]
    have hu := ctxRelease_unarmed (hpa.trans ha)
    refine ⟨(sbHeld_congr (hu.tiles) c).trans (sbHeld_purge s c), ?_, ?_, ctxsBut_congr hu.others (purge_ctxs s c),
      hu.mem.trans (purge_mem s c)⟩
    · rw [hu.ctx, hp]
      rfl
    · rw [counted, hu.tileReg (n := tileSite s l) (o := 0x50) (by omega) (by omega)]
      exact purge_counted s c
  · rw [quiesceTimeout_due h (.inl hx), quiesceEnd_releases (sbHeld_purge s c) (by rw [hp]; exact hx)]
    obtain ⟨hs, hk, -, -, ho, ht⟩ := ctxRelease_armed (hpa.trans ha)
    exact ⟨(sbHeld_congr ht c).trans (sbHeld_purge s c), hs, hk, ctxsBut_congr ho (purge_ctxs s c)⟩
  · have hr' : (ctxGet (purge s c) c).restart = some b := by rw [hp]; exact hr
    rw [quiesceTimeout_due h (.inr (by rw [hr]; rfl)), quiesceEnd_restarts (sbHeld_purge s c) (by rw [hp]; exact hx) hr']
    obtain ⟨hn, -, ho, ht⟩ := restartEnd_spec (sbHeld_purge s c) hr' (by rw [hp]; exact hg) (hpa.trans ha)
    exact ⟨(sbHeld_congr ht c).trans (sbHeld_purge s c), hn, ctxsBut_congr ho (purge_ctxs s c)⟩

/-- Settles O27: the commands by the state of their context, and the commit that follows a quiesce (`ctxRelease_armed`). -/
theorem contextCommands : Obligations.ContextCommands := by
  intro s c x l o only
  have hres : ∀ r, only (ctxResult s c r) r := ctxResult_spec s c
  refine ⟨fun hodd i hi => ?_, fun heven => ⟨fun hx => ⟨⟨_, rfl, ?_⟩, ⟨_, rfl, ?_⟩⟩, fun hx i hi => ?_, fun hx => ⟨_, rfl, ?_⟩, fun hx hk => ⟨_, rfl, ?_⟩,
    fun hx hk => ⟨_, rfl, ?_⟩, fun hx => ⟨_, rfl, ?_⟩, fun hx hk => ⟨_, rfl, ?_⟩, fun hx hk => ⟨_, rfl, ?_⟩⟩, fun k hx hk => ⟨fun i hi => ?_,
    fun hh => ⟨_, rfl, ?_⟩⟩⟩
  · have h : ∀ op, only (ctxCommand s op c) 1 := fun op => by
      rw [ctxCommand_odd op hodd]
      exact hres 1
    simp only [List.mem_cons, List.not_mem_nil, or_false] at hi
    obtain rfl | rfl | rfl | rfl := hi <;> exact ⟨_, rfl, h _⟩
  · rw [ctxCommand_teardown heven, if_pos hx]
    beta_reduce
    have h := (teardown_turns s c).result 0
    rw [h.ctx]
    exact ⟨rfl, rfl, rfl, rfl, rfl, rfl, h.others, h.mem, h.knots⟩
  · rw [ctxCommand_fault heven, if_pos hx]
    beta_reduce
    have h := (ctxFault_turns 0 (fltAt 9 0) hx).result 0
    rw [faultsWith, h.ctx]
    exact ⟨⟨rfl, rfl⟩, rfl, rfl, rfl, ctxFault_counted 0 (fltAt 9 0) hx, ctxsBut_congr h.others (faultNoted_ctxs s c),
      h.mem.trans (faultNoted_mem s c), h.knots.trans (faultNoted_knots s c)⟩
  · have h : ∀ op ∈ [1, 2], only (ctxCommand s op c) 1 := by
      rintro op hop
      simp only [List.mem_cons, List.not_mem_nil, or_false] at hop
      obtain rfl | rfl := hop
      · rw [ctxCommand_teardown heven, if_neg hx]
        exact hres 1
      · rw [ctxCommand_fault heven, if_neg hx]
        exact hres 1
    simp only [List.mem_cons, List.not_mem_nil, or_false] at hi
    obtain rfl | rfl := hi <;> exact ⟨_, rfl, h _ (by decide)⟩
  · rw [ctxCommand_knotRead heven, if_pos hx]
    exact hres 1
  · rw [ctxCommand_knotRead heven, if_neg hx, if_pos hk]
    exact hres 2
  · rw [ctxCommand_knotRead heven, if_neg hx, if_neg (not_le.mpr hk)]
    exact ctxResult_rgw_spec s c 0 (rTIL_KNOT_VAL (tileSite s l)) (knotGet s l x.img o)
  · rw [ctxCommand_knotWrite heven, if_pos hx]
    exact hres 1
  · rw [ctxCommand_knotWrite heven, if_neg (not_not.mpr hx), if_pos hk]
    exact hres 2
  · rw [ctxCommand_knotWrite heven, if_neg (not_not.mpr hx), if_neg (not_le.mpr hk)]
    exact ⟨rfl, ctxGet_ctxPut_same _ _ _, ctxsBut_ctxPut _ _ _, rfl⟩
  · have hne : x.state ≠ 1 := by omega
    simp only [List.mem_cons, List.not_mem_nil, or_false] at hi
    obtain rfl | rfl := hi
    · exact ⟨_, rfl, slotCommit_not_active hne⟩
    · exact ⟨_, rfl, forcedCommit_not_active hne⟩
  · rw [quiesceEnd_releases hh hx]
    obtain ⟨hs, ha, -, hm, -⟩ := ctxRelease_armed hk
    exact ⟨hs, ha, hm⟩

end Sys2Proof.Machine
end

section
/-! PROOFS. A command completes (O26), and the rules for trace records and signals that it rests on. -/

namespace Sys2Proof.Machine

open Sys2Proof

-- One declaration after the other: the whole text is checked within a fixed memory.
set_option Elab.async false

variable {d : Bool} {a s t u : State}

/-! ### A trace record (R370) -/

/-- From `s` to `t` nothing but trace has moved: its queues, its count of lost records, the free values drawn for its stamps. -/
structure Traces (s t : State) : Prop where
  frame : t = { s with freeCtr := t.freeCtr, regs := t.regs, obs := t.obs }
  regs : regsBut s t [rOBS_TRC_LOST]
  cnt : t.obs.cnt = s.obs.cnt

theorem Traces.refl (s : State) : Traces s s := ⟨rfl, fun _ _ => rfl, rfl⟩

theorem Traces.trans (h : Traces s t) (g : Traces t u) : Traces s u :=
  ⟨by rw [g.frame, h.frame], fun x hx => (g.regs x hx).trans (h.regs x hx), g.cnt.trans h.cnt⟩

theorem Traces.ite {c : Prop} [Decidable c] (h : Traces s t) (g : Traces s u) : Traces s (if c then t else u) := by
  split <;> assumption

/-- A lost record counts. -/
theorem Traces.bump {x : Nat} (h : Traces s t) (hx : x = rOBS_TRC_LOST) : Traces s (bump t x) := by
  refine ⟨?_, fun y hy => (rg_bump_other t ?_).trans (h.regs y hy), h.cnt⟩
  · rw [h.frame]
    rfl
  · rw [hx]
    simpa [eq_comm] using hy

theorem traces_obs {o : ObsState} (h : o.cnt = s.obs.cnt) : Traces s { (drawFree s 8).2 with obs := o } := ⟨rfl, fun _ _ => rfl, h⟩

theorem traces_traceRec (s : State) (l : Nat) (isEnd : Bool) (e : Nat) (retried dropped : Bool) (ctx index stretch quarters ply : Nat) :
    Traces s (traceRec s l isEnd e retried dropped ctx index stretch quarters ply) := by
  unfold traceRec
  split
  exacts [Traces.refl s, .ite (.bump (traces_obs rfl) rfl) (traces_obs rfl)]

theorem traces_traceCmd (s : State) (on : Bool) (l c e : Nat) (isEnd retried dropped : Bool) (index quarters ply : Nat) :
    Traces s (traceCmd s on l c e isEnd retried dropped index quarters ply) := by
  unfold traceCmd
  split
  exacts [traces_traceRec _ _ _ _ _ _ _ _ _ _ _, Traces.refl s]

theorem Quiet.traces (h : Quiet d a s) (k : Traces s t) : Quiet d a t := by
  have hf := k.frame
  refine h.change (hr := fun n o hl _ => k.regs _ ?_) (hi := fun l _ => by rw [k.cnt]) ?_ ?_ ?_ ?_ ?_ ?_ ?_ ?_
  · simp only [tilA, List.mem_singleton, obsA]
    omega
  all_goals rw [hf]
  exacts [fun _ _ => id, fun _ => rfl, fun _ => rfl]

/-! ### A signal (R96) -/

/-- A signal that its knot can take. -/
theorem signal_fits {l c unit : Nat} {v : SlotImg} {sig : Option (Nat × Nat)} (h : sigFits s l v sig) :
    signalled s (signal s l c unit v sig) l v sig ∧ signal s l c unit v sig = { s with knots := (signal s l c unit v sig).knots } := by
  cases sig with
  | none => exact ⟨rfl, rfl⟩
  | some e =>
    obtain ⟨k, n⟩ := e
    have hs : signal s l c unit v (some (k, n)) = knotPut s l v k (knotGet s l v k + n) := if_neg (not_lt.mpr (h k n rfl))
    rw [hs]
    exact ⟨rfl, rfl⟩

/-- A signal past 2^32 − 1 saturates its knot and faults the context. -/
theorem signal_overflows {l c unit k n : Nat} {v : SlotImg} (h : 0xFFFFFFFF < knotGet s l v k + n) :
    signal s l c unit v (some (k, n)) = ctxFault (knotPut s l v k 0xFFFFFFFF) c unit (fltAt 2 0) := if_pos h

theorem knotGet_knotPut_same (s : State) (l : Nat) (v : SlotImg) (k n : Nat) : knotGet (knotPut s l v k n) l v k = n := tget_tset_same _ _ _ _

theorem knotGet_congr (h : t.knots = s.knots) (l : Nat) (v : SlotImg) (k : Nat) : knotGet t l v k = knotGet s l v k := by rw [knotGet, h, ← knotGet]

theorem sigFits_congr {l : Nat} {v : SlotImg} {sig : Option (Nat × Nat)} (hk : t.knots = s.knots) (h : sigFits s l v sig) : sigFits t l v sig :=
  fun k n e => by rw [knotGet_congr hk]; exact h k n e

theorem signalled_congr {l : Nat} {v : SlotImg} {sig : Option (Nat × Nat)} (hk : t.knots = s.knots) (h : signalled t u l v sig) : signalled s u l v sig := by
  cases sig with
  | none => exact Eq.trans h hk
  | some e => simpa only [signalled, knotGet_congr hk, hk] using h

/-! ### A completion (R97, R102) -/

/-- The counts of a command that completes, but for one whose work was taken from it. -/
def cmdCounted (s : State) (l : Nat) (x : SbEnt) : State :=
  if x.gone then s else if x.engine = 1 then shfBump s l x.quarters rSHF_CMDS (fun _ => 1)
  else if x.engine = 2 then bump s (rTHR_CMDS (tileSite s (l + x.span))) else s

theorem Quiet.bumpN {x n : Nat} (h : Quiet d a s) (hx : ∀ n o, o < 0x1000 → o ≠ 0x44 → x ≠ tilA n o) : Quiet d a (bumpN s x n) :=
  h.change (hr := fun m o hl hne => rg_bumpN_other s n (hx m o hl hne))

theorem Quiet.shfBump {l mask : Nat} {r f : Nat → Nat} (h : Quiet d a s) (hr : ∀ n m o, o < 0x1000 → o ≠ 0x44 → r n ≠ tilA m o) :
    Quiet d a (shfBump s l mask r f) :=
  .ite (.ite h (h.bumpN (hr _))) ((Quiet.ite h (h.bumpN (hr _))).bumpN (hr _))

theorem Quiet.cmdCounted {l : Nat} {x : SbEnt} (h : Quiet d a s) : Quiet d a (cmdCounted s l x) := by
  unfold Machine.cmdCounted
  split
  · exact h
  · split
    · exact h.shfBump fun n m o _ _ => by simp only [shfA, tilA]; omega
    · exact .ite (h.bumpOther fun n o _ _ => by simp only [thrA, tilA]; omega) h

theorem shfBump_obs (s : State) (l mask : Nat) (r f : Nat → Nat) : (shfBump s l mask r f).obs = s.obs := by
  unfold shfBump
  dsimp only
  split <;> split <;> rfl

theorem cmdCounted_obs (s : State) (l : Nat) (x : SbEnt) : (cmdCounted s l x).obs = s.obs := by
  unfold cmdCounted
  split
  · rfl
  · split
    · exact shfBump_obs _ _ _ _ _
    · split
      exacts [bump_obs _ _, rfl]

/-- The entry of a completed command is free, the command is counted, and its end record is traced. -/
def cmdReturned (s : State) (l i : Nat) (x : SbEnt) : State :=
  traceCmd (cmdCounted (sbPut s l i none) l x) x.traced l x.ctx x.engine true x.retried (x.ply != (ctxGet s x.ctx).ply) x.index x.quarters x.ply

/-- What a completion makes of the state in which the command is counted. -/
def completed (s : State) (site l : Nat) (x : SbEnt) : State :=
  let drop := x.ply != (ctxGet s x.ctx).ply
  let t := traceCmd s x.traced l x.ctx x.engine true x.retried drop x.index x.quarters x.ply
  if drop then cinc (bump t (rTIL_PLY_DROP site)) (cTile l 16) 1 else signal t l x.ctx (unitOf x.engine x.quarters) (ctxGet t x.ctx).img x.sig

theorem sbPut_none_sb (s : State) (l i : Nat) : tget none (tileGet (sbPut s l i none) l).sb i = none := by
  rw [sbPut, tileGet_tilePut_same, tget_tset_same]

theorem tileSite_sbPut (s : State) (l i : Nat) (v : Option SbEnt) : tileSite (sbPut s l i v) = tileSite s := tileSite_tilePut rfl

theorem cmdReturned_quiet (s : State) (l i : Nat) (x : SbEnt) : Quiet true (sbPut s l i none) (cmdReturned s l i x) :=
  (Quiet.refl _).cmdCounted.traces (traces_traceCmd _ _ _ _ _ _ _ _ _ _ _)

theorem cmdReturned_cnt (s : State) (l i : Nat) (x : SbEnt) : (cmdReturned s l i x).obs.cnt = s.obs.cnt := by
  rw [cmdReturned, (traces_traceCmd _ _ _ _ _ _ _ _ _ _ _).cnt, cmdCounted_obs]
  rfl

section
variable {l i : Nat} {x : SbEnt}

theorem commandComplete_free (h : tget none (tileGet s l).sb i = none) : commandComplete s l i = s := by simp only [commandComplete, h]

variable (h : tget none (tileGet s l).sb i = some x)
include h

theorem commandComplete_waits (hran : ¬(x.todo = none ∧ x.inPass = false ∧ s.pwr.tripped = false)) : commandComplete s l i = s := by
  simp only [commandComplete, h]
  refine if_pos ?_
  rw [Bool.or_eq_true, Bool.or_eq_true, Option.isSome_iff_ne_none]
  by_contra hno
  simp only [not_or, Bool.not_eq_true, ne_eq, not_not] at hno
  obtain ⟨⟨ht, hp⟩, hs⟩ := hno
  exact hran ⟨ht, hp, hs⟩

theorem commandComplete_returns (hran : x.todo = none ∧ x.inPass = false ∧ s.pwr.tripped = false) : commandComplete s l i =
    if x.ply != (ctxGet s x.ctx).ply then cinc (bump (cmdReturned s l i x) (rTIL_PLY_DROP (tileSite s l))) (cTile l 16) 1
    else signal (cmdReturned s l i x) l x.ctx (unitOf x.engine x.quarters) (ctxGet s x.ctx).img x.sig := by
  obtain ⟨ht, hp, hs⟩ := hran
  have hc : ctxGet (cmdCounted (sbPut s l i none) l x) x.ctx = ctxGet s x.ctx := ctxGet_congr (Quiet.refl (d := true) (sbPut s l i none)).cmdCounted.ctxs _
  have hr : ctxGet (cmdReturned s l i x) x.ctx = ctxGet s x.ctx := ctxGet_congr (cmdReturned_quiet s l i x).ctxs _
  have hd : commandComplete s l i = completed (cmdCounted (sbPut s l i none) l x) (tileSite (sbPut s l i none) l) l x := by
    simp only [commandComplete, h, ht, hp, hs, Option.isSome_none, Bool.or_self, Bool.false_eq_true, if_false]
    rfl
  rw [hd, completed, hc, tileSite_sbPut, ← cmdReturned, hr]

end

/-- What O26 says of a completion whose outcome is `P`. -/
def Completes (s : State) (l i : Nat) (P : State → Prop) : Prop :=
  runsTo (.commandComplete l i) s fun t => ∃ u, P u ∧ tget none (tileGet u l).sb i = none ∧ u.mem = s.mem ∧ t = enginesPump u l

theorem completes {l i : Nat} {P : State → Prop} (hu : commandComplete s l i = u) (h : P u) (hf : tget none (tileGet u l).sb i = none)
    (hm : u.mem = s.mem) : Completes s l i P := ⟨_, rfl, u, h, hf, hm, by rw [← hu]⟩

theorem tileGet_congr (h : t.tiles = s.tiles) (l : Nat) : tileGet t l = tileGet s l := by rw [tileGet, h, ← tileGet]

theorem tileSite_congr (h : t.tiles = s.tiles) : tileSite t = tileSite s := by
  funext k
  rw [tileSite, tileGet_congr h, ← tileSite]

theorem faultNoted_tiles (s : State) (c : Nat) : (faultNoted s c).tiles = s.tiles := by rw [faultNoted, cinc_tiles, bump_tiles]

section
variable {l i : Nat} {x : SbEnt} (h : tget none (tileGet s l).sb i = some x) (hr : x.todo = none ∧ x.inPass = false ∧ s.pwr.tripped = false)
include h hr

theorem completes_signalled (hp : x.ply = (ctxGet s x.ctx).ply) (hs : sigFits s l (ctxGet s x.ctx).img x.sig) :
    Completes s l i fun u => signalled s u l (ctxGet s x.ctx).img x.sig ∧ u.ctxs = s.ctxs := by
  have hq := cmdReturned_quiet s l i x
  obtain ⟨hk, hfr⟩ := signal_fits (c := x.ctx) (unit := unitOf x.engine x.quarters) (sigFits_congr hq.knots hs)
  refine completes ((commandComplete_returns h hr).trans (if_neg (by simpa using hp))) ⟨signalled_congr hq.knots hk, ?_⟩ ?_ ?_ <;> rw [hfr]
  exacts [hq.ctxs, hq.free l i (sbPut_none_sb s l i), hq.mem]

theorem completes_overflowing {k n : Nat} (hp : x.ply = (ctxGet s x.ctx).ply) (hk : x.sig = some (k, n))
    (ho : 0xFFFFFFFF < knotGet s l (ctxGet s x.ctx).img k + n) (hx : (ctxGet s x.ctx).state = 1) :
    Completes s l i fun u => knotGet u l (ctxGet s x.ctx).img k = 0xFFFFFFFF ∧ faultsWith u x.ctx 2 ∧ ctxsBut s u x.ctx := by
  have hq := cmdReturned_quiet s l i x
  have hsat := (commandComplete_returns h hr).trans (if_neg (by simpa using hp))
  rw [hk, signal_overflows (by rwa [knotGet_congr hq.knots])] at hsat
  generalize hw : knotPut (cmdReturned s l i x) l (ctxGet s x.ctx).img k 0xFFFFFFFF = w at hsat
  have hc : w.ctxs = s.ctxs := by rw [← hw]; exact hq.ctxs
  have hft := ctxFault_turns (unitOf x.engine x.quarters) (fltAt 2 0) ((congrArg Ctx.state (ctxGet_congr hc x.ctx)).trans hx)
  have hkn : (ctxFault w x.ctx (unitOf x.engine x.quarters) (fltAt 2 0)).knots = w.knots := hft.knots.trans (faultNoted_knots _ _)
  refine completes hsat ⟨?_, ⟨?_, ?_⟩, ctxsBut_congr hft.others ((faultNoted_ctxs _ _).trans hc)⟩ ?_ ?_
  · rw [knotGet_congr hkn, ← hw]
    exact knotGet_knotPut_same _ _ _ _ _
  · rw [hft.ctx]; rfl
  · rw [hft.ctx]; rfl
  · refine hft.quiet.free l i ?_
    rw [tileGet_congr (faultNoted_tiles _ _), ← hw]
    exact hq.free l i (sbPut_none_sb s l i)
  · rw [hft.mem, faultNoted_mem, ← hw]
    exact hq.mem

theorem completes_dropped (hp : x.ply ≠ (ctxGet s x.ctx).ply) : Completes s l i fun u =>
    counted s u (rTIL_PLY_DROP (tileSite s l)) 1 ∧ cntUp s u (cTile l 16) 1 ∧ u.knots = s.knots ∧ u.ctxs = s.ctxs := by
  have hq := cmdReturned_quiet s l i x
  have hreg : rg (cmdReturned s l i x) (rTIL_PLY_DROP (tileSite s l)) = rg s (rTIL_PLY_DROP (tileSite s l)) := hq.tileRegs _ 0x40 (by omega) (by omega)
  refine completes ((commandComplete_returns h hr).trans (if_pos (by simpa using hp))) ⟨?_, ?_, ?_, ?_⟩ ?_ ?_
  · rw [counted, rg_congr (cinc_regs _ _ _), rg_bump_same, hreg]
  · rw [cntUp, cnt_cinc, if_pos rfl, bump_obs, cmdReturned_cnt]
  · rw [cinc_knots, bump_knots]; exact hq.knots
  · rw [cinc_ctxs, bump_ctxs]; exact hq.ctxs
  · rw [tileGet_congr ((cinc_tiles _ _ _).trans (bump_tiles _ _))]
    exact hq.free l i (sbPut_none_sb s l i)
  · rw [cinc_mem, bump_mem]; exact hq.mem

end

/-- Settles O26: `commandComplete` by the state of the entry, and the three ends of a command that has run: its signal, its saturated knot, its drop. -/
theorem commandCompletion : Obligations.CommandCompletion := fun _ _ _ =>
  ⟨fun h => ⟨_, rfl, by rw [commandComplete_free h]⟩, fun _ h => ⟨fun hr => ⟨_, rfl, by rw [commandComplete_waits h hr]⟩,
    completes_signalled h, fun _ _ hr hp hk ho hx => completes_overflowing h hr hp hk ho hx, completes_dropped h⟩⟩

end Sys2Proof.Machine
end

section
/-! PROOFS. The issue of a head command (O24, O25): what every issue does (`Issues`), the dispatcher's own operations, the entry of an engine command in
its queue, and the faults of a command at the head. -/

namespace Sys2Proof.Machine

open Sys2Proof

-- One declaration after the other: the whole text is checked within a fixed memory.
set_option Elab.async false

variable {s t u : State} {l c : Nat} {w : List Nat}

/-! ### What every issue does (R96, R98, R298) -/

theorem waitsTake_frame (s : State) (l : Nat) (v : SlotImg) (w : List Nat) : waitsTake s l v w = { s with knots := (waitsTake s l v w).knots } := by
  refine List.foldlRecOn _ _ (motive := fun t : State => t = { s with knots := t.knots }) rfl fun t ht x _ => ?_
  split
  · split
    · rw [ht]; rfl
    · exact ht
  · exact ht

/-- The command `w` of context `c` has issued from `s`: what has changed is what an issue and a trace record change. -/
structure Issues (s t : State) (l c : Nat) (w : List Nat) : Prop where
  issued : issuedBy s t l c w
  ctx : ctxGet t c = { ctxGet s c with pos := ((ctxGet s c).pos + 1) % max 1 (ctxGet s c).img.streamLen }
  others : ctxsBut s t c
  knots : t.knots = (waitsTake s l (ctxGet s c).img w).knots
  sb : ∀ k, (tileGet t k).sb = (tileGet s k).sb
  site : tileSite t = tileSite s
  pwr : t.pwr = { s.pwr with parts := t.pwr.parts }
  regs : regsBut s t [rTIL_ISSUED (tileSite s l), rOBS_TRC_LOST]
  frame : t = { s with knots := t.knots, pwr := t.pwr, ctxs := t.ctxs, tiles := t.tiles, regs := t.regs, obs := t.obs, freeCtr := t.freeCtr }

theorem issuedBy_congr (h : issuedBy s t l c w) (hpos : (ctxGet u c).pos = (ctxGet t c).pos)
    (hcnt : tget 0 u.obs.cnt (cTile l 7) = tget 0 t.obs.cnt (cTile l 7)) (hreg : rg u (rTIL_ISSUED (tileSite s l)) = rg t (rTIL_ISSUED (tileSite s l)))
    (hpwr : u.pwr.parts = t.pwr.parts) : issuedBy s u l c w := by
  obtain ⟨h1, h2, h3, h4, h5⟩ := h
  refine ⟨hpos.trans h1, hcnt.trans h2, hreg.trans h3, ?_, ?_⟩
  · rw [pwrGet, hpwr, ← pwrGet]; exact h4
  · rw [pwrGet, hpwr, ← pwrGet]; exact h5

/-- The scope of a tile restarts its own count only. -/
theorem scopeStart_cnt (s : State) (l e c : Nat) {i : Nat} (hi : i ≠ cTile l 18) : tget 0 (scopeStart s l e c).obs.cnt i = tget 0 s.obs.cnt i := by
  unfold scopeStart
  extract_lets
  split
  · exact tget_tset_other 0 s.obs.cnt 0 hi.symm
  · rfl

theorem scopeStart_frame (s : State) (l e c : Nat) : scopeStart s l e c = { s with obs := (scopeStart s l e c).obs } := by
  unfold scopeStart
  extract_lets
  split <;> rfl

/-- The issue of a command but for its counts: the waits, the bucket, the ring, the round robin. -/
def issueMoved (s : State) (l c : Nat) (x : Ctx) (w : List Nat) : State :=
  let s := charge (waitsTake s l x.img w) (tilePart s l) (costOf s x w)
  let s := ctxPut s c { ctxGet s c with pos := (x.pos + 1) % max 1 x.img.streamLen }
  let t := tileGet s l
  tilePut s l { t with rr := tset 1023 t.rr (prioOf s c) (c % 1024), lastIssue := s.gt }

theorem issueTaken_eq (s : State) (l c : Nat) (x : Ctx) (w : List Nat) : issueTaken s l c x w =
    scopeStart (cinc (bump (issueMoved s l c x w) (rTIL_ISSUED (tileSite (issueMoved s l c x w) l))) (cTile l 7) 1) l (cwEngine w) c := rfl

theorem charge_pwr (s : State) (p n : Nat) : (charge s p n).pwr = { s.pwr with parts := (charge s p n).pwr.parts } := rfl

theorem pwrGet_charge (s : State) (p n : Nat) :
    pwrGet (charge s p n) p = { pwrGet s p with bucket := (pwrGet s p).bucket - n, spent := (pwrGet s p).spent + n } := tget_tset_same _ _ _ _

section
variable (s : State) (l c : Nat) (x : Ctx) (w : List Nat)

theorem issueMoved_frame : issueMoved s l c x w = { s with
    knots := (issueMoved s l c x w).knots, pwr := (issueMoved s l c x w).pwr, obs := (issueMoved s l c x w).obs,
    ctxs := (issueMoved s l c x w).ctxs, tiles := (issueMoved s l c x w).tiles } := by
  unfold issueMoved
  rw [waitsTake_frame]
  rfl

theorem issueMoved_knots : (issueMoved s l c x w).knots = (waitsTake s l x.img w).knots := by
  unfold issueMoved
  rw [waitsTake_frame]
  rfl

theorem issueMoved_pwr : (issueMoved s l c x w).pwr = (charge s (tilePart s l) (costOf s x w)).pwr := by
  unfold issueMoved
  rw [waitsTake_frame]
  rfl

theorem issueMoved_ctx : ctxGet (issueMoved s l c x w) c = { ctxGet s c with pos := (x.pos + 1) % max 1 x.img.streamLen } := by
  unfold issueMoved
  rw [waitsTake_frame]
  exact ctxGet_ctxPut_same _ _ _

theorem issueMoved_others : ctxsBut s (issueMoved s l c x w) c := by
  unfold issueMoved
  rw [waitsTake_frame]
  exact ctxsBut_ctxPut _ _ _

theorem issueMoved_tile (k : Nat) : ∃ r a, tileGet (issueMoved s l c x w) k = { tileGet s k with rr := r, lastIssue := a } := by
  unfold issueMoved
  rw [waitsTake_frame]
  extract_lets u v t
  rw [tileGet_tilePut]
  split
  · subst_vars
    exact ⟨_, _, rfl⟩
  · exact ⟨_, _, rfl⟩

theorem issueMoved_sb (k : Nat) : (tileGet (issueMoved s l c x w) k).sb = (tileGet s k).sb := by
  obtain ⟨_, _, h⟩ := issueMoved_tile s l c x w k
  rw [h]

theorem issueMoved_site : tileSite (issueMoved s l c x w) = tileSite s := by
  funext k
  obtain ⟨_, _, h⟩ := issueMoved_tile s l c x w k
  rw [tileSite, h, tileSite]

theorem issueMoved_cnt : tget 0 (issueMoved s l c x w).obs.cnt (cTile l 7) = tget 0 s.obs.cnt (cTile l 7) := by
  unfold issueMoved
  rw [waitsTake_frame]
  exact (cnt_cinc _ _ _ _).trans (if_neg (by simp only [cPart, cTile]; omega))

end

/-- The counts of an issue: a register, an always-on counter, the scope. -/
def issueCounted (s : State) (r i l e c : Nat) : State := scopeStart (cinc (bump s r) i 1) l e c

theorem issueCounted_frame (s : State) (r i l e c : Nat) :
    issueCounted s r i l e c = { s with regs := (issueCounted s r i l e c).regs, obs := (issueCounted s r i l e c).obs } := by
  rw [issueCounted, scopeStart_frame]
  rfl

theorem issueCounted_cnt (s : State) (r l e c : Nat) : cntUp s (issueCounted s r (cTile l 7) l e c) (cTile l 7) 1 :=
  (scopeStart_cnt _ _ _ _ (by simp only [cTile]; omega)).trans ((cnt_cinc _ _ _ _).trans (if_pos rfl))

theorem issueCounted_regs (s : State) (r i l e c x : Nat) : rg (issueCounted s r i l e c) x = rg (bump s r) x :=
  rg_congr (by rw [issueCounted, scopeStart_frame, cinc_regs]) x

theorem issuedFrame_trans {m : State} (hm : m = { s with knots := m.knots, pwr := m.pwr, obs := m.obs, ctxs := m.ctxs, tiles := m.tiles })
    (ht : t = { m with regs := t.regs, obs := t.obs }) :
    t = { s with knots := t.knots, pwr := t.pwr, ctxs := t.ctxs, tiles := t.tiles, regs := t.regs, obs := t.obs, freeCtr := t.freeCtr } := by
  rw [ht, hm]

/-- Every issue (R96, R98, R298). -/
theorem issues_issueTaken (s : State) (l c : Nat) (w : List Nat) : Issues s (issueTaken s l c (ctxGet s c) w) l c w := by
  have hf := issueMoved_frame s l c (ctxGet s c) w
  have hk := issueMoved_knots s l c (ctxGet s c) w
  have hpw := issueMoved_pwr s l c (ctxGet s c) w
  have hx := issueMoved_ctx s l c (ctxGet s c) w
  have ho := issueMoved_others s l c (ctxGet s c) w
  have hs := issueMoved_sb s l c (ctxGet s c) w
  have hsite := issueMoved_site s l c (ctxGet s c) w
  have hn := issueMoved_cnt s l c (ctxGet s c) w
  rw [issueTaken_eq, hsite]
  generalize issueMoved s l c (ctxGet s c) w = m at *
  generalize hr : rTIL_ISSUED (tileSite s l) = r
  have hup := issueCounted_cnt m r l (cwEngine w) c
  have hreg := issueCounted_regs m r (cTile l 7) l (cwEngine w) c
  have ht := issueCounted_frame m r (cTile l 7) l (cwEngine w) c
  change Issues s (issueCounted m r (cTile l 7) l (cwEngine w) c) l c w
  generalize issueCounted m r (cTile l 7) l (cwEngine w) c = t at *
  have hrm : ∀ y, rg m y = rg s y := rg_congr (by rw [hf])
  have hp : t.pwr = (charge s (tilePart s l) (costOf s (ctxGet s c) w)).pwr := by rw [ht, hpw]
  have hct : t.ctxs = m.ctxs := by rw [ht]
  have hti : t.tiles = m.tiles := by rw [ht]
  refine ⟨⟨?_, hup.trans (by rw [hn]), ?_, ?_, ?_⟩, ?_, ?_, ?_, ?_, ?_, ?_, ?_, ?_⟩
  · rw [ctxGet_congr hct, hx]
  · rw [counted, hr, hreg, rg_bump_same, hrm]
  · rw [pwrGet, hp]
    exact congrArg PwrPart.bucket (pwrGet_charge s (tilePart s l) (costOf s (ctxGet s c) w))
  · rw [pwrGet, hp]
    exact congrArg PwrPart.spent (pwrGet_charge s (tilePart s l) (costOf s (ctxGet s c) w))
  · rw [ctxGet_congr hct, hx]
  · exact fun d hd => (ctxGet_congr hct d).trans (ho d hd)
  · rw [ht, hk]
  · intro k
    rw [tileGet_congr hti, hs]
  · rw [← hsite]
    funext k
    rw [tileSite, tileGet_congr hti, tileSite]
  · rw [hp]
    exact charge_pwr _ _ _
  · intro y hy
    rw [hr] at hy
    rw [hreg, rg_bump_other _ (fun e => hy (by simp [e])), hrm]
  · exact issuedFrame_trans hf ht

theorem Issues.traces (h : Issues s t l c w) (k : Traces t u) : Issues s u l c w := by
  have hf := k.frame
  have hc : u.ctxs = t.ctxs := by rw [hf]
  have ht : u.tiles = t.tiles := by rw [hf]
  have hreg : ∀ y, y ≠ rOBS_TRC_LOST → rg u y = rg t y := fun y hy => k.regs y (by simpa using hy)
  refine ⟨issuedBy_congr h.issued ?_ ?_ ?_ ?_, ?_, ?_, ?_, ?_, ?_, ?_, ?_, ?_⟩
  · rw [ctxGet_congr hc]
  · rw [k.cnt]
  · refine hreg _ ?_
    simp only [tilA, obsA]
    omega
  · rw [hf]
  · rw [ctxGet_congr hc, h.ctx]
  · exact fun d hd => (ctxGet_congr hc d).trans (h.others d hd)
  · rw [hf]; exact h.knots
  · intro i
    rw [tileGet_congr ht, h.sb]
  · rw [← h.site]
    funext i
    rw [tileSite, tileGet_congr ht, tileSite]
  · rw [hf]; exact h.pwr
  · intro y hy
    rw [hreg y (fun e => hy (by simp [e])), h.regs y hy]
  · rw [hf, h.frame]

end Sys2Proof.Machine
end

section
/-! PROOFS. The spaces of a context (for O24, O32, O34): what the place of an operand depends on, and what a read and a write of a space do to device
memory where nothing stored has an error. -/

namespace Sys2Proof.Machine

open Sys2Proof

-- One declaration after the other: the whole text is checked within a fixed memory.
set_option Elab.async false

variable {s t u : State}

/-! ### The place of an operand -/

/-- The spaces of `t` lie where those of `s` lie: same sites, same GLB_CONFIG. -/
structure SameSpaces (s t : State) : Prop where
  site : tileSite t = tileSite s
  config : rg t rGLB_CONFIG = rg s rGLB_CONFIG

theorem SameSpaces.refl (s : State) : SameSpaces s s := ⟨rfl, rfl⟩

theorem SameSpaces.trans (h : SameSpaces s t) (k : SameSpaces t u) : SameSpaces s u := ⟨k.site.trans h.site, k.config.trans h.config⟩

section
variable (h : SameSpaces s t)
include h

theorem SameSpaces.unguarded : Machine.unguarded t = Machine.unguarded s := by
  simp only [Machine.unguarded, rgb, h.config]

theorem SameSpaces.tilePart : Machine.tilePart t = Machine.tilePart s := by
  funext l
  simp only [Machine.tilePart, h.unguarded]

theorem SameSpaces.tilePlace : Machine.tilePlace t = Machine.tilePlace s := by
  funext l
  simp only [Machine.tilePlace, firstTile, h.tilePart, h.unguarded]

theorem SameSpaces.braided : Machine.braided t = Machine.braided s := by
  funext l
  simp only [Machine.braided, h.tilePlace, h.tilePart, rgf, h.config]

theorem SameSpaces.members : Machine.members t = Machine.members s := by
  funext l
  rw [Machine.members, h.braided, ← Machine.members]

theorem SameSpaces.sramA : Machine.sramA t = Machine.sramA s := by
  funext l a
  simp only [Machine.sramA, h.braided, h.site]

theorem SameSpaces.physA : Machine.physA t = Machine.physA s := by
  funext l v sp a
  simp only [Machine.physA, h.sramA]

theorem SameSpaces.pieces : Machine.pieces t = Machine.pieces s := by
  funext l v sp a n
  simp only [Machine.pieces, h.physA]

theorem SameSpaces.spR (hm : t.mem = s.mem) : Machine.spR t = Machine.spR s := by
  funext l v sp a n
  simp only [Machine.spR, h.pieces, memR, hm]

end

/-! ### Nothing stored has an error -/

theorem intact_congr (hb : t.bad = s.bad) (hg : t.pwr.groups = s.pwr.groups) (h : intact s) : intact t := by rwa [intact, hb, hg]

theorem devBad_intact (h : intact s) (a n : Nat) : devBad s a n = none := by
  obtain ⟨hbad, hfence⟩ := h
  simp only [devBad, fencedAt, hfence, or_true, if_true, memBad, hbad, List.find?_nil, Option.map_none, Option.orElse_none]

theorem spBad_intact (h : intact s) (l : Nat) (v : SlotImg) (sp a n : Nat) : spBad s l v sp a n = none := by
  unfold spBad
  split
  · rfl
  · exact List.findSome?_eq_none_iff.mpr fun e _ => devBad_intact h e.1 e.2

end Sys2Proof.Machine
end

section
/-! PROOFS. A head command issues (O24, O25): the command that issues, the operations that the dispatcher completes at issue, the entry of an engine
command in its queue, and the faults of a command at the head. -/

namespace Sys2Proof.Machine

open Sys2Proof

-- One declaration after the other: the whole text is checked within a fixed memory.
set_option Elab.async false

variable {s t u : State} {l c e op : Nat} {w : List Nat}

/-! ### The command that issues (R98) -/

/-- A fold that at each element keeps what it had or takes the element ends with one of the list, or with what it began. -/
theorem mem_of_foldl_pick {α : Type} {f : Option α → α → Option α} (hf : ∀ a x y, f a x = some y → y = x ∨ a = some y) {y : α} (xs : List α) :
    ∀ a, xs.foldl f a = some y → y ∈ xs ∨ a = some y := by
  induction xs with
  | nil => exact fun a h => .inr h
  | cons x xs ih =>
    intro a h
    rcases ih _ h with hm | ha
    · exact .inl (List.mem_cons_of_mem x hm)
    · exact (hf a x y ha).elim (fun e => .inl (by simp [e])) .inr

theorem issuable_of_candidate (h : candidate s l = some c) : issuable s l c = true := by
  unfold candidate at h
  extract_lets cs rank at h
  refine (mem_of_foldl_pick ?_ _ _ h).elim (fun hm => (List.mem_filter.mp hm).2) nofun
  rintro (_ | b) x y hy
  · exact .inl (Option.some.inj hy).symm
  · dsimp only at hy
    split at hy
    exacts [.inl (Option.some.inj hy).symm, .inr hy]

theorem issuable_iff : issuable s l c = true ↔ (ctxRuns (ctxGet s c) = true ∧ headFault s c = none) ∧ issueConds s l c (headOf s c) = true ∧
    tokensOk s (tilePart s l) (bits (ctxGet s c).cfg 28 27) (costOf s (ctxGet s c) (headOf s c)) = true := by
  simp only [issuable, Bool.and_eq_true, Option.isNone_iff_eq_none, and_assoc]

theorem state_of_ctxRuns {x : Ctx} (h : ctxRuns x = true) : x.state = 1 := by
  simp only [ctxRuns, Bool.and_eq_true, beq_iff_eq] at h
  obtain ⟨⟨⟨hs, -⟩, -⟩, -⟩ := h
  exact hs

section
variable (h : candidate s l = some c)
include h

theorem candidate_active : (ctxGet s c).state = 1 := state_of_ctxRuns (issuable_iff.mp (issuable_of_candidate h)).1.1

theorem candidate_sbFree : (sbFree s l).isSome = true := by
  have hc := (issuable_iff.mp (issuable_of_candidate h)).2.1
  simp only [issueConds, Bool.and_eq_true] at hc
  obtain ⟨⟨⟨⟨-, hfree⟩, -⟩, -⟩, -⟩ := hc
  exact hfree

theorem candidate_untripped : s.pwr.tripped = false := by
  have hc := (issuable_iff.mp (issuable_of_candidate h)).2.1
  simp only [issueConds, Bool.and_eq_true, issueHeld, Bool.not_eq_true', Bool.or_eq_false_iff] at hc
  exact hc.2.1.2

end

theorem rowIs_iff (he : e < 6) (hop : op < engineOps e) (hw : cwEngine w = e) (ho : cwOp w = op) : rowIs e op w = true := by
  subst hw ho
  simp [rowIs, not_le.mpr he, not_le.mpr hop]

theorem issuesNow_candidate (h : issuesNow s l e op c w) : candidate s l = some c := h.2.1

theorem issueRow_issues {hits : List EngHit} (h : issuesNow s l e op c w) (he : e < 6) (hop : op < engineOps e) :
    issueRow e op l hits s = issueCmd s l c w hits := by
  obtain ⟨hbad, hc, rfl, hw, ho, -⟩ := h
  simp only [issueRow, hbad, hc, rowIs_iff he hop hw ho, if_true]

/-! ### The operations of the dispatcher (Table TIL-4) -/

/-- What an operation of the dispatcher for context `c` leaves: memory, registers, tiles, energy; of the context its ring and state, and every other
context; the counts of issued commands. -/
structure DispKeeps (l c : Nat) (s t : State) : Prop where
  frame : t = { s with knots := t.knots, ctxs := t.ctxs, obs := t.obs, vds := t.vds }
  others : ctxsBut s t c
  pos : (ctxGet t c).pos = (ctxGet s c).pos
  state : (ctxGet t c).state = (ctxGet s c).state
  cnt : tget 0 t.obs.cnt (cTile l 7) = tget 0 s.obs.cnt (cTile l 7)

theorem DispKeeps.refl (s : State) : DispKeeps l c s s := ⟨rfl, fun _ _ => rfl, rfl, rfl, rfl⟩

theorem dispKeeps_ctxPut {x : Ctx} (hp : x.pos = (ctxGet s c).pos) (hs : x.state = (ctxGet s c).state) : DispKeeps l c s (ctxPut s c x) :=
  ⟨rfl, ctxsBut_ctxPut _ _ _, by rw [ctxGet_ctxPut_same, hp], by rw [ctxGet_ctxPut_same, hs], rfl⟩

theorem dispKeeps_knotPut {v : SlotImg} {k n : Nat} : DispKeeps l c s (knotPut s l v k n) := ⟨rfl, fun _ _ => rfl, rfl, rfl, rfl⟩

/-- The end of a dispatcher command: its fault or its signal. -/
def dispEnd (r : State × Option CtxFlt) (l c : Nat) (v : SlotImg) (w : List Nat) : State :=
  match r with
  | (s, some f) => engFault s l c 0 0 f
  | (s, none) => signal s l c 0 v (sigOf w)

/-- A dispatcher command issues, then its operation runs to its end. -/
theorem issueCmd_dispatcher (h : issuesNow s l 0 op c w) :
    ∃ u, Issues s u l c w ∧ issueCmd s l c w [] = dispEnd (dispOp u l c w) l c (ctxGet s c).img w := by
  obtain ⟨-, -, -, hw, -, hf⟩ := h
  refine ⟨_, (issues_issueTaken s l c w).traces (traces_traceCmd _ (traced (issueTaken s l c (ctxGet s c) w) l 0 c) l c 0 false false false
    (ctxGet s c).pos 0 (ctxGet s c).ply), ?_⟩
  simp only [issueCmd, hf, hw, if_true]
  rfl

/-! ### TAKE and POST (R91, R92) -/

/-- A map that keeps the keys. -/
theorem tget_map_value {α : Type} {f : Nat × Option α → Nat × Option α} {g : Nat → Option α → Option α} (hf : ∀ e, f e = (e.1, g e.1 e.2))
    (hg : ∀ i, g i none = none) (m : Tab (Option α)) (i : Nat) : tget none (m.map f) i = g i (tget none m i) := by
  induction m with
  | nil => exact (hg i).symm
  | cons e m ih =>
    obtain ⟨j, v⟩ := e
    rw [List.map_cons, hf]
    simp only [tget]
    split
    · subst_vars; rfl
    · exact ih

/-- A filter of the keys. -/
theorem tget_filter_key {α : Type} (d : α) (p : Nat → Bool) (m : Tab α) (i : Nat) :
    tget d (m.filter fun e => p e.1) i = if p i then tget d m i else d := by
  induction m with
  | nil => simp [tget]
  | cons e m ih =>
    obtain ⟨j, v⟩ := e
    by_cases hj : j = i
    · subst hj
      by_cases hp : p j = true <;> simp [hp, tget, ih]
    · by_cases hp : p j = true <;> simp [hp, tget, hj, ih]

theorem ite_mk_eq {α β : Type} {p : Prop} [Decidable p] (e : α × β) (y : β) : (if p then (e.1, y) else e) = (e.1, if p then y else e.2) := by
  split <;> rfl

/-- The requests that the next TAKE takes, from the oldest on (R91). -/
def takenReqs (x : Ctx) : Nat :=
  min (pendingReqs x) (min (mark64 (bits x.cfg 6 0)) ((List.range (64 - oldestBuf x)).takeWhile fun i =>
    match tget none x.bufs (oldestBuf x + i) with | some r => !r.taken | none => false).length)

theorem opTake_ctx (s : State) (c : Nat) : ∃ bufs toks,
    opTake s c = ctxPut s c { ctxGet s c with b := oldestBuf (ctxGet s c), n := takenReqs (ctxGet s c), fresh := true, bufs := bufs, toks := toks } ∧
    ∀ i, tget none bufs i = if oldestBuf (ctxGet s c) ≤ i ∧ i < oldestBuf (ctxGet s c) + takenReqs (ctxGet s c) then
      (tget none (ctxGet s c).bufs i).map fun r : RBuf => { r with taken := true } else tget none (ctxGet s c).bufs i := by
  refine ⟨_, _, rfl, fun i => ?_⟩
  refine tget_map_value (g := fun i o => if oldestBuf (ctxGet s c) ≤ i ∧ i < oldestBuf (ctxGet s c) + takenReqs (ctxGet s c) then
      o.map fun r : RBuf => { r with taken := true } else o) ?_ ?_ _ i
  · intro e
    exact ite_mk_eq e _
  · intro i
    split <;> rfl

/-- The result record of request `j` of the batch that goes to verdict unit `p`, if it goes there (R92). -/
def postedTo (s : State) (l c : Nat) (x : Ctx) (w : List Nat) (p j : Nat) : Option VdIn :=
  (tget none x.bufs (x.b + j)).bind fun r =>
    let b := resultRec (spR s l x.img (opdOf x.img x.b j (cwOpd w 0)).sp (opdOf x.img x.b j (cwOpd w 0)).a 16) r.nan
    if r.part = p then some { refusal := false, slot := r.slot, ctx := c, ply := x.ply, gen := x.img.gen, body := b } else none

/-- POST of request `j`: its result record goes to its verdict unit. -/
def postReq (l c : Nat) (x : Ctx) (w : List Nat) (s : State) (j : Nat) : State :=
  match tget none x.bufs (x.b + j) with
  | none => s
  | some r =>
    let b := resultRec (spR s l x.img (opdOf x.img x.b j (cwOpd w 0)).sp (opdOf x.img x.b j (cwOpd w 0)).a 16) r.nan
    cinc (vdPush s r.part { refusal := false, slot := r.slot, ctx := c, ply := x.ply, gen := x.img.gen, body := b }) (cTile l 11) 1

/-- The requests `js` of the batch have been posted. -/
structure Posted (l c : Nat) (x : Ctx) (w : List Nat) (js : List Nat) (s t : State) : Prop where
  frame : t = { s with obs := t.obs, vds := t.vds }
  cnt : tget 0 t.obs.cnt (cTile l 7) = tget 0 s.obs.cnt (cTile l 7)
  inq : ∀ p, (vdGet t p).inq = (vdGet s p).inq ++ js.filterMap (postedTo s l c x w p)

theorem vdGet_vdPush (s : State) (q p : Nat) (i : VdIn) : (vdGet (vdPush s q i) p).inq = (vdGet s p).inq ++ if q = p then [i] else [] := by
  rw [vdPush, vdPut, vdGet, tget_tset]
  split
  · subst_vars; rfl
  · rw [← vdGet, List.append_nil]

theorem posted_foldl (s : State) (l c : Nat) (x : Ctx) (w : List Nat) (js : List Nat) : Posted l c x w js s (js.foldl (postReq l c x w) s) := by
  induction js using List.reverseRecOn with
  | nil => exact ⟨rfl, rfl, fun p => (List.append_nil _).symm⟩
  | append_singleton js j ih =>
    rw [List.foldl_append, List.foldl_cons, List.foldl_nil]
    obtain ⟨hf, hc, hq⟩ := ih
    generalize js.foldl (postReq l c x w) s = t at *
    have hr : spR t = spR s := by rw [hf]; rfl
    unfold postReq
    split
    · next hb => exact ⟨hf, hc, fun p => by rw [hq, List.filterMap_append]; simp [postedTo, hb]⟩
    · next r hb =>
      refine ⟨?_, ?_, fun p => ?_⟩
      · rw [hf]; rfl
      · rw [cnt_cinc, if_neg (by simp only [cTile]; omega)]; exact hc
      · have hv : ∀ z i n, vdGet (cinc z i n) p = vdGet z p := fun _ _ _ => rfl
        rw [hv, vdGet_vdPush, hq, hr, List.append_assoc, List.filterMap_append]
        simp only [List.filterMap_cons, List.filterMap_nil, postedTo, hb, Option.bind_some]
        split <;> rfl

/-- POST without a batch. -/
theorem opPost_none (h : (ctxGet s c).fresh = false ∨ (ctxGet s c).n = 0) : opPost s l c w = (s, some (fltAt 5 0)) :=
  if_pos (by simpa using h)

/-- POST of a batch that can be read. -/
theorem opPost_batch (hi : intact s) (hf : (ctxGet s c).fresh = true) (hn : (ctxGet s c).n ≠ 0) :
    opPost s l c w = (ctxPut ((List.range (ctxGet s c).n).foldl (postReq l c (ctxGet s c) w) s) c { ctxGet s c with
      bufs := (ctxGet s c).bufs.filter fun e => !decide ((ctxGet s c).b ≤ e.1 ∧ e.1 < (ctxGet s c).b + (ctxGet s c).n), fresh := false }, none) := by
  unfold opPost
  extract_lets x at_
  have hbad : ((List.range x.n).findSome? fun j => spBad s l x.img (at_ j).sp (at_ j).a 16) = none :=
    List.findSome?_eq_none_iff.mpr fun j _ => spBad_intact hi _ _ _ _ _
  rw [if_neg (by simp [x, hf, hn]), hbad]
  rfl

theorem dispKeeps_opPost (s : State) (l c : Nat) (w : List Nat) : DispKeeps l c s (opPost s l c w).1 := by
  unfold opPost
  extract_lets x at_
  split
  · exact DispKeeps.refl s
  · split
    · exact DispKeeps.refl s
    · obtain ⟨hf, hc, -⟩ := posted_foldl s l c x w (List.range x.n)
      change DispKeeps l c s (ctxPut ((List.range x.n).foldl (postReq l c x w) s) c _)
      generalize (List.range x.n).foldl (postReq l c x w) s = t at *
      have ht : t.ctxs = s.ctxs := by rw [hf]
      refine ⟨?_, ctxsBut_congr (ctxsBut_ctxPut _ _ _) ht, ?_, ?_, hc⟩
      · rw [hf]; rfl
      · rw [ctxGet_ctxPut_same]
      · rw [ctxGet_ctxPut_same]

theorem dispKeeps_dispOp (s : State) (l c : Nat) (w : List Nat) : DispKeeps l c s (dispOp s l c w).1 := by
  unfold dispOp
  split
  · obtain ⟨_, _, h, -⟩ := opTake_ctx s c
    rw [h]
    exact dispKeeps_ctxPut rfl rfl
  · exact dispKeeps_opPost s l c w
  · exact dispKeeps_knotPut
  · exact DispKeeps.refl s

end Sys2Proof.Machine
end

section
/-! PROOFS. The dispatcher's own commands (O24). -/

namespace Sys2Proof.Machine

open Sys2Proof

-- One declaration after the other: the whole text is checked within a fixed memory.
set_option Elab.async false

variable {s t u : State} {l c : Nat} {v : SlotImg} {w : List Nat}

/-- What O24 says that no dispatcher command that completes changes. -/
def DispFrame (s t : State) (l c : Nat) (w : List Nat) : Prop :=
  issuedBy s t l c w ∧ ctxsBut s t c ∧
  t = { s with knots := t.knots, pwr := t.pwr, ctxs := t.ctxs, tiles := t.tiles, regs := t.regs, obs := t.obs, freeCtr := t.freeCtr, vds := t.vds } ∧
  regsBut s t [rTIL_ISSUED (tileSite s l), rOBS_TRC_LOST]

theorem dispFrame (h : Issues s u l c w) (k : DispKeeps l c u t) : DispFrame s t l c w := by
  have hf := k.frame
  refine ⟨issuedBy_congr h.issued k.pos k.cnt (rg_congr (by rw [hf]) _) (by rw [hf]), fun d hd => (k.others d hd).trans (h.others d hd), ?_, ?_⟩
  · rw [hf, h.frame]
  · exact fun y hy => (rg_congr (by rw [hf]) y).trans (h.regs y hy)

/-- The signal at the end of a dispatcher command. -/
theorem dispFrame_signal (h : Issues s u l c w) (k : DispKeeps l c u t) (hs : sigFits t l v (sigOf w)) :
    DispFrame s (signal t l c 0 v (sigOf w)) l c w ∧ signalled t (signal t l c 0 v (sigOf w)) l v (sigOf w) ∧
    (signal t l c 0 v (sigOf w)).ctxs = t.ctxs ∧ (signal t l c 0 v (sigOf w)).vds = t.vds := by
  obtain ⟨hk, hf⟩ := signal_fits (c := c) (unit := 0) hs
  refine ⟨dispFrame h ⟨?_, ?_, ?_, ?_, ?_⟩, hk, ?_, ?_⟩
  · rw [hf, k.frame]
  · rw [hf]; exact k.others
  · rw [hf]; exact k.pos
  · rw [hf]; exact k.state
  · rw [hf]; exact k.cnt
  · rw [hf]
  · rw [hf]

theorem issues_intact (h : Issues s u l c w) (hi : intact s) : intact u := intact_congr (by rw [h.frame]) (by rw [h.pwr]) hi

theorem issues_spaces (h : Issues s u l c w) : SameSpaces s u := ⟨h.site, h.regs _ (by
  simp only [tilA, obsA, glbA, List.mem_cons, List.not_mem_nil, or_false, not_or]
  omega)⟩

theorem vdGet_ctxPut (s : State) (c p : Nat) (x : Ctx) : vdGet (ctxPut s c x) p = vdGet s p := rfl

theorem dispOp_nop (h : cwOp w = 0) : dispOp s l c w = (s, none) := by simp only [dispOp, h]

theorem dispOp_take (h : cwOp w = 1) : dispOp s l c w = (opTake s c, none) := by simp only [dispOp, h]

theorem dispOp_post (h : cwOp w = 2) : dispOp s l c w = opPost s l c w := by simp only [dispOp, h]

theorem dispOp_kset (h : cwOp w = 3) :
    dispOp s l c w = (knotPut s l (ctxGet s c).img (cwOpd w 0 % 8192) (cwOpd w 1 % 2 ^ 30), none) := by simp only [dispOp, h]

theorem runsTo_dispatcher {op : Nat} {i : Instr} {P : State → Prop} (hop : op < 4) (hx : exec i s = .next (issueRow 0 op l [] s))
    (h : issuesNow s l 0 op c w)
    (hP : ∀ u, Issues s u l c w → P (dispEnd (dispOp u l c w) l c (ctxGet s c).img w)) : runsTo i s P := by
  obtain ⟨u, hu, he⟩ := issueCmd_dispatcher h
  refine ⟨_, hx, ?_⟩
  rw [issueRow_issues h (by omega) hop, he]
  exact hP u hu

theorem runsTo_nop (h : issuesNow s l 0 0 c w) (hs : sigFits (waitsTake s l (ctxGet s c).img w) l (ctxGet s c).img (sigOf w)) :
    runsTo (.nop ⟨l, []⟩) s fun t => DispFrame s t l c w ∧ signalled (waitsTake s l (ctxGet s c).img w) t l (ctxGet s c).img (sigOf w) ∧
      (ctxGet t c).bufs = (ctxGet s c).bufs ∧ t.vds = s.vds := by
  refine runsTo_dispatcher (l := l) (by omega) rfl h fun u hu => ?_
  obtain ⟨-, -, -, -, hop, -⟩ := h
  have hd : dispOp u l c w = (u, none) := dispOp_nop hop
  obtain ⟨hf, hk, hc, hv⟩ := dispFrame_signal hu (DispKeeps.refl u) (sigFits_congr hu.knots hs)
  rw [hd, dispEnd]
  refine ⟨hf, signalled_congr hu.knots hk, ?_, ?_⟩
  · rw [ctxGet_congr hc, hu.ctx]
  · rw [hv, hu.frame]

theorem runsTo_kset (h : issuesNow s l 0 3 c w)
    (hs : sigFits (knotPut (waitsTake s l (ctxGet s c).img w) l (ctxGet s c).img (cwOpd w 0 % 8192) (cwOpd w 1 % 2 ^ 30)) l (ctxGet s c).img (sigOf w)) :
    runsTo (.kset ⟨l, []⟩) s fun t => DispFrame s t l c w ∧
      signalled (knotPut (waitsTake s l (ctxGet s c).img w) l (ctxGet s c).img (cwOpd w 0 % 8192) (cwOpd w 1 % 2 ^ 30)) t l (ctxGet s c).img (sigOf w) ∧
      (ctxGet t c).bufs = (ctxGet s c).bufs ∧ t.vds = s.vds := by
  refine runsTo_dispatcher (l := l) (by omega) rfl h fun u hu => ?_
  obtain ⟨-, -, -, -, hop, -⟩ := h
  have hd : dispOp u l c w = (knotPut u l (ctxGet s c).img (cwOpd w 0 % 8192) (cwOpd w 1 % 2 ^ 30), none) := by
    rw [dispOp_kset hop, hu.ctx]
  have hkn : (knotPut u l (ctxGet s c).img (cwOpd w 0 % 8192) (cwOpd w 1 % 2 ^ 30)).knots =
      (knotPut (waitsTake s l (ctxGet s c).img w) l (ctxGet s c).img (cwOpd w 0 % 8192) (cwOpd w 1 % 2 ^ 30)).knots := by
    rw [knotPut, knotPut, hu.knots]
  obtain ⟨hf, hk, hc, hv⟩ := dispFrame_signal hu dispKeeps_knotPut (sigFits_congr hkn hs)
  rw [hd, dispEnd]
  refine ⟨hf, signalled_congr hkn hk, ?_, ?_⟩
  · rw [ctxGet_congr hc]
    change (ctxGet u c).bufs = _
    rw [hu.ctx]
  · exact hv.trans (by rw [knotPut, hu.frame])

theorem runsTo_take (h : issuesNow s l 0 1 c w) (hs : sigFits (waitsTake s l (ctxGet s c).img w) l (ctxGet s c).img (sigOf w)) :
    runsTo (.take ⟨l, []⟩) s fun t => DispFrame s t l c w ∧ signalled (waitsTake s l (ctxGet s c).img w) t l (ctxGet s c).img (sigOf w) ∧
      t.vds = s.vds ∧ (ctxGet t c).b = oldestBuf (ctxGet s c) ∧ (ctxGet t c).n = takenReqs (ctxGet s c) ∧ (ctxGet t c).fresh = true ∧
      ∀ i, tget none (ctxGet t c).bufs i = if oldestBuf (ctxGet s c) ≤ i ∧ i < oldestBuf (ctxGet s c) + takenReqs (ctxGet s c) then
        (tget none (ctxGet s c).bufs i).map fun r => { r with taken := true } else tget none (ctxGet s c).bufs i := by
  refine runsTo_dispatcher (l := l) (by omega) rfl h fun u hu => ?_
  obtain ⟨-, -, -, -, hop, -⟩ := h
  have hd : dispOp u l c w = (opTake u c, none) := dispOp_take hop
  obtain ⟨bufs, toks, ht, hb⟩ := opTake_ctx u c
  have hkeep : DispKeeps l c u (opTake u c) := by
    rw [ht]
    exact dispKeeps_ctxPut rfl rfl
  have hkn : (opTake u c).knots = (waitsTake s l (ctxGet s c).img w).knots := by
    rw [ht]
    exact hu.knots
  obtain ⟨hf, hk, hc, hv⟩ := dispFrame_signal hu hkeep (sigFits_congr hkn hs)
  rw [hd, dispEnd, ctxGet_congr hc]
  rw [hu.ctx] at ht hb
  refine ⟨hf, signalled_congr hkn hk, ?_⟩
  rw [hv, ht, ctxGet_ctxPut_same]
  exact ⟨by rw [hu.frame]; rfl, rfl, rfl, rfl, hb⟩

theorem runsTo_post (h : issuesNow s l 0 2 c w) (hs : sigFits (waitsTake s l (ctxGet s c).img w) l (ctxGet s c).img (sigOf w)) (hi : intact s)
    (hfr : (ctxGet s c).fresh = true) (hn : (ctxGet s c).n ≠ 0) :
    runsTo (.post ⟨l, []⟩) s fun t => DispFrame s t l c w ∧ signalled (waitsTake s l (ctxGet s c).img w) t l (ctxGet s c).img (sigOf w) ∧
      (ctxGet t c).fresh = false ∧
      (∀ p, (vdGet t p).inq = (vdGet s p).inq ++ (List.range (ctxGet s c).n).filterMap (postedTo s l c (ctxGet s c) w p)) ∧
      ∀ i, tget none (ctxGet t c).bufs i =
        if (ctxGet s c).b ≤ i ∧ i < (ctxGet s c).b + (ctxGet s c).n then none else tget none (ctxGet s c).bufs i := by
  refine runsTo_dispatcher (l := l) (by omega) rfl h fun u hu => ?_
  obtain ⟨-, -, -, -, hop, -⟩ := h
  have hx := hu.ctx
  have hd : dispOp u l c w = opPost u l c w := dispOp_post hop
  have hp := opPost_batch (l := l) (w := w) (issues_intact hu hi) (by rw [hx]; exact hfr) (by rw [hx]; exact hn)
  have hkeep := dispKeeps_opPost u l c w
  have hr : ∀ p, postedTo u l c (ctxGet u c) w p = postedTo s l c (ctxGet s c) w p := fun p => by
    funext j
    simp only [postedTo, hx, (issues_spaces hu).spR (by rw [hu.frame])]
  rw [hd, hp, dispEnd]
  rw [hp] at hkeep
  obtain ⟨hfm, -, hq⟩ := posted_foldl u l c (ctxGet u c) w (List.range (ctxGet u c).n)
  generalize (List.range (ctxGet u c).n).foldl (postReq l c (ctxGet u c) w) u = z at *
  generalize ht : ctxPut z c _ = t at *
  have hkn : t.knots = (waitsTake s l (ctxGet s c).img w).knots := by
    rw [← ht]
    exact (show z.knots = u.knots by rw [hfm]).trans hu.knots
  obtain ⟨hf, hk, hc, hv⟩ := dispFrame_signal hu hkeep (sigFits_congr hkn hs)
  refine ⟨hf, signalled_congr hkn hk, ?_, fun p => ?_, fun i => ?_⟩
  · rw [ctxGet_congr hc, ← ht, ctxGet_ctxPut_same]
  · rw [vdGet, hv, ← vdGet, ← ht, vdGet_ctxPut, hq, hr, hx]
    exact congrArg (fun q => (tget vd0 q p).inq ++ _) (show u.vds = s.vds by rw [hu.frame])
  · rw [ctxGet_congr hc, ← ht, ctxGet_ctxPut_same, hx]
    refine (tget_filter_key none (fun i => !decide ((ctxGet s c).b ≤ i ∧ i < (ctxGet s c).b + (ctxGet s c).n)) (ctxGet s c).bufs i).trans ?_
    by_cases hi : (ctxGet s c).b ≤ i ∧ i < (ctxGet s c).b + (ctxGet s c).n <;> simp [hi]

theorem runsTo_post_order (h : issuesNow s l 0 2 c w) (hn : (ctxGet s c).fresh = false ∨ (ctxGet s c).n = 0) :
    runsTo (.post ⟨l, []⟩) s fun t => faultsWith t c 5 ∧ ctxsBut s t c ∧ t.mem = s.mem := by
  refine runsTo_dispatcher (l := l) (by omega) rfl h fun u hu => ?_
  obtain ⟨-, hcand, -, -, hop, -⟩ := h
  have hx := hu.ctx
  have hact : (ctxGet u c).state = 1 := by
    rw [hx]
    exact candidate_active hcand
  have hd : dispOp u l c w = (u, some (fltAt 5 0)) := (dispOp_post hop).trans (opPost_none (by rw [hx]; exact hn))
  have he : engFault u l c 0 0 (fltAt 5 0) = ctxFault u c 0 (fltAt 5 0) := rfl
  have hft := ctxFault_turns 0 (fltAt 5 0) hact
  rw [hd, dispEnd, he]
  refine ⟨⟨?_, ?_⟩, fun d hd => (hft.others d hd).trans ?_, hft.mem.trans ((faultNoted_mem u c).trans ?_)⟩
  · rw [hft.ctx]; rfl
  · rw [hft.ctx]; rfl
  · exact (ctxGet_congr (faultNoted_ctxs u c) d).trans (hu.others d hd)
  · rw [hu.frame]

/-- Settles O24: one lemma for each operation of the dispatcher. -/
theorem dispatcherCommands : Obligations.DispatcherCommands := fun _ _ _ _ =>
  ⟨fun h hs => runsTo_nop h hs, fun h hs => runsTo_kset h hs, fun h hs => runsTo_take h hs, fun h hs hi hf hn => runsTo_post h hs hi hf hn,
    fun h hn => runsTo_post_order h hn⟩

end Sys2Proof.Machine
end

section
/-! PROOFS. The scoreboard of a tile (R99): the entries in use after a store, the free entry, the entries of an engine, the quarters given (for O25, O32, O34). -/

namespace Sys2Proof.Machine

open Sys2Proof

-- One declaration after the other: the whole text is checked within a fixed memory.
set_option Elab.async false

variable {s t u : State} {l i k : Nat} {x y : SbEnt}

/-! ### A store -/

/-- A store puts the entry between what it leaves: at most one entry of its key goes. -/
theorem tput_split {α : Type} (m : Tab α) (k : Nat) (v : α) : ∃ p q r, m = p ++ q ∧ tput m k v = p ++ (k, v) :: r ∧ (r = q ∨ ∃ w, q = (k, w) :: r) := by
  induction m with
  | nil => exact ⟨[], [], [], rfl, rfl, .inl rfl⟩
  | cons e m ih =>
    obtain ⟨j, w⟩ := e
    simp only [tput]
    split
    · exact ⟨[], _, _, rfl, rfl, .inl rfl⟩
    · split
      · subst_vars
        exact ⟨[], _, _, rfl, rfl, .inr ⟨w, rfl⟩⟩
      · obtain ⟨p, q, r, hm, hp, hr⟩ := ih
        exact ⟨(j, w) :: p, q, r, by rw [hm, List.cons_append], by rw [hp, List.cons_append], hr⟩

/-- The entries in use of a scoreboard. -/
def usedOf (m : Tab (Option SbEnt)) : List (Nat × SbEnt) := m.filterMap fun e => e.2.map fun x => (e.1, x)

theorem sbUsed_eq (s : State) (l : Nat) : sbUsed s l = usedOf (tileGet s l).sb := rfl

theorem sb_sbPut (s : State) (l k : Nat) (y : SbEnt) : (tileGet (sbPut s l k (some y)) l).sb = tput (tileGet s l).sb k (some y) := by
  rw [sbPut, tileGet_tilePut, if_pos rfl]
  change tset none _ k (some y) = _
  rw [tset, if_neg (Option.some_ne_none y)]

theorem sbUsed_sbPut (s : State) (l k : Nat) (y : SbEnt) : ∃ p q r, sbUsed s l = p ++ q ∧ sbUsed (sbPut s l k (some y)) l = p ++ (k, y) :: r ∧
    (r = q ∨ ∃ w, q = (k, w) :: r) := by
  obtain ⟨p, q, r, hm, ht, hr⟩ := tput_split (tileGet s l).sb k (some y)
  rw [sbUsed_eq, sbUsed_eq, sb_sbPut, ht, hm]
  refine ⟨usedOf p, usedOf q, usedOf r, List.filterMap_append, List.filterMap_append, ?_⟩
  rcases hr with rfl | ⟨_ | w, rfl⟩
  exacts [.inl rfl, .inl rfl, .inr ⟨w, rfl⟩]

/-- The entries in use depend on the scoreboard alone. -/
theorem sbUsed_congr (h : (tileGet t l).sb = (tileGet s l).sb) : sbUsed t l = sbUsed s l := by rw [sbUsed, h, ← sbUsed]

/-- An entry in use is one that was, or the one stored. -/
theorem mem_sbUsed_sbPut {e : Nat × SbEnt} (h : e ∈ sbUsed (sbPut s l k (some y)) l) : e = (k, y) ∨ e ∈ sbUsed s l := by
  obtain ⟨p, q, r, hs, ht, hr⟩ := sbUsed_sbPut s l k y
  rw [ht, List.mem_append, List.mem_cons] at h
  rw [hs, List.mem_append]
  rcases h with h | h | h
  · exact .inr (.inl h)
  · exact .inl h
  · refine .inr (.inr ?_)
    rcases hr with rfl | ⟨w, rfl⟩
    exacts [h, List.mem_cons_of_mem _ h]

/-- A filter that the stored entry does not pass loses no entry of another key. -/
theorem filter_sbUsed_sbPut {f : Nat × SbEnt → Bool} (hy : f (k, y) = false) (hk : ∀ w, (k, w) ∈ sbUsed s l → f (k, w) = false) :
    (sbUsed (sbPut s l k (some y)) l).filter f = (sbUsed s l).filter f := by
  obtain ⟨p, q, r, hs, ht, hr⟩ := sbUsed_sbPut s l k y
  rw [ht, hs, List.filter_append, List.filter_append, List.filter_cons_of_neg (by simp [hy])]
  rcases hr with rfl | ⟨w, rfl⟩
  · rfl
  · rw [List.filter_cons_of_neg]
    simp [hk w (by rw [hs]; simp)]

theorem filter_sbUsed_sbPut_sublist {f : Nat × SbEnt → Bool} (hy : f (k, y) = false) :
    ((sbUsed (sbPut s l k (some y)) l).filter f).Sublist ((sbUsed s l).filter f) := by
  obtain ⟨p, q, r, hs, ht, hr⟩ := sbUsed_sbPut s l k y
  rw [ht, hs, List.filter_append, List.filter_append, List.filter_cons_of_neg (by simp [hy])]
  refine List.Sublist.append_left (List.Sublist.filter f ?_) _
  rcases hr with rfl | ⟨w, rfl⟩
  exacts [List.Sublist.refl _, List.sublist_cons_self _ _]

/-! ### The free entry (log entry 14) -/

/-- The free entry is in use by no command. -/
theorem not_mem_of_sbFree (h : sbFree s l = some i) (w : SbEnt) : (i, w) ∉ sbUsed s l := by
  unfold sbFree at h
  extract_lets used at h
  split at h
  · cases h
  · have hi := List.find?_some h
    intro hw
    simp [used] at hi
    exact hi w hw

theorem sbPut_same (s : State) (l i : Nat) (v : Option SbEnt) : tget none (tileGet (sbPut s l i v) l).sb i = v := by
  rw [sbPut, tileGet_tilePut, if_pos rfl, tget_tset_same]

theorem sbPut_other {v : Option SbEnt} (h : k ≠ i) : tget none (tileGet (sbPut s l k v) l).sb i = tget none (tileGet s l).sb i := by
  rw [sbPut, tileGet_tilePut, if_pos rfl, tget_tset_other _ _ _ h]

/-! ### The entries of an engine -/

/-- A fold that inserts each element somewhere. -/
theorem foldl_insert_perm {α : Type} {f : List α → α → List α} (hf : ∀ acc x, (f acc x).Perm (x :: acc)) (xs : List α) :
    ∀ acc, (xs.foldl f acc).Perm (xs ++ acc) := by
  induction xs with
  | nil => exact fun acc => List.Perm.refl acc
  | cons x xs ih => exact fun acc => (ih _).trans (((hf acc x).append_left xs).trans List.perm_middle)

/-- The entries of an engine in issue order are those of the engine. -/
theorem sbEngine_perm (s : State) (l e : Nat) : (sbEngine s l e).Perm ((sbUsed s l).filter fun x => x.2.engine == e) :=
  (foldl_insert_perm (fun acc x => List.perm_middle.trans (by rw [List.takeWhile_append_dropWhile])) _ []).trans (by rw [List.append_nil])

theorem mem_sbEngine {e : Nat} {z : Nat × SbEnt} : z ∈ sbEngine s l e ↔ z ∈ sbUsed s l ∧ z.2.engine = e := by
  rw [(sbEngine_perm s l e).mem_iff, List.mem_filter, beq_iff_eq]

/-! ### Quarters of the Sheaf (R134) -/

/-- What holds before quarters are given and stays when a Sheaf command gets some holds after. -/
theorem shfAssign_induction {P : State → Prop} (h : P s)
    (hs : ∀ t, P t → ∀ e ∈ sbUsed s l, e.2.engine = 1 → ∀ m, P (sbPut t l e.1 (some { e.2 with quarters := m }))) : P (shfAssign s l) := by
  unfold shfAssign
  extract_lets es busy
  refine List.foldlRecOn _ _ (motive := fun a : State × Nat × Bool => P a.1) h fun a ha e he => ?_
  obtain ⟨hu, h1⟩ := mem_sbEngine.mp (List.mem_filter.mp he).1
  split
  · exact ha
  · split
    exacts [hs a.1 ha e hu h1 _, ha]

theorem shfAssign_frame (s : State) (l : Nat) : shfAssign s l = { s with tiles := (shfAssign s l).tiles } := by
  refine shfAssign_induction (P := fun t => t = { s with tiles := t.tiles }) rfl fun t ht e _ _ m => ?_
  rw [ht]
  rfl

end Sys2Proof.Machine
end

section
/-! PROOFS. Every issue of a head command and every fault at the head (O25). -/

namespace Sys2Proof.Machine

open Sys2Proof

-- One declaration after the other: the whole text is checked within a fixed memory.
set_option Elab.async false

variable {s t u : State} {l c e op : Nat} {v : SlotImg} {w : List Nat}

/-! ### What a fault and a signal leave of an issue -/

/-- The command has issued, and no other context and no byte of memory has changed. -/
structure HasIssued (s t : State) (l c : Nat) (w : List Nat) : Prop where
  issued : issuedBy s t l c w
  others : ctxsBut s t c
  mem : t.mem = s.mem

theorem hasIssued_ctxFault {unit : Nat} {f : CtxFlt} (h : HasIssued s t l c w) (hl : l < 20) (hx : (ctxGet t c).state = 1) :
    HasIssued s (ctxFault t c unit f) l c w := by
  have hft := ctxFault_turns unit f hx
  have hn : tget 0 (faultNoted t c).obs.cnt (cTile l 7) = tget 0 t.obs.cnt (cTile l 7) := by
    rw [faultNoted, cnt_cinc, if_neg (by simp only [cTile]; omega), bump_obs]
  have hr : rg (faultNoted t c) (rTIL_ISSUED (tileSite s l)) = rg t (rTIL_ISSUED (tileSite s l)) := by
    rw [faultNoted, rg_congr (cinc_regs _ _ _), rg_bump_other]
    simp only [tilA]
    omega
  have hp : (faultNoted t c).pwr = t.pwr := by rw [faultNoted, cinc_pwr, bump_pwr]
  refine ⟨issuedBy_congr h.issued (by rw [hft.ctx]; rfl) ((hft.quiet.issues l hl).trans hn)
    ((hft.tileReg (o := 0x54) (by omega) (by omega)).trans hr) (hft.quiet.parts.trans (by rw [hp])),
    fun d hd => (hft.others d hd).trans ((ctxGet_congr (faultNoted_ctxs t c) d).trans (h.others d hd)),
    hft.mem.trans ((faultNoted_mem t c).trans h.mem)⟩

theorem hasIssued_quiet (h : HasIssued s t l c w) (hl : l < 20) (k : Quiet true t u) : HasIssued s u l c w :=
  ⟨issuedBy_congr h.issued (by rw [ctxGet_congr k.ctxs]) (k.issues l hl) (k.tileRegs _ 0x54 (by omega) (by omega)) k.parts,
    fun d hd => (ctxGet_congr k.ctxs d).trans (h.others d hd), k.mem.trans h.mem⟩

theorem hasIssued_signal {unit : Nat} {sig : Option (Nat × Nat)} (h : HasIssued s t l c w) (hl : l < 20) (hx : (ctxGet t c).state = 1) :
    HasIssued s (signal t l c unit v sig) l c w := by
  have hk : ∀ k n, HasIssued s (knotPut t l v k n) l c w := fun _ _ => ⟨issuedBy_congr h.issued rfl rfl rfl rfl, h.others, h.mem⟩
  unfold signal
  split
  · exact h
  · extract_lets x
    split
    exacts [hasIssued_ctxFault (hk _ _) hl hx, hk _ _]

/-- The report of the error that a command met (R194, R326). -/
def engReported (s : State) (l e : Nat) (f : CtxFlt) : State :=
  let a := leNat f.detail
  if f.code ≠ 8 ∨ a = 0 then s
  else if tierBase ≤ a ∧ a < lpBase then tierMiss s a
  else faultUe s (if a ≥ lpBase then 16 else 18) (unitCode 1 (tileSite s l * 8 + e % 8)) (tilePart s l) a

theorem engFault_eq (s : State) (l c e unit : Nat) (f : CtxFlt) : engFault s l c e unit f = ctxFault (engReported s l e f) c unit f := rfl

theorem engReported_quiet (s : State) (l e : Nat) (f : CtxFlt) : Quiet true s (engReported s l e f) :=
  .ite (Quiet.refl s) (.ite (Quiet.refl s).tierMiss (Quiet.refl s).faultUe)

theorem hasIssued_engFault {unit : Nat} {f : CtxFlt} (h : HasIssued s t l c w) (hl : l < 20) (hx : (ctxGet t c).state = 1) :
    HasIssued s (engFault t l c e unit f) l c w := by
  have hq := engReported_quiet t l e f
  rw [engFault_eq]
  exact hasIssued_ctxFault (hasIssued_quiet h hl hq) hl (by rw [ctxGet_congr hq.ctxs, hx])

/-! ### The issue itself -/

theorem Issues.hasIssued (h : Issues s t l c w) : HasIssued s t l c w := ⟨h.issued, h.others, by rw [h.frame]⟩

theorem Issues.state (h : Issues s t l c w) : (ctxGet t c).state = (ctxGet s c).state := by rw [h.ctx]

theorem DispKeeps.hasIssued (k : DispKeeps l c t u) (h : HasIssued s t l c w) : HasIssued s u l c w :=
  have hf := k.frame
  ⟨issuedBy_congr h.issued k.pos k.cnt (rg_congr (by rw [hf]) _) (by rw [hf]), fun d hd => (k.others d hd).trans (h.others d hd),
    (show u.mem = t.mem by rw [hf]).trans h.mem⟩

/-- A dispatcher command ends with its fault or its signal. -/
theorem hasIssued_dispatcher (h : issuesNow s l 0 op c w) (hl : l < 20) : HasIssued s (issueCmd s l c w []) l c w := by
  obtain ⟨u, hu, he⟩ := issueCmd_dispatcher h
  have hk := dispKeeps_dispOp u l c w
  have hx : (ctxGet (dispOp u l c w).1 c).state = 1 := by rw [hk.state, hu.state, candidate_active (issuesNow_candidate h)]
  have hi := hk.hasIssued hu.hasIssued
  rw [he]
  generalize dispOp u l c w = r at *
  obtain ⟨t, _ | f⟩ := r
  exacts [hasIssued_signal hi hl hx, hasIssued_engFault hi hl hx]

/-- A command of an engine with BATCH set and no batch: it has begun, it has ended, it signals. -/
theorem issueCmd_empty (h : issuesNow s l e op c w) (he : e ≠ 0) (hn : itersOf (ctxGet s c) w = 0) :
    ∃ u, Issues s u l c w ∧ issueCmd s l c w [] = signal u l c e (ctxGet s c).img (sigOf w) := by
  obtain ⟨-, -, -, hw, -, hf⟩ := h
  have hb : cwBatch w = true := by
    by_contra hb
    simp [itersOf, hw, he, hb] at hn
  rw [hn] at hf
  refine ⟨_, ((issues_issueTaken s l c w).traces (traces_traceCmd _ (traced (issueTaken s l c (ctxGet s c) w) l e c) l c e false false false
    (ctxGet s c).pos 0 (ctxGet s c).ply)).traces (traces_traceCmd _ (traced (issueTaken s l c (ctxGet s c) w) l e c) l c e true false false
    (ctxGet s c).pos 0 (ctxGet s c).ply), ?_⟩
  simp only [issueCmd, hf, hw, he, hb, hn, if_false, beq_self_eq_true, Bool.and_true, if_true]

theorem Issues.sbFree (h : Issues s t l c w) : Machine.sbFree t l = Machine.sbFree s l := by
  simp only [Machine.sbFree, sbUsed_congr (h.sb l), (issues_spaces h).members]

/-- A command of an engine that has work enters its engine's queue. -/
theorem issueCmd_engine {hits : List EngHit} (h : issuesNow s l e op c w) (he : e ≠ 0) (hn : itersOf (ctxGet s c) w ≠ 0) :
    ∃ i, sbFree s l = some i ∧ issueCmd s l c w hits = enqueueCmd (issueTaken s l c (ctxGet s c) w) l c i (ctxGet s c) w hits := by
  obtain ⟨-, hcand, -, hw, -, hf⟩ := h
  obtain ⟨i, hi⟩ := Option.isSome_iff_exists.mp (candidate_sbFree hcand)
  have hi' := (issues_issueTaken s l c w).sbFree.trans hi
  refine ⟨i, hi, ?_⟩
  have hn' : (itersOf (ctxGet s c) w == 0) = false := by simpa using hn
  simp only [issueCmd, hf, hw, he, hn', hi', if_false, Bool.and_false, Bool.false_eq_true]

/-! ### The entry of a command (R99) -/

/-- The command stands in the scoreboard with its entry, a Sheaf command perhaps with its quarters. -/
def queued (s : State) (l c i : Nat) (x : Ctx) (w : List Nat) (hits : List EngHit) : State :=
  let t := sbPut { s with jorder := s.jorder + 1 } l i (some (sbEntry s l c x w hits))
  if cwEngine w = 1 then shfAssign t l else t

theorem enqueueCmd_traces (s : State) (l c i : Nat) (x : Ctx) (w : List Nat) (hits : List EngHit) :
    Traces (queued s l c i x w hits) (enqueueCmd s l c i x w hits) := traces_traceCmd _ _ _ _ _ _ _ _ _ _ _

theorem queued_frame (s : State) (l c i : Nat) (x : Ctx) (w : List Nat) (hits : List EngHit) :
    queued s l c i x w hits = { s with jorder := s.jorder + 1, tiles := (queued s l c i x w hits).tiles } := by
  unfold queued
  dsimp only
  split
  · rw [shfAssign_frame]
    rfl
  · rfl

/-- The free entry takes the command; what gives it quarters leaves the rest of it. -/
theorem queued_entry {i : Nat} {x : Ctx} {hits : List EngHit} (hi : sbFree s l = some i) :
    ∃ q, tget none (tileGet (queued s l c i x w hits) l).sb i = some { sbEntry s l c x w hits with quarters := q } := by
  unfold queued
  extract_lets t
  have ht : tget none (tileGet t l).sb i = some (sbEntry s l c x w hits) := sbPut_same _ _ _ _
  have hown : ∀ z, (i, z) ∈ sbUsed t l → z = sbEntry s l c x w hits := fun z hz =>
    (mem_sbUsed_sbPut hz).elim (fun e => (Prod.mk.inj e).2) fun hz => absurd hz (not_mem_of_sbFree hi z)
  split
  · refine shfAssign_induction (P := fun a => ∃ q, tget none (tileGet a l).sb i = some { sbEntry s l c x w hits with quarters := q }) ⟨0, ht⟩ ?_
    rintro a ha ⟨k, z⟩ hz - m
    by_cases hk : k = i
    · subst hk
      exact ⟨m, by rw [sbPut_same, hown z hz]⟩
    · rw [sbPut_other hk]
      exact ha
  · exact ⟨0, ht⟩

theorem enqueueCmd_entry {i : Nat} {x : Ctx} {hits : List EngHit} (hi : sbFree s l = some i) :
    ∃ q, tget none (tileGet (enqueueCmd s l c i x w hits) l).sb i = some { sbEntry s l c x w hits with quarters := q } := by
  rw [tileGet_congr (show _ = (queued s l c i x w hits).tiles by rw [(enqueueCmd_traces s l c i x w hits).frame])]
  exact queued_entry hi

theorem enqueueCmd_knots (s : State) (l c i : Nat) (x : Ctx) (w : List Nat) (hits : List EngHit) : (enqueueCmd s l c i x w hits).knots = s.knots := by
  rw [(enqueueCmd_traces s l c i x w hits).frame, queued_frame]

theorem hasIssued_enqueueCmd {i : Nat} {x : Ctx} {hits : List EngHit} (h : Issues s u l c w) : HasIssued s (enqueueCmd u l c i x w hits) l c w := by
  have hq := queued_frame u l c i x w hits
  have ht := (enqueueCmd_traces u l c i x w hits)
  have hx : (enqueueCmd u l c i x w hits).ctxs = u.ctxs := by rw [ht.frame, hq]
  refine ⟨issuedBy_congr h.issued (by rw [ctxGet_congr hx]) (by rw [ht.cnt, hq]) ((ht.regs _ ?_).trans (rg_congr (by rw [hq]) _)) (by rw [ht.frame, hq]),
    fun d hd => (ctxGet_congr hx d).trans (h.others d hd), ?_⟩
  · simp only [List.mem_singleton, tilA, obsA]
    omega
  · rw [ht.frame, hq, h.frame]

/-- Every issue leaves memory and the other contexts, and has done what an issue does. -/
theorem hasIssued_issueCmd (h : issuesNow s l e op c w) (hl : l < 20) : HasIssued s (issueCmd s l c w []) l c w := by
  by_cases he : e = 0
  · subst he
    exact hasIssued_dispatcher h hl
  · by_cases hn : itersOf (ctxGet s c) w = 0
    · obtain ⟨u, hu, hc⟩ := issueCmd_empty h he hn
      rw [hc]
      exact hasIssued_signal hu.hasIssued hl (by rw [hu.state, candidate_active (issuesNow_candidate h)])
    · obtain ⟨i, -, hc⟩ := issueCmd_engine (hits := []) h he hn
      rw [hc]
      exact hasIssued_enqueueCmd (issues_issueTaken s l c w)

/-! ### The rows -/

theorem issueRows_defined : ∀ r ∈ issueRows l, r.1 < 6 ∧ r.2.1 < engineOps r.1 := by simp [issueRows, engineOps]

theorem exec_issueRows : ∀ r ∈ issueRows l, exec r.2.2 s = .next (thenRuns r.1 (issueRow r.1 r.2.1 l [] s) l) := by
  simp only [issueRows, List.forall_mem_cons, List.not_mem_nil, false_imp_iff, implies_true, and_true]
  refine ⟨rfl, rfl, rfl, rfl, rfl, rfl, rfl, rfl, rfl, rfl, rfl, rfl, rfl, rfl, rfl, rfl, rfl, rfl, rfl, rfl, rfl, rfl, rfl, rfl, rfl, rfl, rfl⟩

/-- What O25 says of a row that leaves `P` before the engines run. -/
def RowLeaves (r : Nat × Nat × Instr) (s : State) (l : Nat) (P : State → Prop) : Prop :=
  runsTo r.2.2 s fun t => ∃ u, P u ∧ u.mem = s.mem ∧ t = thenRuns r.1 u l

section
variable {r : Nat × Nat × Instr} (hr : r ∈ issueRows l)
include hr

theorem rowLeaves {P : State → Prop} (hu : issueRow r.1 r.2.1 l [] s = u) (h : P u) (hm : u.mem = s.mem) : RowLeaves r s l P :=
  ⟨_, exec_issueRows r hr, u, h, hm, by rw [hu]⟩

theorem row_issues (hl : l < 20) (h : issuesNow s l r.1 r.2.1 c w) : RowLeaves r s l fun u => issuedBy s u l c w ∧ ctxsBut s u c :=
  have hi := hasIssued_issueCmd h hl
  rowLeaves hr (issueRow_issues h (issueRows_defined r hr).1 (issueRows_defined r hr).2) ⟨hi.issued, hi.others⟩ hi.mem

theorem row_issues_empty (h : issuesNow s l r.1 r.2.1 c w) (hn : r.1 ≠ 0 ∧ itersOf (ctxGet s c) w = 0)
    (hs : sigFits (waitsTake s l (ctxGet s c).img w) l (ctxGet s c).img (sigOf w)) : RowLeaves r s l fun u =>
      signalled (waitsTake s l (ctxGet s c).img w) u l (ctxGet s c).img (sigOf w) ∧ (tileGet u l).sb = (tileGet s l).sb := by
  obtain ⟨u, hu, hc⟩ := issueCmd_empty h hn.1 hn.2
  obtain ⟨hk, hf⟩ := signal_fits (c := c) (unit := r.1) (sigFits_congr hu.knots hs)
  refine rowLeaves hr ((issueRow_issues h (issueRows_defined r hr).1 (issueRows_defined r hr).2).trans hc) ⟨signalled_congr hu.knots hk, ?_⟩ ?_
  · rw [hf]
    exact hu.sb l
  · rw [hf]
    exact hu.hasIssued.mem

theorem row_queues (h : issuesNow s l r.1 r.2.1 c w) (he : r.1 ≠ 0) (hn : ¬(r.1 ≠ 0 ∧ itersOf (ctxGet s c) w = 0)) : RowLeaves r s l fun u =>
    u.knots = (waitsTake s l (ctxGet s c).img w).knots ∧
      ∃ i y, sbFree s l = some i ∧ tget none (tileGet u l).sb i = some y ∧ y.ctx = c ∧ y.ply = (ctxGet s c).ply ∧ y.engine = r.1 ∧ y.op = r.2.1 ∧
        y.index = (ctxGet s c).pos ∧ y.sig = sigOf w ∧ y.iters = itersOf (ctxGet s c) w ∧ y.todo.isSome ∧ y.inPass = false := by
  obtain ⟨i, hi, hc⟩ := issueCmd_engine (hits := []) h he fun h0 => hn ⟨he, h0⟩
  have ⟨_, _, _, hw, hop, _⟩ := h
  have hu := issues_issueTaken s l c w
  obtain ⟨q, hq⟩ := enqueueCmd_entry (c := c) (w := w) (x := ctxGet s c) (hits := []) (hu.sbFree.trans hi)
  refine rowLeaves hr ((issueRow_issues h (issueRows_defined r hr).1 (issueRows_defined r hr).2).trans hc)
    ⟨(enqueueCmd_knots _ _ _ _ _ _ _).trans hu.knots, i, _, hi, hq, rfl, rfl, ?_, ?_, rfl, rfl, rfl, rfl, rfl⟩ (hasIssued_enqueueCmd hu).mem
  exacts [hw, hop]

theorem row_faults {f : CtxFlt} (h : (tileCtxs s l).find? (fun d => ctxRuns (ctxGet s d) && rowIs r.1 r.2.1 (headOf s d) && (headFault s d).isSome) = some c)
    (hf : headFault s c = some f) : RowLeaves r s l fun u => faultsWith u c f.code ∧ ctxsBut s u c := by
  have hx : (ctxGet s c).state = 1 := by
    have hc := List.find?_some h
    simp only [Bool.and_eq_true] at hc
    exact state_of_ctxRuns hc.1.1
  have hrow : issueRow r.1 r.2.1 l [] s = engFault s l c 0 (cwEngine (headOf s c)) f := by simp only [issueRow, h, hf]
  have hq := engReported_quiet s l 0 f
  have hft := ctxFault_turns (cwEngine (headOf s c)) f ((congrArg Ctx.state (ctxGet_congr hq.ctxs c)).trans hx)
  refine rowLeaves hr (hrow.trans (engFault_eq _ _ _ _ _ _)) ⟨⟨?_, ?_⟩, ctxsBut_congr hft.others ((faultNoted_ctxs _ _).trans hq.ctxs)⟩
    (hft.mem.trans ((faultNoted_mem _ _).trans hq.mem))
  · rw [hft.ctx]; rfl
  · rw [hft.ctx]

section
variable (hbad : (tileCtxs s l).find? (fun d => ctxRuns (ctxGet s d) && rowIs r.1 r.2.1 (headOf s d) && (headFault s d).isSome) = none)
include hbad

theorem row_opd_faults {f : CtxFlt} (hc : candidate s l = some c) (hrow : rowIs r.1 r.2.1 (headOf s c) = true)
    (hf : (List.range (itersOf (ctxGet s c) (headOf s c))).findSome? (fun j => opdFault s l (ctxGet s c).img (ctxGet s c).b j (headOf s c)) = some f) :
    RowLeaves r s l fun u => faultsWith u c f.code ∧ ctxsBut s u c := by
  have hrow : issueRow r.1 r.2.1 l [] s = ctxFault s c (cwEngine (headOf s c)) f := by simp only [issueRow, hbad, hc, hrow, if_true, issueCmd, hf]
  have hft := ctxFault_turns (cwEngine (headOf s c)) f (candidate_active hc)
  refine rowLeaves hr hrow ⟨⟨?_, ?_⟩, ctxsBut_congr hft.others (faultNoted_ctxs s c)⟩ (hft.mem.trans (faultNoted_mem s c))
  · rw [hft.ctx]; rfl
  · rw [hft.ctx]

theorem row_idle (hc : ∀ c, candidate s l = some c → rowIs r.1 r.2.1 (headOf s c) = false) : runsTo r.2.2 s fun t => t = thenRuns r.1 s l := by
  have hrow : issueRow r.1 r.2.1 l [] s = s := by
    simp only [issueRow, hbad]
    split
    · next c hcand => rw [hc c hcand, if_neg Bool.false_ne_true]
    · rfl
  exact ⟨_, exec_issueRows r hr, by rw [hrow]⟩

end

end

theorem thenRuns_idle (h : waiting (sbUsed u l) = []) : thenRuns e u l = u := by
  unfold thenRuns enginesPump
  split
  · rfl
  · simp only [h, List.isEmpty_nil, Bool.or_true, if_true]

/-- Settles O25: the rows by what stands at the head and what the candidate is. -/
theorem issueOfHeadCommands : Obligations.IssueOfHeadCommands := fun _ _ hl _ hr =>
  ⟨fun _ _ h => ⟨row_issues hr hl h, row_issues_empty hr h, row_queues hr h⟩, fun _ _ => row_faults hr,
    fun _ _ hb hc hrow hf => row_opd_faults hr hb hc hrow hf, row_idle hr, fun _ => thenRuns_idle⟩

end Sys2Proof.Machine
end

section
/-! PROOFS. Reads and writes of a space, and commands that write piece after piece (for O32, O34). -/

namespace Sys2Proof.Machine

open Sys2Proof

-- One declaration after the other: the whole text is checked within a fixed memory.
set_option Elab.async false

variable {s t u : State} {l : Nat} {v : SlotImg} {sp a n : Nat}

/-! ### The bytes of an access -/

/-- The bytes of a piece. -/
def pieceBytes (e : Nat × Nat) : List Nat := (List.range e.2).map fun i => e.1 + i

theorem tread_eq_map (m : Tab Byte) (a n : Nat) : tread m a n = (pieceBytes (a, n)).map (tget 0 m) := by
  induction n generalizing a with
  | zero => rfl
  | succ n ih =>
    rw [tread, ih]
    simp only [pieceBytes, List.range_succ_eq_map, List.map_cons, List.map_map, Nat.add_zero]
    refine congrArg _ (List.map_congr_left fun i _ => ?_)
    simp only [Function.comp_apply, Nat.succ_eq_add_one]
    rw [Nat.add_right_comm, Nat.add_assoc]

theorem pieceBytes_add (a n m : Nat) : pieceBytes (a, n + m) = pieceBytes (a, n) ++ pieceBytes (a + n, m) := by
  simp only [pieceBytes, List.range_add, List.map_append, List.map_map]
  refine congrArg _ (List.map_congr_left fun i _ => ?_)
  simp only [Function.comp_apply, Nat.add_assoc]

theorem flatMap_joinPieces (es : List (Nat × Nat)) : (joinPieces es).flatMap pieceBytes = es.flatMap pieceBytes := by
  induction es with
  | nil => rfl
  | cons e es ih =>
    rw [List.flatMap_cons, ← ih, joinPieces]
    split
    · next f r hj =>
      rw [hj]
      split
      · next he =>
        obtain ⟨a, n⟩ := e
        obtain ⟨b, m⟩ := f
        dsimp only at he
        rw [List.flatMap_cons, List.flatMap_cons, pieceBytes_add, he, List.append_assoc]
      · rfl
    · next hj => rw [hj]; rfl

/-- Where an access is one piece, its bytes follow one another. -/
theorem physA_add (hm : v.maps = []) (hc : ¬(sp = 0 ∧ a < 20971520 ∧ a + n > 20971520)) {i : Nat} (hi : i < n) :
    physA s l v sp (a + i) = physA s l v sp a + i := by
  simp only [physA, hm, List.find?_nil, sramA]
  by_cases h0 : sp = 0
  · have hsame : decide (a + i ≥ 20971520) = decide (a ≥ 20971520) := by
      rw [decide_eq_decide]
      omega
    simp only [h0, if_true, hsame]
    split
    · next hb =>
      have : a ≥ 20971520 := of_decide_eq_true (Bool.and_eq_true_iff.mp hb).2
      omega
    · omega
  · simp only [h0, if_false]
    split <;> omega

/-- The pieces of an access cover its bytes in order. -/
theorem flatMap_pieces (s : State) (l : Nat) (v : SlotImg) (sp a n : Nat) : (pieces s l v sp a n).flatMap pieceBytes = spBytes s l v sp a n := by
  unfold pieces
  split
  · next h =>
    obtain ⟨hm, hc⟩ := Bool.and_eq_true_iff.mp h
    rw [List.flatMap_singleton, pieceBytes, spBytes]
    refine List.map_congr_left fun i hi => (physA_add (List.isEmpty_iff.mp hm) ?_ (List.mem_range.mp hi)).symm
    rintro ⟨h0, ha⟩
    simp [h0, ha] at hc
  · rw [flatMap_joinPieces, List.flatMap_map, spBytes, ← List.flatMap_singleton' (List.map _ _), List.flatMap_map]
    rfl

/-- A read gives what stands at the bytes of the access. -/
theorem spR_eq_map (s : State) (l : Nat) (v : SlotImg) (sp a n : Nat) : spR s l v sp a n = (spBytes s l v sp a n).map (tget 0 s.mem) := by
  rw [← flatMap_pieces, List.map_flatMap]
  exact List.flatMap_congr fun e _ => tread_eq_map _ _ _

theorem spBytes_length (s : State) (l : Nat) (v : SlotImg) (sp a n : Nat) : (spBytes s l v sp a n).length = n := by simp [spBytes]

theorem spR_length (s : State) (l : Nat) (v : SlotImg) (sp a n : Nat) : (spR s l v sp a n).length = n := by
  rw [spR_eq_map, List.length_map, spBytes_length]

/-! ### Work that an engine does -/

/-- From `s` to `t` an engine has worked: memory has changed, counters other than tile `l`'s count of issued commands, and what reads good again. -/
structure Works (l : Nat) (s t : State) : Prop where
  frame : t = { s with mem := t.mem, obs := t.obs, carried := t.carried }
  cnt : tget 0 t.obs.cnt (cTile l 7) = tget 0 s.obs.cnt (cTile l 7)

theorem Works.refl (s : State) : Works l s s := ⟨rfl, rfl⟩

theorem Works.trans (h : Works l s t) (k : Works l t u) : Works l s u := ⟨by rw [k.frame, h.frame], k.cnt.trans h.cnt⟩

theorem Works.spaces (h : Works l s t) : SameSpaces s t := by
  have hf := h.frame
  exact ⟨tileSite_congr (by rw [hf]), rg_congr (by rw [hf]) _⟩

theorem Works.intact (h : Works l s t) (hi : Machine.intact s) : Machine.intact t := by
  have hf := h.frame
  exact intact_congr (by rw [hf]) (by rw [hf]) hi

theorem Works.spBytes (h : Works l s t) : Machine.spBytes t = Machine.spBytes s := by
  funext k v sp a n
  simp only [Machine.spBytes, h.spaces.physA]

theorem works_cinc {i k : Nat} (hi : i ≠ cTile l 7) : Works l s (cinc s i k) := ⟨rfl, by rw [cnt_cinc, if_neg hi]⟩

theorem works_lpCount (s : State) {k : Nat} (hk : k < 2) (x n : Nat) : Works l s (lpCount s k x n) := by
  unfold lpCount
  split
  · exact Works.refl s
  · exact List.foldlRecOn _ _ (Works.refl s) fun u hu i _ => hu.trans (works_cinc (by simp only [cChan, cTile]; omega))

theorem works_spCount (s : State) (k : Nat) (v : SlotImg) (sp a n : Nat) : Works l s (spCount s k v sp a n) :=
  List.foldlRecOn _ _ (Works.refl s) fun t ht e _ => ht.trans (works_lpCount t (by omega) e.1 e.2)

theorem lpCount_mem (s : State) (k x n : Nat) : (lpCount s k x n).mem = s.mem := by rw [(CountsOnly.lpCount s k x n).1]

theorem spCount_mem (s : State) (k : Nat) (v : SlotImg) (sp a n : Nat) : (spCount s k v sp a n).mem = s.mem :=
  List.foldlRecOn (motive := fun t : State => t.mem = s.mem) _ _ rfl fun t ht e _ => (lpCount_mem t 0 e.1 e.2).trans ht

theorem works_memW {x : Nat} {b : Bytes} (hb : s.bad = []) : Works l s (memW s x b) ∧ (memW s x b).mem = twrite s.mem x b := by
  obtain ⟨O, C, hm, -⟩ := memW_intact (x := x) (b := b) hb
  have ho : (memW s x b).obs = (lpCount s 1 x b.length).obs := by
    rw [memW, if_neg (by simp [memWBad, hb])]
  rw [hm] at ho ⊢
  refine ⟨⟨rfl, ?_⟩, rfl⟩
  rw [ho]
  exact (works_lpCount s (by omega) x b.length).cnt

/-- A list of bytes is stored over pieces that do not meet: each byte stands at its place. -/
theorem foldl_memW (es : List (Nat × Nat)) : ∀ (s : State) (b : Bytes), s.bad = [] → (es.flatMap pieceBytes).Nodup → b.length = (es.flatMap pieceBytes).length →
    let t := (es.foldl (fun (x : State × Bytes) e => (memW x.1 e.1 (x.2.take e.2), x.2.drop e.2)) (s, b)).1
    Works l s t ∧ (es.flatMap pieceBytes).map (tget 0 t.mem) = b ∧ ∀ y ∉ es.flatMap pieceBytes, tget 0 t.mem y = tget 0 s.mem y := by
  induction es with
  | nil => exact fun s b _ _ hb => ⟨Works.refl s, (List.length_eq_zero_iff.mp hb).symm, fun _ _ => rfl⟩
  | cons e es ih =>
    intro s b hbad hnd hlen
    obtain ⟨x, n⟩ := e
    rw [List.flatMap_cons] at hnd hlen ⊢
    obtain ⟨-, hnd', hdisj⟩ := List.nodup_append.mp hnd
    have hn : (pieceBytes (x, n)).length = n := by simp [pieceBytes]
    rw [List.length_append, hn] at hlen
    obtain ⟨hw, hm⟩ := works_memW (l := l) (s := s) (x := x) (b := b.take n) hbad
    obtain ⟨hw', hmap, hout⟩ := ih (memW s x (b.take n)) (b.drop n) (by rw [hw.frame]; exact hbad) hnd' (by rw [List.length_drop]; omega)
    have htake : (b.take n).length = n := by rw [List.length_take]; omega
    refine ⟨hw.trans hw', ?_, fun y hy => ?_⟩
    · rw [List.map_append, List.foldl_cons]
      refine (congrArg₂ _ ?_ hmap).trans (List.take_append_drop n b)
      calc (pieceBytes (x, n)).map _ = (pieceBytes (x, n)).map (tget 0 (memW s x (b.take n)).mem) :=
            List.map_congr_left fun y hy => hout y fun hy' => hdisj y hy y hy' rfl
        _ = tread (twrite s.mem x (b.take n)) x n := by rw [hm, tread_eq_map]
        _ = b.take n := by
            have := tread_twrite s.mem x (b.take n)
            rwa [htake] at this
    · rw [List.mem_append, not_or] at hy
      refine (hout y hy.2).trans ?_
      rw [hm]
      refine tget_twrite_out _ _ _ _ ?_
      rw [htake]
      by_contra hin
      exact hy.1 (List.mem_map.mpr ⟨y - x, List.mem_range.mpr (by omega), by omega⟩)

/-- A write of a space stores its bytes at the bytes of the access and nothing else. -/
theorem spW_stores {b : Bytes} (hb : s.bad = []) (hnd : (spBytes s l v sp a b.length).Nodup) :
    Works l s (spW s l v sp a b) ∧ (spBytes s l v sp a b.length).map (tget 0 (spW s l v sp a b).mem) = b ∧
    ∀ y ∉ spBytes s l v sp a b.length, tget 0 (spW s l v sp a b).mem y = tget 0 s.mem y := by
  rw [← flatMap_pieces] at hnd ⊢
  exact foldl_memW _ s b hb hnd (by rw [flatMap_pieces, spBytes_length])

/-! ### Checked access (R94) -/

theorem spWBad_intact (h : intact s) (l : Nat) (v : SlotImg) (sp a n : Nat) : spWBad s l v sp a n = none := by
  unfold spWBad
  split
  · rfl
  · refine List.findSome?_eq_none_iff.mpr fun e _ => ?_
    obtain ⟨hbad, hfence⟩ := h
    simp only [devWBad, fencedAt, hfence, or_true, if_true, memWBad, hbad, List.find?_nil, Option.map_none, Option.orElse_none]

theorem wrChk_intact {b : Bytes} (h : intact s) (hw : inWin v sp a b.length = true) : wrChk s l v sp a b = (spW s l v sp a b, none) := by
  simp only [wrChk, hw, spWBad_intact h, Bool.not_true, Bool.false_eq_true, if_false]

theorem rdChk_intact (h : intact s) : rdChk s l v sp a n = if inWin v sp a n then .ok (spR s l v sp a n) else .error (fltAt 3 (physA s l v sp a)) := by
  simp only [rdChk, spBad_intact h]
  cases inWin v sp a n <;> rfl

theorem rdChk_congr (hs : intact s) (ht : intact t) (hp : SameSpaces s t) (hm : t.mem = s.mem) : rdChk t = rdChk s := by
  funext l v sp a n
  rw [rdChk_intact hs, rdChk_intact ht, hp.spR hm, hp.physA]

theorem length_of_rdChk {b : Bytes} (hs : intact s) (h : rdChk s l v sp a n = .ok b) : b.length = n := by
  rw [rdChk_intact hs] at h
  split at h
  · cases h
    exact spR_length _ _ _ _ _ _
  · cases h

/-- An engine of tile `l` has worked from `s` to `t`, and the bytes `ys` read as before. -/
structure KeepsBytes (l : Nat) (ys : List Nat) (s t : State) : Prop where
  works : Works l s t
  mem : ∀ y ∈ ys, tget 0 t.mem y = tget 0 s.mem y

theorem KeepsBytes.rdChk {ys : List Nat} (hi : intact s) (h : KeepsBytes l ys s t) (hy : ∀ y ∈ spBytes s l v sp a n, y ∈ ys) :
    Machine.rdChk t l v sp a n = Machine.rdChk s l v sp a n := by
  have hr : spR t l v sp a n = spR s l v sp a n := by
    rw [spR_eq_map, spR_eq_map, h.works.spBytes]
    exact List.map_congr_left fun y hyr => h.mem y (hy y hyr)
  rw [rdChk_intact hi, rdChk_intact (h.works.intact hi), hr, h.works.spaces.physA]

/-! ### Writes in order -/

/-- The bytes of a write (space, address, bytes). -/
def writeBytes (s : State) (l : Nat) (v : SlotImg) (e : Nat × Nat × Bytes) : List Nat := spBytes s l v e.1 e.2.1 e.2.2.length

/-- An engine of tile `l` has worked from `s` to `t` and has made the writes `ws`. -/
structure Writes (l : Nat) (v : SlotImg) (ws : List (Nat × Nat × Bytes)) (s t : State) : Prop where
  works : Works l s t
  wrote : Machine.wrote s t l v ws

theorem Writes.nil (h : Works l s t) (hm : t.mem = s.mem) : Writes l v [] s t := ⟨h, fun _ he => absurd he List.not_mem_nil, fun _ _ => by rw [hm]⟩

/-- What only counts leaves the writes. -/
theorem Writes.counts {ws : List (Nat × Nat × Bytes)} (h : Writes l v ws s t) (k : Works l t u) (hm : u.mem = t.mem) : Writes l v ws s u :=
  ⟨h.works.trans k, fun e he => by rw [k.spaces.spR hm, h.wrote.1 e he], fun y hy => by rw [hm, h.wrote.2 y hy]⟩

/-- One more write, of bytes that none before it has written. -/
theorem Writes.append {ws : List (Nat × Nat × Bytes)} {e : Nat × Nat × Bytes} (hi : intact s) (h : Writes l v ws s t)
    (hwin : inWin v e.1 e.2.1 e.2.2.length = true) (hnd : ((ws ++ [e]).flatMap (writeBytes s l v)).Nodup) :
    ∃ u, wrChk t l v e.1 e.2.1 e.2.2 = (u, none) ∧ Writes l v (ws ++ [e]) s u := by
  obtain ⟨hw, hr, ho⟩ := h
  have hit := hw.intact hi
  rw [List.flatMap_append, List.flatMap_singleton] at hnd
  obtain ⟨-, hnd', hdisj⟩ := List.nodup_append.mp hnd
  obtain ⟨hk, hb, hout⟩ := spW_stores (l := l) (v := v) (sp := e.1) (a := e.2.1) (b := e.2.2) hit.1 (by rw [hw.spBytes]; exact hnd')
  refine ⟨_, wrChk_intact hit hwin, hw.trans hk, fun e' he' => ?_, fun y hy => ?_⟩
  · rw [spR_eq_map, hk.spBytes]
    rcases List.mem_append.mp he' with hold | hnew
    · refine Eq.trans (List.map_congr_left fun y hy => hout y fun hy' => ?_) ((spR_eq_map _ _ _ _ _ _).symm.trans (hr e' hold))
      rw [hw.spBytes] at hy hy'
      exact hdisj y (List.mem_flatMap.mpr ⟨e', hold, hy⟩) y hy' rfl
    · obtain rfl := List.mem_singleton.mp hnew
      exact hb
  · refine (hout y ?_).trans (ho y fun e' he' => hy e' (List.mem_append_left _ he'))
    rw [hw.spBytes]
    exact hy e (List.mem_append_right _ (List.mem_singleton_self e))

/-- Bytes that no write has touched read as before. -/
theorem Writes.keeps {ws : List (Nat × Nat × Bytes)} {ys : List Nat} (h : Writes l v ws s t) (hy : ∀ e ∈ ws, ∀ y ∈ writeBytes s l v e, y ∉ ys) :
    KeepsBytes l ys s t :=
  ⟨h.works, fun y hys => h.wrote.2 y fun e he hw => hy e he y hw hys⟩

/-- Piece after piece, each with one write. -/
theorem iterate_writes {f : State → Nat → State × Option CtxFlt} {W : Nat → Nat × Nat × Bytes} (n : Nat) (hs : Writes l v [] s t)
    (hf : ∀ r < n, ∀ t, Writes l v ((List.range r).map W) s t → ∃ u, f t r = (u, none) ∧ Writes l v ((List.range r).map W ++ [W r]) s u) :
    ∃ u, iterate n f t = (u, none) ∧ Writes l v ((List.range n).map W) s u := by
  induction n with
  | zero => exact ⟨t, rfl, hs⟩
  | succ n ih =>
    obtain ⟨u, hu, hw⟩ := ih fun r hr => hf r (by omega)
    obtain ⟨z, hz, hwz⟩ := hf n (by omega) u hw
    refine ⟨z, ?_, ?_⟩
    · unfold iterate at hu ⊢
      rw [List.range_succ, List.foldl_append, hu]
      exact hz
    · rw [List.range_succ, List.map_append]
      exact hwz

/-- The first writes of a list that can be written can be. -/
theorem canWrite_take {W : Nat → Nat × Nat × Bytes} (h : canWrite s l v ((List.range n).map W)) {r : Nat} (hr : r < n) :
    inWin v (W r).1 (W r).2.1 (W r).2.2.length = true ∧ (((List.range r).map W ++ [W r]).flatMap (writeBytes s l v)).Nodup := by
  refine ⟨h.1 _ (List.mem_map_of_mem (List.mem_range.mpr hr)), ?_⟩
  have hpre : (List.range r).map W ++ [W r] = (List.range (r + 1)).map W := by rw [List.range_succ, List.map_append]; rfl
  have hsub : ((List.range (r + 1)).map W).Sublist ((List.range n).map W) := (List.range_sublist.mpr hr).map W
  rw [hpre]
  exact h.2.sublist (hsub.flatMap _)

end Sys2Proof.Machine
end

section
/-! PROOFS. A command of VX or the Mover that issues into a tile where nothing waits starts at once, and nothing else does (for O32, O34). -/

namespace Sys2Proof.Machine

open Sys2Proof

-- One declaration after the other: the whole text is checked within a fixed memory.
set_option Elab.async false

variable {s t u : State} {l i e : Nat} {x y : SbEnt}

/-! ### The one entry that waits -/

/-- Entry `i` stands in a scoreboard, with no key before it that is not below its own. -/
def Stands (m : Tab (Option SbEnt)) (i : Nat) (x : SbEnt) : Prop := ∃ p q, m = p ++ (i, some x) :: q ∧ ∀ e ∈ p, e.1 < i

theorem stands_tput (m : Tab (Option SbEnt)) (i : Nat) (x : SbEnt) : Stands (tput m i (some x)) i x := by
  induction m with
  | nil => exact ⟨[], [], rfl, nofun⟩
  | cons e m ih =>
    obtain ⟨j, w⟩ := e
    simp only [tput]
    split
    · exact ⟨[], _, rfl, nofun⟩
    · split
      · exact ⟨[], _, rfl, nofun⟩
      · obtain ⟨p, q, hm, hp⟩ := ih
        refine ⟨(j, w) :: p, q, by rw [hm, List.cons_append], List.forall_mem_cons.mpr ⟨?_, hp⟩⟩
        dsimp only
        omega

/-- A store at another key leaves it in its place. -/
theorem Stands.tput_other {m : Tab (Option SbEnt)} {k : Nat} {v : Option SbEnt} (h : Stands m i x) (hk : k ≠ i) : Stands (tput m k v) i x := by
  induction m with
  | nil =>
    obtain ⟨p, q, hm, -⟩ := h
    simp at hm
  | cons e m ih =>
    obtain ⟨j, w⟩ := e
    obtain ⟨p, q, hm, hp⟩ := h
    simp only [tput]
    cases p with
    | nil =>
      obtain ⟨he, rfl⟩ := List.cons.inj hm
      obtain ⟨rfl, rfl⟩ := Prod.mk.inj he
      split
      · next hlt => exact ⟨[(k, v)], m, rfl, by simpa using hlt⟩
      · exact ⟨[], _, rfl, nofun⟩
    | cons z p =>
      obtain ⟨rfl, rfl⟩ := List.cons.inj hm
      obtain ⟨hj, hp⟩ := List.forall_mem_cons.mp hp
      dsimp only at hj
      split
      · refine ⟨(k, v) :: (j, w) :: p, q, rfl, List.forall_mem_cons.mpr ⟨?_, List.forall_mem_cons.mpr ⟨hj, hp⟩⟩⟩
        dsimp only
        omega
      · split
        · exact ⟨(k, v) :: p, q, rfl, List.forall_mem_cons.mpr ⟨by dsimp only; omega, hp⟩⟩
        · obtain ⟨p', q', hm', hp'⟩ := ih ⟨p, q, rfl, hp⟩
          exact ⟨(j, w) :: p', q', by rw [hm', List.cons_append], List.forall_mem_cons.mpr ⟨hj, hp'⟩⟩

/-- A store at its key replaces it. -/
theorem tput_stands {p q : Tab (Option SbEnt)} {v w : Option SbEnt} (hp : ∀ e ∈ p, e.1 < i) : tput (p ++ (i, w) :: q) i v = p ++ (i, v) :: q := by
  induction p with
  | nil => simp [tput]
  | cons e p ih =>
    obtain ⟨j, z⟩ := e
    obtain ⟨hj, hp⟩ := List.forall_mem_cons.mp hp
    dsimp only at hj
    rw [List.cons_append, tput, if_neg (by omega), if_neg (by omega), ih hp, List.cons_append]

/-- Entry `i` is the only one of tile `l` whose command waits, and its engine has a member free for it. -/
structure Waits (l i : Nat) (x : SbEnt) (s : State) : Prop where
  stands : Stands (tileGet s l).sb i x
  only : ∀ z, (i, z) ∈ sbUsed s l → z = x
  waits : waiting (sbUsed s l) = [(i, x)]
  room : ((sbUsed s l).filter fun y => y.2.engine == x.engine).length ≤ members s l

theorem members_sbPut (s : State) (l k : Nat) (v : Option SbEnt) : members (sbPut s l k v) = members s :=
  SameSpaces.members ⟨tileSite_sbPut s l k v, rfl⟩

/-- A command that waits has entered a scoreboard in which none waited. -/
theorem waits_sbPut (hi : sbFree s l = some i) (hw : waiting (sbUsed s l) = []) (hx : x.todo.isSome = true)
    (hroom : (sbEngine s l x.engine).length < members s l) : Waits l i x (sbPut s l i (some x)) := by
  have hfree := not_mem_of_sbFree hi
  obtain ⟨p, q, r, hs, ht, hr⟩ := sbUsed_sbPut s l i x
  have hqr : r = q := hr.elim id fun ⟨w, hq⟩ => absurd (by rw [hs, hq]; simp) (hfree w)
  subst hqr
  refine ⟨?_, fun z hz => ?_, ?_, ?_⟩
  · rw [sb_sbPut]
    exact stands_tput _ _ _
  · exact (mem_sbUsed_sbPut hz).elim (fun e => (Prod.mk.inj e).2) fun h => absurd h (hfree z)
  · rw [hs, waiting, List.filter_append, List.append_eq_nil_iff] at hw
    rw [ht, waiting, List.filter_append, List.filter_cons_of_pos (by exact hx), hw.1, hw.2, List.nil_append]
  · rw [(sbEngine_perm s l x.engine).length_eq, hs, List.filter_append, List.length_append] at hroom
    rw [members_sbPut, ht, List.filter_append, List.filter_cons_of_pos (by simp), List.length_append, List.length_cons]
    omega

/-- Another command that does not wait is stored again. -/
theorem Waits.sbPut {k : Nat} (h : Waits l i x s) (hk : k ≠ i) (hy : y.todo = none) (he : y.engine ≠ x.engine) :
    Waits l i x (sbPut s l k (some y)) := by
  obtain ⟨hst, ho, hw, hr⟩ := h
  refine ⟨?_, fun z hz => ?_, ?_, ?_⟩
  · rw [sb_sbPut]
    exact hst.tput_other hk
  · exact (mem_sbUsed_sbPut hz).elim (fun e => absurd (Prod.mk.inj e).1.symm hk) (ho z)
  · refine (filter_sbUsed_sbPut (by simp [hy]) fun w hwk => ?_).trans hw
    by_contra hs
    have hkw : (k, w) ∈ waiting (sbUsed s l) := List.mem_filter.mpr ⟨hwk, (Bool.not_eq_false _).mp hs⟩
    rw [hw, List.mem_singleton] at hkw
    exact hk (Prod.mk.inj hkw).1
  · rw [members_sbPut]
    exact (filter_sbUsed_sbPut_sublist (by simpa using he)).length_le.trans hr

theorem Waits.shfAssign (h : Waits l i x s) (hx : x.engine ≠ 1) : Waits l i x (shfAssign s l) := by
  refine shfAssign_induction h fun t ht e he h1 m => ht.sbPut ?_ ?_ ?_
  · intro hk
    have := h.only e.2 (by rw [← hk]; exact he)
    exact hx (by rw [← this]; exact h1)
  · by_contra hn
    have hm : e ∈ waiting (sbUsed s l) := List.mem_filter.mpr ⟨he, Option.isSome_iff_ne_none.mpr hn⟩
    rw [h.waits, List.mem_singleton] at hm
    exact hx (by rw [← h1, hm])
  · exact fun h' => hx (by rw [← h']; exact h1)

/-- It starts: nothing waits any more. -/
theorem Waits.started (h : Waits l i x s) (hy : y.todo = none) : waiting (sbUsed (Machine.sbPut s l i (some y)) l) = [] := by
  obtain ⟨p, q, hm, hp⟩ := h.stands
  have hx : x.todo.isSome = true := by
    have hmem : (i, x) ∈ waiting (sbUsed s l) := by rw [h.waits]; exact List.mem_singleton_self _
    exact (List.mem_filter.mp hmem).2
  have hu : ∀ z, waiting (usedOf (p ++ (i, some z) :: q)) = waiting (usedOf p) ++ waiting ((i, z) :: usedOf q) := fun z => by
    rw [usedOf, List.filterMap_append, waiting, List.filter_append]
    rfl
  have hw := h.waits
  rw [sbUsed_eq, hm, hu, waiting, waiting, List.filter_cons_of_pos (by exact hx)] at hw
  have hlen := congrArg List.length hw
  rw [List.length_append, List.length_cons, List.length_singleton] at hlen
  rw [sbUsed_eq, sb_sbPut, hm, tput_stands hp, hu, waiting, waiting, List.filter_cons_of_neg (by simp [hy]), List.append_eq_nil_iff]
  exact ⟨List.length_eq_zero_iff.mp (by omega), List.length_eq_zero_iff.mp (by omega)⟩

/-! ### What the engines find -/

/-- The entries of an engine that wait. -/
theorem waiting_sbEngine_perm (s : State) (l e : Nat) :
    (waiting (sbEngine s l e)).Perm ((waiting (sbUsed s l)).filter fun y => y.2.engine == e) := by
  refine ((sbEngine_perm s l e).filter _).trans ?_
  rw [waiting, List.filter_filter, List.filter_filter]
  simp only [Bool.and_comm]
  exact List.Perm.refl _

theorem waiting_sbEngine_nil (h : waiting (sbUsed s l) = []) (e : Nat) : waiting (sbEngine s l e) = [] :=
  List.perm_nil.mp (by simpa only [h, List.filter_nil] using waiting_sbEngine_perm s l e)

theorem Waits.sbEngine_other (h : Waits l i x s) (he : x.engine ≠ e) : waiting (sbEngine s l e) = [] :=
  List.perm_nil.mp (by simpa [h.waits, he] using waiting_sbEngine_perm s l e)

theorem Waits.sbEngine_same (h : Waits l i x s) : waiting (sbEngine s l x.engine) = [(i, x)] :=
  List.perm_singleton.mp (by simpa [h.waits] using waiting_sbEngine_perm s l x.engine)

theorem shfPump_none (h : waiting (sbEngine (shfAssign s l) l 1) = []) (n : Nat) : shfPump l (n + 1) s = shfAssign s l := by
  simp only [shfPump, h, List.find?_nil]

theorem thrPump_none (h : waiting (sbEngine s l 2) = []) (m n : Nat) : thrPump l m n s = s := by
  cases n with
  | zero => rfl
  | succ n => simp only [thrPump, thrQueue, h, List.filter_nil]

theorem fifoPump_none {run : EngineRun} (h : waiting (sbEngine s l e) = []) (n : Nat) : fifoPump l e run n s = s := by
  cases n with
  | zero => rfl
  | succ n => simp only [fifoPump, h]

/-- The engine of the one entry that waits starts it, and has then nothing to start. -/
theorem Waits.fifoPump {run : EngineRun} (h : Waits l i x s) (hx : x.engine = e) (n : Nat)
    (hw : waiting (sbEngine (engineStart s l i x run) l e) = []) : fifoPump l e run (n + 1) s = engineStart s l i x run := by
  subst hx
  have hlen : (sbEngine s l x.engine).length ≤ members s l := (sbEngine_perm s l x.engine).length_eq ▸ h.room
  have hpos : 0 < members s l := by unfold members; split <;> omega
  simp only [Machine.fifoPump, h.sbEngine_same, List.length_nil]
  rw [if_pos (by omega), fifoPump_none hw]

theorem mem_of_spRunning {k : Nat} {es : List (Nat × SbEnt)} {z : Nat × SbEnt} (h : z ∈ spRunning k es) : z ∈ es := by
  unfold spRunning at h
  refine List.foldlRecOn (motive := fun a : List (Nat × SbEnt) × Bool => ∀ z ∈ a.1, z ∈ es) es _ (fun _ h => absurd h List.not_mem_nil) ?_ z h
  intro a ha e he z hz
  split at hz
  · exact ha z hz
  · split at hz
    · exact ha z hz
    · rcases List.mem_append.mp hz with hz | hz
      · exact ha z hz
      · rw [List.mem_singleton.mp hz]; exact he

theorem spPump_none (h : waiting (sbEngine s l 5) = []) (n : Nat) : spPump l n s = s := by
  have hrun : waiting (spRunning (members s l) (sbEngine s l 5)) = [] := by
    refine List.filter_eq_nil_iff.mpr fun z hz => ?_
    exact List.filter_eq_nil_iff.mp h z (mem_of_spRunning hz)
  have hmark : spMark s l = s := by simp only [spMark, hrun, List.filterMap_nil, List.foldl_nil]
  cases n with
  | zero => rfl
  | succ n => simp only [spPump, hmark, hrun, List.find?_nil]

/-- The work of an engine: VX (3) or the Mover (4). -/
def fifoRun (e : Nat) : EngineRun := if e = 3 then runVx else runMov

/-- The engines of a tile where one command of VX or the Mover waits: it starts, and nothing else. -/
theorem Waits.enginesPump (h : Waits l i x s) (ht : s.pwr.tripped = false) (hx : x.engine = 3 ∨ x.engine = 4)
    (hw : waiting (sbUsed (engineStart (Machine.shfAssign s l) l i x (fifoRun x.engine)) l) = []) :
    enginesPump s l = engineStart (Machine.shfAssign s l) l i x (fifoRun x.engine) := by
  have ha := h.shfAssign (by omega)
  obtain ⟨n, hn⟩ : ∃ n, (sbUsed s l).length = n + 1 := by
    refine Nat.exists_eq_succ_of_ne_zero fun h0 => ?_
    have := h.waits
    rw [List.length_eq_zero_iff.mp h0] at this
    cases this
  have hne : (waiting (sbUsed s l)).isEmpty = false := by rw [h.waits]; rfl
  unfold Machine.enginesPump
  simp only [ht, hne, Bool.or_self, Bool.false_eq_true, if_false, hn]
  rw [shfPump_none (ha.sbEngine_other (by omega)), thrPump_none (ha.sbEngine_other (by omega)), thrPump_none (ha.sbEngine_other (by omega))]
  rcases hx with h3 | h4
  · have hrun : fifoRun x.engine = runVx := if_pos h3
    rw [hrun] at hw ⊢
    rw [ha.fifoPump h3 n (waiting_sbEngine_nil hw 3), fifoPump_none (waiting_sbEngine_nil hw 4), spPump_none (waiting_sbEngine_nil hw 5)]
  · have hrun : fifoRun x.engine = runMov := if_neg (by omega)
    rw [hrun] at hw ⊢
    rw [fifoPump_none (ha.sbEngine_other (by omega)), ha.fifoPump h4 n (waiting_sbEngine_nil hw 4), spPump_none (waiting_sbEngine_nil hw 5)]

end Sys2Proof.Machine
end

section
/-! PROOFS. A command of VX or the Mover that issues into an idle engine: it is issued, and its work is done at once (for O32, O34). -/

namespace Sys2Proof.Machine

open Sys2Proof

-- One declaration after the other: the whole text is checked within a fixed memory.
set_option Elab.async false

variable {s t u : State} {l i c e op : Nat} {w : List Nat} {x : SbEnt}

theorem shfAssign_site (s : State) (l : Nat) : tileSite (shfAssign s l) = tileSite s :=
  shfAssign_induction (P := fun t => tileSite t = tileSite s) rfl fun t ht _ _ _ _ => (tileSite_sbPut t l _ _).trans ht

theorem Waits.congr (h : Waits l i x s) (ht : t.tiles = s.tiles) (hp : SameSpaces s t) : Waits l i x t := by
  have hsb : tileGet t l = tileGet s l := tileGet_congr ht l
  have hu : sbUsed t l = sbUsed s l := sbUsed_congr (by rw [hsb])
  refine ⟨?_, ?_, ?_, ?_⟩
  · rw [hsb]; exact h.stands
  · rw [hu]; exact h.only
  · rw [hu]; exact h.waits
  · rw [hu, hp.members]; exact h.room

/-- A command of the context's PLY starts: what its run gives, if it meets no fault. -/
theorem engineStart_runs {run : EngineRun} {j : Job} (hj : x.todo = some j) (hp : x.ply = (ctxGet s x.ctx).ply) (hh : j.hits = [])
    (hr : run (sbPut s l i (some { x with todo := none })) l i j = (t, none)) : engineStart s l i x run = t := by
  have hs : ∀ z, hitsStrike z [] = z := fun _ => rfl
  simp only [engineStart, hj]
  rw [if_neg (not_not.mpr hp), hh, hs, hr]

section
variable (hq : Issues s u l c w) (hi : sbFree s l = some i) (hw : waiting (sbUsed s l) = []) (he : cwEngine w = 3 ∨ cwEngine w = 4)
  (hroom : (sbEngine s l (cwEngine w)).length < members s l)
include hq hi hw he hroom

/-- A command of VX or the Mover that enters a scoreboard in which none waited is the one that waits. -/
theorem waits_enqueueCmd (y : Ctx) (hits : List EngHit) : Waits l i (sbEntry u l c y w hits) (enqueueCmd u l c i y w hits) := by
  have hsb : (tileGet { u with jorder := u.jorder + 1 } l).sb = (tileGet s l).sb := hq.sb l
  have hu : sbUsed { u with jorder := u.jorder + 1 } l = sbUsed s l := sbUsed_congr hsb
  have hm : members { u with jorder := u.jorder + 1 } = members s := (issues_spaces hq).members
  have hqd : queued u l c i y w hits = sbPut { u with jorder := u.jorder + 1 } l i (some (sbEntry u l c y w hits)) := if_neg (by omega)
  have htr := enqueueCmd_traces u l c i y w hits
  have hin : Waits l i (sbEntry u l c y w hits) (queued u l c i y w hits) := by
    rw [hqd]
    refine waits_sbPut ?_ (by rw [hu]; exact hw) rfl ?_
    · exact hq.sbFree.trans hi
    · rw [hm, sbEngine, hu]
      exact hroom
  refine hin.congr (by rw [htr.frame]) ⟨tileSite_congr (by rw [htr.frame]), htr.regs _ ?_⟩
  simp only [List.mem_singleton, glbA, obsA]
  omega

end

theorem queued_site (s : State) (l c i : Nat) (y : Ctx) (w : List Nat) (hits : List EngHit) : tileSite (queued s l c i y w hits) = tileSite s := by
  have hput : tileSite (sbPut { s with jorder := s.jorder + 1 } l i (some (sbEntry s l c y w hits))) = tileSite s := tileSite_sbPut _ _ _ _
  unfold queued
  dsimp only
  split
  · rw [shfAssign_site, hput]
  · exact hput

theorem enqueueCmd_regs (s : State) (l c i : Nat) (y : Ctx) (w : List Nat) (hits : List EngHit) :
    regsBut s (enqueueCmd s l c i y w hits) [rOBS_TRC_LOST] := fun a ha =>
  ((enqueueCmd_traces s l c i y w hits).regs a ha).trans (rg_congr (by rw [queued_frame]) a)

theorem enqueueCmd_spaces (s : State) (l c i : Nat) (y : Ctx) (w : List Nat) (hits : List EngHit) : SameSpaces s (enqueueCmd s l c i y w hits) := by
  refine ⟨(tileSite_congr (by rw [(enqueueCmd_traces s l c i y w hits).frame])).trans (queued_site s l c i y w hits), enqueueCmd_regs s l c i y w hits _ ?_⟩
  simp only [List.mem_singleton, glbA, obsA]
  omega

theorem enqueueCmd_frame (s : State) (l c i : Nat) (y : Ctx) (w : List Nat) (hits : List EngHit) : ∃ T F R O,
    enqueueCmd s l c i y w hits = { s with jorder := s.jorder + 1, tiles := T, freeCtr := F, regs := R, obs := O } := by
  refine ⟨(queued s l c i y w hits).tiles, (enqueueCmd s l c i y w hits).freeCtr, (enqueueCmd s l c i y w hits).regs,
    (enqueueCmd s l c i y w hits).obs, ?_⟩
  rw [(enqueueCmd_traces s l c i y w hits).frame, queued_frame]

/-- The state in which the work of a command that waits begins. -/
def begun (s : State) (l i : Nat) (x : SbEnt) : State := sbPut (shfAssign s l) l i (some { x with todo := none })

theorem begun_frame (s : State) (l i : Nat) (x : SbEnt) : begun s l i x = { s with tiles := (begun s l i x).tiles } := by
  unfold begun
  rw [shfAssign_frame]
  rfl

theorem begun_spaces (s : State) (l i : Nat) (x : SbEnt) : SameSpaces s (begun s l i x) :=
  ⟨(tileSite_sbPut _ _ _ _).trans (shfAssign_site s l), rg_congr (by rw [begun_frame]) _⟩

/-- The engines do the work of the one command of VX or the Mover that waits. -/
theorem Waits.runs {j : Job} (h : Waits l i x s) (ht : s.pwr.tripped = false) (hx : x.engine = 3 ∨ x.engine = 4) (hj : x.todo = some j)
    (hp : x.ply = (ctxGet s x.ctx).ply) (hh : j.hits = []) (hr : fifoRun x.engine (begun s l i x) l i j = (t, none)) (hw : Works l (begun s l i x) t) :
    Machine.enginesPump s l = t ∧ tget none (tileGet t l).sb i = some { x with todo := none } := by
  have htl : t.tiles = (begun s l i x).tiles := by rw [hw.frame]
  have hst : engineStart (Machine.shfAssign s l) l i x (fifoRun x.engine) = t :=
    engineStart_runs hj (hp.trans (congrArg Ctx.ply (ctxGet_congr (by rw [shfAssign_frame]) x.ctx).symm)) hh hr
  refine ⟨(h.enginesPump ht hx ?_).trans hst, ?_⟩
  · rw [hst, sbUsed_congr (s := begun s l i x) (congrArg Tile.sb (tileGet_congr htl l))]
    exact (h.shfAssign (by omega)).started (y := { x with todo := none }) rfl
  · rw [tileGet_congr htl]
    exact sbPut_same _ _ _ _

theorem issued_frame {q z b : State} {T F R O} (hq : q = { s with
      knots := q.knots, pwr := q.pwr, ctxs := q.ctxs, tiles := q.tiles, regs := q.regs, obs := q.obs, freeCtr := q.freeCtr })
    (hz : z = { q with jorder := q.jorder + 1, tiles := T, freeCtr := F, regs := R, obs := O }) (hb : b = { z with tiles := b.tiles })
    (ht : t = { b with mem := t.mem, obs := t.obs, carried := t.carried }) :
    t = { s with pwr := t.pwr, ctxs := t.ctxs, tiles := t.tiles, jorder := t.jorder, obs := t.obs, regs := t.regs, frac := t.frac,
                 freeCtr := t.freeCtr, knots := t.knots, mem := t.mem, carried := t.carried } := by
  rw [ht, hb, hz, hq]

/-- A command of VX or the Mover has entered its engine's queue at entry `i`, where nothing else waits: from the issue at `q` to `z`. -/
structure Enters (s q z : State) (l i c : Nat) (w : List Nat) (x : SbEnt) : Prop where
  issues : Issues s q l c w
  free : sbFree s l = some i
  entry : x = sbEntry q l c (ctxGet s c) w []
  waits : Waits l i x z
  issued : HasIssued s z l c w
  spaces : SameSpaces q z
  regs : regsBut q z [rOBS_TRC_LOST]
  frame : ∃ T F R O, z = { q with jorder := q.jorder + 1, tiles := T, freeCtr := F, regs := R, obs := O }

theorem enters_enqueueCmd (hq : Issues s u l c w) (hi : sbFree s l = some i) (hw : waiting (sbUsed s l) = []) (he : cwEngine w = 3 ∨ cwEngine w = 4)
    (hroom : (sbEngine s l (cwEngine w)).length < members s l) :
    Enters s u (enqueueCmd u l c i (ctxGet s c) w []) l i c w (sbEntry u l c (ctxGet s c) w []) :=
  ⟨hq, hi, rfl, waits_enqueueCmd hq hi hw he hroom _ _, hasIssued_enqueueCmd hq, enqueueCmd_spaces _ _ _ _ _ _ _, enqueueCmd_regs _ _ _ _ _ _ _,
    enqueueCmd_frame _ _ _ _ _ _ _⟩

section
variable {q z : State} (h : Enters s q z l i c w x)
include h

theorem Enters.begun_spaces : SameSpaces s (begun z l i x) := ((issues_spaces h.issues).trans h.spaces).trans (Machine.begun_spaces z l i x)

theorem Enters.begun_mem : (begun z l i x).mem = s.mem := by
  rw [begun_frame]
  exact h.issued.mem

theorem Enters.begun_intact (hi : intact s) : intact (begun z l i x) := by
  obtain ⟨T, F, R, O, hz⟩ := h.frame
  refine intact_congr (s := s) ?_ ?_ hi
  · rw [begun_frame, hz, h.issues.frame]
  · rw [begun_frame, hz]
    change q.pwr.groups = _
    rw [h.issues.pwr]

/-- Its work done, it is issued as an engine's command is. -/
theorem Enters.issuedBy (hw : Works l (begun z l i x) t) (hx : tget none (tileGet t l).sb i = some { x with todo := none }) :
    engineIssued s t l c w := by
  obtain ⟨T, F, R, O, hz⟩ := h.frame
  have hf := hw.frame
  have hb := begun_frame z l i x
  have hq := h.issues
  have htc : t.ctxs = z.ctxs := by rw [hf, hb]
  refine ⟨issuedBy_congr h.issued.issued (by rw [ctxGet_congr htc]) (hw.cnt.trans (by rw [hb])) (rg_congr (by rw [hf, hb]) _) (by rw [hf, hb]), ?_,
    fun d hd => (ctxGet_congr htc d).trans (h.issued.others d hd), ⟨i, _, h.free, hx, ?_, ?_, ?_, ?_, ?_⟩, issued_frame hq.frame hz hb hf⟩
  · rw [hf, hb, hz]
    exact hq.knots
  all_goals rw [h.entry]; rfl

theorem Enters.regsBut (hw : Works l (begun z l i x) t) : Machine.regsBut s t [rTIL_ISSUED (tileSite s l), rOBS_TRC_LOST] := fun y hy => by
  have hr : t.regs = z.regs := by rw [hw.frame, begun_frame]
  rw [rg_congr hr, h.regs y (fun hm => hy (List.mem_cons_of_mem _ hm)), h.issues.regs y hy]

/-- The engines do its work. -/
theorem Enters.runs (ht : s.pwr.tripped = false) (he : cwEngine w = 3 ∨ cwEngine w = 4)
    (hr : fifoRun (cwEngine w) (begun z l i x) l i (jobOf (ctxGet s c) w []) = (t, none)) (hw : Works l (begun z l i x) t) :
    Machine.enginesPump z l = t ∧ tget none (tileGet t l).sb i = some { x with todo := none } := by
  obtain ⟨T, F, R, O, hz⟩ := h.frame
  have hx := h.entry
  have heng : x.engine = cwEngine w := by rw [hx]; rfl
  have hctx : x.ctx = c := by rw [hx]; rfl
  have hc : ctxGet z c = ctxGet q c := ctxGet_congr (by rw [hz]) c
  refine h.waits.runs (j := jobOf (ctxGet s c) w []) ?_ (by rw [heng]; exact he) (by rw [hx]; rfl) ?_ rfl (by rw [heng]; exact hr) hw
  · have hp : z.pwr = q.pwr := by rw [hz]
    rw [hp, h.issues.pwr]
    exact ht
  · rw [hctx, hc, h.issues.ctx, hx]
    rfl

end

/-- A command of VX or the Mover, of one iteration, issues into an idle engine: its work begins in a state that reads as before, and what it gives is what
the command gives. -/
theorem engine_runs (h : engineIssue s l e op c w) (he : e = 3 ∨ e = 4) (hop : op < engineOps e) :
    ∃ u i, SameSpaces s u ∧ u.mem = s.mem ∧ intact u ∧ ∀ t, fifoRun e u l i (jobOf (ctxGet s c) w []) = (t, none) → Works l u t →
      enginesPump (issueRow e op l [] s) l = t ∧ engineIssued s t l c w ∧ regsBut s t [rTIL_ISSUED (tileSite s l), rOBS_TRC_LOST] := by
  obtain ⟨hiss, hit, ⟨hw, -, -, hroom, -⟩, hint⟩ := h
  have ⟨_, hcand, _, hwe, _, _⟩ := hiss
  obtain ⟨i, hi, hc⟩ := issueCmd_engine (hits := []) hiss (by omega) (by omega)
  have hin := enters_enqueueCmd (issues_issueTaken s l c w) hi hw (by omega) (by rw [hwe]; exact hroom he)
  refine ⟨_, i, hin.begun_spaces, hin.begun_mem, hin.begun_intact hint, fun t hr hwk => ?_⟩
  obtain ⟨hp, hx⟩ := hin.runs (candidate_untripped hcand) (by omega) (by rw [hwe]; exact hr) hwk
  rw [issueRow_issues (hits := []) hiss (by omega) hop, hc]
  exact ⟨hp, hin.issuedBy hwk hx, hin.regsBut hwk⟩

end Sys2Proof.Machine
end


section
/-! PROOFS. The Mover (O34). -/

namespace Sys2Proof.Machine

open Sys2Proof

-- One declaration after the other: the whole text is checked within a fixed memory.
set_option Elab.async false

variable {s t u : State} {l c e op : Nat} {v : SlotImg} {w : List Nat} {ws : List (Nat × Nat × Bytes)}

/-! ### A state that reads as another -/

/-- The spaces of `u` hold what those of `s` hold, and nothing stored has an error. -/
structure ReadsAs (s u : State) : Prop where
  spaces : SameSpaces s u
  mem : u.mem = s.mem
  intact : intact u
  before : Machine.intact s

section
variable (h : ReadsAs s u)
include h

theorem ReadsAs.spBytes : Machine.spBytes u = Machine.spBytes s := by
  funext l v sp a n
  simp only [Machine.spBytes, h.spaces.physA]

theorem ReadsAs.rdChk : Machine.rdChk u = Machine.rdChk s := rdChk_congr h.before h.intact h.spaces h.mem

theorem ReadsAs.vxRow : Machine.vxRow u = Machine.vxRow s := by
  funext l v o c fmt r
  rw [Machine.vxRow, h.rdChk, ← Machine.vxRow]

theorem ReadsAs.canWrite (hw : Machine.canWrite s l v ws) : Machine.canWrite u l v ws := by rwa [Machine.canWrite, h.spBytes]

theorem ReadsAs.wrote (hw : Machine.wrote u t l v ws) : Machine.wrote s t l v ws :=
  ⟨hw.1, fun y hy => (hw.2 y (by rwa [h.spBytes])).trans (by rw [h.mem])⟩

end

/-- What O32 and O34 say of a command that issues into an idle engine: it is issued, its writes are made, and nothing else. -/
theorem runsTo_engine {i : Instr} (h : engineIssue s l e op c w) (he : e = 3 ∨ e = 4) (hop : op < engineOps e)
    (hx : exec i s = .next (enginesPump (issueRow e op l [] s) l))
    (hrun : ∀ u k, ReadsAs s u → ∃ t, fifoRun e u l k (jobOf (ctxGet s c) w []) = (t, none) ∧ Writes l v ws u t) :
    runsTo i s fun t => engineIssued s t l c w ∧ wrote s t l v ws ∧ regsBut s t [rTIL_ISSUED (tileSite s l), rOBS_TRC_LOST] := by
  obtain ⟨u, k, hp, hm, hi, hu⟩ := engine_runs h he hop
  obtain ⟨-, -, -, hint⟩ := h
  have hr : ReadsAs s u := ⟨hp, hm, hi, hint⟩
  obtain ⟨t, ht, hw⟩ := hrun u k hr
  obtain ⟨hpump, hiss, hregs⟩ := hu t ht hw.works
  exact ⟨t, hx.trans (by rw [hpump]), hiss, hr.wrote hw.wrote, hregs⟩

theorem iterate_one {f : State → Nat → State × Option CtxFlt} : iterate 1 f s = f s 0 := rfl

theorem runMov_jobOf {k : Nat} {x : Ctx} (hn : itersOf x w = 1) : fifoRun 4 s l k (jobOf x w []) = movOp s l (jobOf x w []) 0 := by
  have hr : runMov s l k (jobOf x w []) = iterate (itersOf x w) (fun s j => movOp s l (jobOf x w []) j) s := rfl
  rw [fifoRun, if_neg (by omega), hr, hn, iterate_one]

theorem itersOf_of_engineIssue (h : engineIssue s l e op c w) : itersOf (ctxGet s c) w = 1 := h.2.1

theorem cwOp_of_engineIssue (h : engineIssue s l e op c w) : cwOp w = op := by
  obtain ⟨⟨-, -, -, -, hop, -⟩, -⟩ := h
  exact hop

/-- What O34 says of a command of the Mover: it makes the writes `ws`. -/
theorem runsTo_mover {i : Instr} (h : engineIssue s l 4 op c w) (hop : op < 5) (hx : exec i s = .next (enginesPump (issueRow 4 op l [] s) l))
    (hrun : ∀ u, ReadsAs s u → ∃ t, movOp u l (jobOf (ctxGet s c) w []) 0 = (t, none) ∧ Writes l v ws u t) :
    runsTo i s fun t => engineIssued s t l c w ∧ wrote s t l v ws ∧ regsBut s t [rTIL_ISSUED (tileSite s l), rOBS_TRC_LOST] :=
  runsTo_engine h (.inr rfl) hop hx fun u k hu => by
    rw [runMov_jobOf (itersOf_of_engineIssue h)]
    exact hrun u hu

/-! ### One write -/

/-- The one write of a command, after reads that only count. -/
theorem writes_one {sp a : Nat} {b : Bytes} (hi : intact s) (hw : canWrite s l v [(sp, a, b)]) (hs : Works l s t) (hm : t.mem = s.mem) :
    ∃ u, wrChk t l v sp a b = (u, none) ∧ Writes l v [(sp, a, b)] s u :=
  (Writes.nil hs hm).append (e := (sp, a, b)) hi (hw.1 _ (List.mem_singleton_self _)) hw.2

/-- Operand `i` of a command of one iteration. -/
abbrev opdAt (x : Ctx) (w : List Nat) (i : Nat) : Opd := opdOf x.img x.b 0 (cwOpd w i)

section
variable {x : Ctx} (hi : intact s)
include hi

theorem movOp_copy {b : Bytes} (hop : cwOp w = 0) (hf : cwFlags w = 0)
    (hb : rdChk s l x.img (opdAt x w 0).sp (opdAt x w 0).a (64 * (cwOpd w 3 % 2 ^ 30)) = .ok b)
    (hw : canWrite s l x.img [((opdAt x w 1).sp, (opdAt x w 1).a, b)]) :
    ∃ t, movOp s l (jobOf x w []) 0 = (t, none) ∧ Writes l x.img [((opdAt x w 1).sp, (opdAt x w 1).a, b)] s t := by
  simp only [movOp, hop, hf, jobOf, ne_eq, not_true, if_false, hb]
  exact writes_one hi hw (works_spCount s _ _ _ _ _) (spCount_mem s _ _ _ _ _)

theorem movOp_fill (hop : cwOp w = 4) (hf : cwFlags w = 0) (h3 : (opdAt x w 2).sp = 3)
    (hw : canWrite s l x.img [((opdAt x w 1).sp, (opdAt x w 1).a, List.replicate (64 * (cwOpd w 3 % 2 ^ 30)) (BitVec.ofNat 8 (cwOpd w 2)))]) :
    ∃ t, movOp s l (jobOf x w []) 0 = (t, none) ∧
      Writes l x.img [((opdAt x w 1).sp, (opdAt x w 1).a, List.replicate (64 * (cwOpd w 3 % 2 ^ 30)) (BitVec.ofNat 8 (cwOpd w 2)))] s t := by
  simp only [movOp, hop, hf, jobOf, h3, ne_eq, not_true, or_self, if_false]
  exact writes_one hi hw (Works.refl s) rfl

/-! ### Units in order -/

/-- Units that are read at `src`, counted and written at `dst`, one after the other. -/
theorem iterate_units {n ss ds : Nat} {src dst : Nat → Nat} {B : Nat → Bytes} (hs : Writes l v [] s t)
    (hb : ∀ i < n, rdChk s l v ss (src i) 64 = .ok (B i))
    (ho : inOrder n (fun i => spBytes s l v ss (src i) 64) (fun i => spBytes s l v ds (dst i) 64))
    (hw : canWrite s l v ((List.range n).map fun i => (ds, dst i, B i))) :
    ∃ u, iterate n (fun s i => match rdChk s l v ss (src i) 64 with
        | .error e => (s, some e)
        | .ok b => wrChk (spCount s l v ss (src i) 64) l v ds (dst i) b) t = (u, none) ∧
      Writes l v ((List.range n).map fun i => (ds, dst i, B i)) s u := by
  refine iterate_writes n hs fun r hr t ht => ?_
  have hrd : rdChk t l v ss (src r) 64 = .ok (B r) := by
    refine ((ht.keeps fun e he y hy => ?_).rdChk hi fun _ hy => hy).trans (hb r hr)
    obtain ⟨r', hr', rfl⟩ := List.mem_map.mp he
    have hlt := List.mem_range.mp hr'
    refine ho r r' hlt hr y ?_
    rw [writeBytes, length_of_rdChk hi (hb r' (by omega))] at hy
    exact hy
  obtain ⟨hwin, hnd⟩ := canWrite_take hw hr
  simp only [hrd]
  exact (ht.counts (works_spCount t _ _ _ _ _) (spCount_mem t _ _ _ _ _)).append hi hwin hnd

section
variable {tab : Bytes} {B : Nat → Bytes} (hf : cwFlags w = 0)
  (ht : rdChk s l x.img (opdAt x w 2).sp (opdAt x w 2).a (4 * (cwOpd w 3 % 2 ^ 30)) = .ok tab)
include hf ht

theorem movOp_gather (hop : cwOp w = 1)
    (hb : ∀ i < cwOpd w 3 % 2 ^ 30, rdChk s l x.img (opdAt x w 0).sp ((opdAt x w 0).a + 64 * leAt tab (4 * i) 4) 64 = .ok (B i))
    (ho : inOrder (cwOpd w 3 % 2 ^ 30) (fun i => spBytes s l x.img (opdAt x w 0).sp ((opdAt x w 0).a + 64 * leAt tab (4 * i) 4) 64)
      (fun i => spBytes s l x.img (opdAt x w 1).sp ((opdAt x w 1).a + 64 * i) 64))
    (hw : canWrite s l x.img ((List.range (cwOpd w 3 % 2 ^ 30)).map fun i => ((opdAt x w 1).sp, (opdAt x w 1).a + 64 * i, B i))) :
    ∃ t, movOp s l (jobOf x w []) 0 = (t, none) ∧
      Writes l x.img ((List.range (cwOpd w 3 % 2 ^ 30)).map fun i => ((opdAt x w 1).sp, (opdAt x w 1).a + 64 * i, B i)) s t := by
  simp only [movOp, hop, hf, jobOf, ne_eq, not_true, if_false, ht]
  exact iterate_units hi (Writes.nil (works_spCount s _ _ _ _ _) (spCount_mem s _ _ _ _ _)) hb ho hw

theorem movOp_scatter (hop : cwOp w = 2)
    (hb : ∀ i < cwOpd w 3 % 2 ^ 30, rdChk s l x.img (opdAt x w 0).sp ((opdAt x w 0).a + 64 * i) 64 = .ok (B i))
    (ho : inOrder (cwOpd w 3 % 2 ^ 30) (fun i => spBytes s l x.img (opdAt x w 0).sp ((opdAt x w 0).a + 64 * i) 64)
      (fun i => spBytes s l x.img (opdAt x w 1).sp ((opdAt x w 1).a + 64 * leAt tab (4 * i) 4) 64))
    (hw : canWrite s l x.img ((List.range (cwOpd w 3 % 2 ^ 30)).map fun i => ((opdAt x w 1).sp, (opdAt x w 1).a + 64 * leAt tab (4 * i) 4, B i))) :
    ∃ t, movOp s l (jobOf x w []) 0 = (t, none) ∧
      Writes l x.img ((List.range (cwOpd w 3 % 2 ^ 30)).map fun i => ((opdAt x w 1).sp, (opdAt x w 1).a + 64 * leAt tab (4 * i) 4, B i)) s t := by
  simp only [movOp, hop, hf, jobOf, ne_eq, not_true, if_false, ht]
  exact iterate_units hi (Writes.nil (works_spCount s _ _ _ _ _) (spCount_mem s _ _ _ _ _)) hb ho hw

end

/-! ### Transpose -/

omit hi in
theorem mapM_ok {α β ε : Type} {f : α → Except ε β} {g : α → β} {xs : List α} (h : ∀ x ∈ xs, f x = .ok (g x)) : xs.mapM f = .ok (xs.map g) := by
  induction xs with
  | nil => rfl
  | cons y ys ih =>
    obtain ⟨hy, hys⟩ := List.forall_mem_cons.mp h
    rw [List.mapM_cons, hy, ih hys]
    rfl

/-- The transpose of rows that can be read: they are counted, then column after column is written. -/
theorem iterate_columns {o d : Opd} {rs cs fmt : Nat} {A : Nat → List Nat}
    (hw : canWrite s l v (rowWrites d rs fmt cs fun k => (List.range rs).map fun r => (A r).getD k 0)) :
    ∃ t, iterate cs (fun s i => vxPut s l v d rs fmt i (transposeAt ((List.range rs).map A) i))
        ((List.range rs).foldl (fun s r => spCount s l v o.sp (vxRowA o cs fmt r) (cdiv (cs * fmtBits fmt) 8)) s) = (t, none) ∧
      Writes l v (rowWrites d rs fmt cs fun k => (List.range rs).map fun r => (A r).getD k 0) s t := by
  have hc : Writes l v [] s ((List.range rs).foldl (fun s r => spCount s l v o.sp (vxRowA o cs fmt r) (cdiv (cs * fmtBits fmt) 8)) s) :=
    List.foldlRecOn _ _ (Writes.nil (Works.refl s) rfl) fun u hu r _ => hu.counts (works_spCount u _ _ _ _ _) (spCount_mem u _ _ _ _ _)
  refine iterate_writes cs hc fun k hk t ht => ?_
  obtain ⟨hwin, hnd⟩ := canWrite_take hw hk
  have hcol : transposeAt ((List.range rs).map A) k = (List.range rs).map fun r => (A r).getD k 0 := by rw [transposeAt, List.map_map]; rfl
  rw [vxPut, hcol]
  exact ht.append hi hwin hnd

theorem movOp_transpose {rs cs fmt : Nat} {A : Nat → List Nat} (hop : cwOp w = 3) (hf : cwFlags w ≤ 1)
    (hfmt : (if bit (cwFlags w) 0 then 7 else 0) = fmt) (hs : vxShape w = .ok (rs, cs)) (ha : ∀ r < rs, vxRow s l x.img (opdAt x w 0) cs fmt r = .ok (A r))
    (hw : canWrite s l x.img (rowWrites (opdAt x w 1) rs fmt cs fun k => (List.range rs).map fun r => (A r).getD k 0)) :
    ∃ t, movOp s l (jobOf x w []) 0 = (t, none) ∧
      Writes l x.img (rowWrites (opdAt x w 1) rs fmt cs fun k => (List.range rs).map fun r => (A r).getD k 0) s t := by
  have hm : (List.range rs).mapM (fun r => vxRow s l x.img (opdOf x.img x.b 0 (cwOpd w 0)) cs fmt r) = .ok ((List.range rs).map A) :=
    mapM_ok fun r hr => ha r (List.mem_range.mp hr)
  cases hb : bit (cwFlags w) 0 with
  | false =>
    obtain rfl : 0 = fmt := by rw [← hfmt, hb]; rfl
    simp only [movOp, hop, jobOf, if_neg (not_lt.mpr hf), hs, hb, Bool.false_eq_true, if_false, hm]
    exact iterate_columns hi hw
  | true =>
    obtain rfl : 7 = fmt := by rw [← hfmt, hb]; rfl
    simp only [movOp, hop, jobOf, if_neg (not_lt.mpr hf), hs, hb, if_true, hm]
    exact iterate_columns hi hw

end

/-- Settles O34: one lemma for each operation of the Mover. -/
theorem moverCommands : Obligations.MoverCommands := by
  intro s l c w x v f n o gives
  refine ⟨fun b hf hb h hw => ?_, fun tab B hf ht hb ho h hw => ?_, fun tab B hf ht hb ho h hw => ?_, fun rs cs A hf hs => ?_, fun hf h3 h hw => ?_⟩
  · exact runsTo_mover h (by omega) rfl fun u hu => movOp_copy hu.intact (cwOp_of_engineIssue h) hf (by rw [hu.rdChk]; exact hb) (hu.canWrite hw)
  · exact runsTo_mover h (by omega) rfl fun u hu => movOp_gather hu.intact hf (by rw [hu.rdChk]; exact ht) (cwOp_of_engineIssue h)
      (by rw [hu.rdChk]; exact hb) (by rw [hu.spBytes]; exact ho) (hu.canWrite hw)
  · exact runsTo_mover h (by omega) rfl fun u hu => movOp_scatter hu.intact hf (by rw [hu.rdChk]; exact ht) (cwOp_of_engineIssue h)
      (by rw [hu.rdChk]; exact hb) (by rw [hu.spBytes]; exact ho) (hu.canWrite hw)
  · intro fmt ha h hw
    exact runsTo_mover h (by omega) rfl fun u hu => movOp_transpose hu.intact (cwOp_of_engineIssue h) hf rfl hs (by rw [hu.vxRow]; exact ha) (hu.canWrite hw)
  · exact runsTo_mover h (by omega) rfl fun u hu => movOp_fill hu.intact (cwOp_of_engineIssue h) hf h3 (hu.canWrite hw)

end Sys2Proof.Machine
end

section
/-! PROOFS. The vector engine row by row (O32). -/

namespace Sys2Proof.Machine

open Sys2Proof

-- One declaration after the other: the whole text is checked within a fixed memory.
set_option Elab.async false

variable {s t u : State} {l c e op : Nat} {v : SlotImg} {w : List Nat}

/-! ### The bytes of a row (R115) -/

theorem packElems_length_le (fmt : Nat) : ∀ e : List Nat, (packElems fmt e).length ≤ (e.length * fmtBits fmt + 7) / 8
  | [] => by simp [packElems]
  | [x] => by
    simp only [packElems]
    split
    · next h => simp [h]
    · rw [leBytes_length, List.length_singleton]
      omega
  | x :: y :: r => by
    simp only [packElems]
    split
    · next h =>
      have := packElems_length_le fmt r
      rw [h] at this
      simp only [List.length_append, leBytes_length, List.length_cons, h]
      omega
    · next h =>
      have := packElems_length_le fmt (y :: r)
      simp only [List.length_append, leBytes_length, List.length_cons] at this ⊢
      have hs : (r.length + 1 + 1) * fmtBits fmt = (r.length + 1) * fmtBits fmt + fmtBits fmt := by ring
      rw [hs]
      omega

theorem cdiv_le_rowBytes (cols fmt : Nat) : cdiv (cols * fmtBits fmt) 8 ≤ rowBytes cols fmt := by
  unfold rowBytes cdiv
  omega

/-- A row of as many elements as it has columns fills its bytes. -/
theorem padTo_row_length {cols fmt : Nat} {e : List Nat} (h : e.length = cols) : (padTo (rowBytes cols fmt) (packElems fmt e)).length = rowBytes cols fmt := by
  have h1 := packElems_length_le fmt e
  have h2 := cdiv_le_rowBytes cols fmt
  rw [h] at h1
  unfold cdiv at h2
  rw [padTo, List.length_append, List.length_replicate]
  omega

theorem length_of_vxRow {o : Opd} {cols fmt r : Nat} {a : List Nat} (h : vxRow s l v o cols fmt r = .ok a) : a.length = cols := by
  unfold vxRow at h
  cases hb : rdChk s l v o.sp (vxRowA o cols fmt r) (cdiv (cols * fmtBits fmt) 8) with
  | error e => rw [hb] at h; cases h
  | ok b =>
    rw [hb] at h
    cases h
    simp [rowElems]

/-! ### Reads of what no row has written -/

section
variable {ys : List Nat} (hi : intact s) (h : KeepsBytes l ys s t)
include hi h

theorem KeepsBytes.vxRow {o : Opd} {cols fmt r : Nat} (hy : ∀ y ∈ rowSpan s l v o cols fmt r, y ∈ ys) :
    Machine.vxRow t l v o cols fmt r = Machine.vxRow s l v o cols fmt r := by
  rw [Machine.vxRow, Machine.vxRow, h.rdChk hi fun y hyr => hy y ?_]
  obtain ⟨i, hir, rfl⟩ := List.mem_map.mp hyr
  have := cdiv_le_rowBytes cols fmt
  exact List.mem_map.mpr ⟨i, List.mem_range.mpr (by have := List.mem_range.mp hir; omega), rfl⟩

end

/-! ### Row after row (R106) -/

/-- Rows in turn, each written from what stands at bytes that no row before it has written. -/
theorem iterate_rows {n cols fmt : Nat} {o : Opd} {ins : Nat → List Nat} {E : Nat → List Nat} {g : State → Nat → State × Option CtxFlt} (hi : intact s)
    (hlen : ∀ r < n, (E r).length = cols) (ho : inOrder n ins fun r => rowSpan s l v o cols fmt r) (hw : canWrite s l v (rowWrites o cols fmt n E))
    (hg : ∀ r < n, ∀ t, KeepsBytes l (ins r) s t → ∃ u, Works l t u ∧ u.mem = t.mem ∧ g t r = vxPut u l v o cols fmt r (E r)) :
    ∃ t, iterate n g s = (t, none) ∧ Writes l v (rowWrites o cols fmt n E) s t := by
  refine iterate_writes n (Writes.nil (Works.refl s) rfl) fun r hr t ht => ?_
  have hk : KeepsBytes l (ins r) s t := ht.keeps fun e he y hy => by
    obtain ⟨r', hr', rfl⟩ := List.mem_map.mp he
    have hlt := List.mem_range.mp hr'
    refine ho r r' hlt hr y ?_
    rw [writeBytes, padTo_row_length (hlen r' (by omega))] at hy
    exact hy
  obtain ⟨u, hu, hm, hgr⟩ := hg r hr t hk
  obtain ⟨hwin, hnd⟩ := canWrite_take hw hr
  rw [hgr, vxPut]
  exact (ht.counts hu hm).append hi hwin hnd

/-- Rows that are only read before they are written. -/
theorem vxRows_writes {n cols fmt : Nat} {o : Opd} {ins : Nat → List Nat} {E : Nat → List Nat} {f : State → Nat → Except CtxFlt (List Nat)} (hi : intact s)
    (hlen : ∀ r < n, (E r).length = cols) (ho : inOrder n ins fun r => rowSpan s l v o cols fmt r) (hw : canWrite s l v (rowWrites o cols fmt n E))
    (hf : ∀ r < n, ∀ t, KeepsBytes l (ins r) s t → f t r = .ok (E r)) :
    ∃ t, vxRows n f (fun s r e => vxPut s l v o cols fmt r e) s = (t, none) ∧ Writes l v (rowWrites o cols fmt n E) s t :=
  iterate_rows hi hlen ho hw fun r hr t ht => ⟨t, Works.refl t, rfl, by simp only [hf r hr t ht]⟩

theorem runVx_jobOf {k : Nat} {x : Ctx} (hn : itersOf x w = 1) : fifoRun 3 s l k (jobOf x w []) = vxOp s l (jobOf x w []) 0 := by
  have hr : runVx s l k (jobOf x w []) = iterate (itersOf x w) (fun s j => vxOp s l (jobOf x w []) j) s := rfl
  rw [fifoRun, if_pos rfl, hr, hn, iterate_one]

/-- What O32 says of a command of VX: it makes the writes `ws`. -/
theorem runsTo_vector {i : Instr} {ws : List (Nat × Nat × Bytes)} (h : engineIssue s l 3 op c w) (hop : op < 10)
    (hx : exec i s = .next (enginesPump (issueRow 3 op l [] s) l))
    (hrun : ∀ u, ReadsAs s u → ∃ t, vxOp u l (jobOf (ctxGet s c) w []) 0 = (t, none) ∧ Writes l v ws u t) :
    runsTo i s fun t => engineIssued s t l c w ∧ wrote s t l v ws ∧ regsBut s t [rTIL_ISSUED (tileSite s l), rOBS_TRC_LOST] :=
  runsTo_engine h (.inl rfl) hop hx fun u k hu => by
    rw [runVx_jobOf (itersOf_of_engineIssue h)]
    exact hrun u hu

/-! ### The operations -/

/-- The rows of operand `i` can be read and hold `E`. -/
def HasRows (s : State) (l : Nat) (x : Ctx) (w : List Nat) (rs cs i fmt : Nat) (E : Nat → List Nat) : Prop :=
  ∀ r < rs, vxRow s l x.img (opdAt x w i) cs fmt r = .ok (E r)

/-- A VX operation makes the writes of `rs` rows of `cols` elements of a format at its destination. -/
def VxGives (s : State) (l : Nat) (x : Ctx) (w : List Nat) (rs cols fmt : Nat) (E : Nat → List Nat) : Prop :=
  canWrite s l x.img (rowWrites (opdAt x w 2) cols fmt rs E) →
    ∃ t, vxOp s l (jobOf x w []) 0 = (t, none) ∧ Writes l x.img (rowWrites (opdAt x w 2) cols fmt rs E) s t

section
variable {x : Ctx} {rs cs fmt : Nat} {A B D : Nat → List Nat}

theorem HasRows.length {i r : Nat} (h : HasRows s l x w rs cs i fmt A) (hr : r < rs) : (A r).length = cs := length_of_vxRow (h r hr)

/-- A row reads as before where its bytes do. -/
theorem HasRows.kept {i r : Nat} {ys : List Nat} (h : HasRows s l x w rs cs i fmt A) (hi : intact s) (hr : r < rs) (ht : KeepsBytes l ys s t)
    (hy : ∀ y ∈ rowSpan s l x.img (opdAt x w i) cs fmt r, y ∈ ys) : vxRow t l x.img (opdAt x w i) cs fmt r = .ok (A r) :=
  (ht.vxRow hi hy).trans (h r hr)

variable (hi : intact s) (hs : vxShape w = .ok (rs, cs))
include hi hs

theorem vxOp_fma (hop : cwOp w = 1) (hf : cwFlags w = 0) (hA : HasRows s l x w rs cs 0 5 A) (hB : HasRows s l x w rs cs 1 5 B)
    (hD : HasRows s l x w rs cs 2 5 D)
    (ho : inOrder rs (fun r => rowSpan s l x.img (opdAt x w 0) cs 5 r ++ rowSpan s l x.img (opdAt x w 1) cs 5 r ++ rowSpan s l x.img (opdAt x w 2) cs 5 r)
      fun r => rowSpan s l x.img (opdAt x w 2) cs 5 r) :
    VxGives s l x w rs cs 5 fun r => List.zipWith (fun p z => f32fma p.1 p.2 z) ((A r).zip (B r)) (D r) := fun hw => by
  simp only [vxOp, jobOf, hop, hs, hf, ne_eq, not_true, if_false]
  refine vxRows_writes hi (fun r hr => by simp [hA.length hr, hB.length hr, hD.length hr]) ho hw fun r hr t ht => ?_
  have h0 := hA.kept hi hr ht fun y hy => by simp [hy]
  have h1 := hB.kept hi hr ht fun y hy => by simp [hy]
  have h2 := hD.kept hi hr ht fun y hy => by simp [hy]
  simp only [h0, h1, h2]
  rfl

theorem vxOp_reduce {z : Nat → Nat → Nat} (hop : cwOp w = 2) (hf : cwFlags w ≤ 1) (hz : (if cwFlags w = 1 then f32max true else f32add) = z)
    (hA : HasRows s l x w rs cs 0 5 A)
    (ho : inOrder rs (fun r => rowSpan s l x.img (opdAt x w 0) cs 5 r) fun r => rowSpan s l x.img (opdAt x w 2) 1 5 r) :
    VxGives s l x w rs 1 5 fun r => [vxReduce z ((A r).map fun e => encF32 (decF32 e))] := fun hw => by
  subst hz
  have hbad : ¬cwFlags w > 1 := not_lt.mpr hf
  simp only [vxOp, jobOf, hop, hs, hbad, if_false]
  refine vxRows_writes hi (fun r hr => rfl) ho hw fun r hr t ht => ?_
  have h0 := hA.kept hi hr ht fun y hy => hy
  simp only [h0]
  rfl

theorem vxOp_softmax (hop : cwOp w = 3) (hf : cwFlags w = 0) (hA : HasRows s l x w rs cs 0 5 A)
    (ho : inOrder rs (fun r => rowSpan s l x.img (opdAt x w 0) cs 5 r) fun r => rowSpan s l x.img (opdAt x w 2) cs 5 r) :
    VxGives s l x w rs cs 5 fun r =>
      (List.range cs).map fun i => normF32 (Config.vxSoftmax ((A r).map fun e => BitVec.ofNat 32 (normF32 e)) i).toNat := fun hw => by
  simp only [vxOp, jobOf, hop, hs, hf, ne_eq, not_true, if_false]
  refine vxRows_writes hi (fun r hr => by simp) ho hw fun r hr t ht => ?_
  have h0 := hA.kept hi hr ht fun y hy => hy
  simp only [h0]
  rfl

theorem vxOp_norm (hop : cwOp w = 4) (hf : cwFlags w ≤ 1) (hA : HasRows s l x w rs cs 0 5 A)
    (ho : inOrder rs (fun r => rowSpan s l x.img (opdAt x w 0) cs 5 r) fun r => rowSpan s l x.img (opdAt x w 2) cs 5 r) :
    VxGives s l x w rs cs 5 fun r =>
      (List.range cs).map fun i => normF32 (Config.vxNorm (cwFlags w == 1) ((A r).map fun e => BitVec.ofNat 32 (normF32 e)) i).toNat := fun hw => by
  have hbad : ¬cwFlags w > 1 := not_lt.mpr hf
  simp only [vxOp, jobOf, hop, hs, hbad, if_false]
  refine vxRows_writes hi (fun r hr => by simp) ho hw fun r hr t ht => ?_
  have h0 := hA.kept hi hr ht fun y hy => hy
  simp only [h0]
  rfl

theorem vxOp_lut {tab : Bytes} (hop : cwOp w = 5) (hf : cwFlags w = 0) (htab : rdChk s l x.img (opdAt x w 1).sp (opdAt x w 1).a 512 = .ok tab)
    (hA : HasRows s l x w rs cs 0 4 A) (ho : inOrder rs (fun r => rowSpan s l x.img (opdAt x w 0) cs 4 r) fun r => rowSpan s l x.img (opdAt x w 2) cs 4 r) :
    VxGives s l x w rs cs 4 fun r => (A r).map fun e =>
      normBf16 (Config.vxLut ((rowElems 4 256 tab).map fun z => BitVec.ofNat 16 (normBf16 z)) (BitVec.ofNat 16 (normBf16 e))).toNat := fun hw => by
  simp only [vxOp, jobOf, hop, hs, hf, ne_eq, not_true, if_false, htab]
  refine vxRows_writes hi (fun r hr => by simp [hA.length hr]) ho hw fun r hr t ht => ?_
  have h0 := hA.kept hi hr ht fun y hy => hy
  simp only [h0]
  rfl

/-- EW on one pair of elements of a format. -/
def ewPair (f fmt a b : Nat) : Nat := encFmt fmt false (decF32 (ewOp (f % 16) (encF32 (decFmt fmt a)) (encF32 (decFmt fmt b))))

omit hi hs in
theorem ewPairs (f fmt : Nat) (a b : List Nat) :
    (List.zipWith (ewOp (f % 16)) (a.map fun e => encF32 (decFmt fmt e)) (b.map fun e => encF32 (decFmt fmt e))).map
      (fun e => encFmt fmt false (decF32 e)) = List.zipWith (ewPair f fmt) a b := by
  rw [List.zipWith_map, List.map_zipWith]
  rfl

theorem vxOp_ew_two (hop : cwOp w = 0) (hf : cwFlags w < 32) (hk : cwFlags w % 16 < 5) (hA : HasRows s l x w rs cs 0 (ewFmt (cwFlags w)) A)
    (hB : HasRows s l x w rs cs 1 (ewFmt (cwFlags w)) B)
    (ho : inOrder rs (fun r => rowSpan s l x.img (opdAt x w 0) cs (ewFmt (cwFlags w)) r ++ rowSpan s l x.img (opdAt x w 1) cs (ewFmt (cwFlags w)) r)
      fun r => rowSpan s l x.img (opdAt x w 2) cs (ewFmt (cwFlags w)) r) :
    VxGives s l x w rs cs (ewFmt (cwFlags w)) fun r => List.zipWith (ewPair (cwFlags w) (ewFmt (cwFlags w))) (A r) (B r) := fun hw => by
  have hbad : ¬(cwFlags w % 16 > 5 ∨ ¬cwFlags w / 32 = 0) := by omega
  have hone : ¬cwFlags w % 16 = 5 := by omega
  simp only [vxOp, jobOf, hop, hs, ne_eq, hbad, hone, if_false]
  refine vxRows_writes hi (fun r hr => by simp [hA.length hr, hB.length hr]) ho hw fun r hr t ht => ?_
  have h0 := hA.kept hi hr ht fun y hy => by simp [hy]
  have h1 := hB.kept hi hr ht fun y hy => by simp [hy]
  simp only [h0, h1]
  exact congrArg Except.ok (ewPairs _ _ _ _)

theorem vxOp_ew_one (hop : cwOp w = 0) (hf : cwFlags w < 32) (hk : cwFlags w % 16 = 5) (hA : HasRows s l x w rs cs 0 (ewFmt (cwFlags w)) A)
    (ho : inOrder rs (fun r => rowSpan s l x.img (opdAt x w 0) cs (ewFmt (cwFlags w)) r) fun r => rowSpan s l x.img (opdAt x w 2) cs (ewFmt (cwFlags w)) r) :
    VxGives s l x w rs cs (ewFmt (cwFlags w)) fun r => List.zipWith (ewPair (cwFlags w) (ewFmt (cwFlags w))) (A r) (A r) := fun hw => by
  have hbad : ¬(5 > 5 ∨ ¬cwFlags w / 32 = 0) := by omega
  simp only [vxOp, jobOf, hop, hs, ne_eq, hbad, hk, if_false, if_true]
  refine vxRows_writes hi (fun r hr => by simp [hA.length hr]) ho hw fun r hr t ht => ?_
  have h0 := hA.kept hi hr ht fun y hy => hy
  simp only [h0]
  rw [← hk]
  exact congrArg Except.ok (ewPairs _ _ _ _)

theorem vxOp_convert {sf df : Nat} (hop : cwOp w = 9) (hf : cwFlags w < 512) (hsf : cwFlags w % 16 = sf) (hdf : bits (cwFlags w) 7 4 = df) (h7 : sf ≤ 7)
    (h7' : df ≤ 7) (hA : HasRows s l x w rs cs 0 sf A)
    (ho : inOrder rs (fun r => rowSpan s l x.img (opdAt x w 0) cs sf r) fun r => rowSpan s l x.img (opdAt x w 2) cs df r) :
    VxGives s l x w rs cs df fun r => (A r).map fun e =>
      encFmt df (bit (cwFlags w) 8 && (!fmtFloat sf || decide (fmtBits df < fmtBits sf))) (decFmt sf e) := fun hw => by
  have hbad : ¬(¬cwFlags w / 512 = 0 ∨ sf > 7 ∨ df > 7) := by omega
  simp only [vxOp, jobOf, hop, hs, ne_eq, hsf, hdf, hbad, if_false]
  refine iterate_rows hi (fun r hr => by simp [hA.length hr]) ho hw fun r hr t ht => ?_
  have h0 := hA.kept hi hr ht fun y hy => hy
  simp only [h0]
  refine ⟨_, ?_, ?_, rfl⟩
  · split
    · exact works_cinc (by simp only [cTile]; omega)
    · exact Works.refl t
  · split <;> rfl

end

/-! ### COMBINE (R189) -/

theorem mapM_congr {α β ε : Type} {f g : α → Except ε β} {xs : List α} (h : ∀ x ∈ xs, f x = g x) : xs.mapM f = xs.mapM g := by
  induction xs with
  | nil => rfl
  | cons y ys ih =>
    obtain ⟨hy, hys⟩ := List.forall_mem_cons.mp h
    rw [List.mapM_cons, List.mapM_cons, hy, ih hys]

/-- The bytes that the combination of query `q` reads: its header and the records that this names. -/
def combineBytes (s : State) (l : Nat) (v : SlotImg) (o : Opd) (os q : Nat) : List Nat :=
  spBytes s l v o.sp (o.a + q * os) (64 + leAt (spR s l v o.sp (o.a + q * os) 64) 0 4 * 576)

theorem mem_spBytes_sub {sp a n b m y : Nat} (hy : y ∈ spBytes s l v sp b m) (hlo : a ≤ b) (hhi : b + m ≤ a + n) : y ∈ spBytes s l v sp a n := by
  obtain ⟨i, hi, rfl⟩ := List.mem_map.mp hy
  have := List.mem_range.mp hi
  exact List.mem_map.mpr ⟨b - a + i, List.mem_range.mpr (by omega), by rw [show a + (b - a + i) = b + i by omega]⟩

theorem error_bind {α β ε : Type} (e : ε) (k : α → Except ε β) : (Except.error e >>= k) = Except.error e := rfl

theorem ok_bind {α β ε : Type} (a : α) (k : α → Except ε β) : (Except.ok a >>= k) = k a := rfl

theorem KeepsBytes.combineRow {o : Opd} {os q df : Nat} (hi : intact s) (ht : KeepsBytes l (combineBytes s l v o os q) s t) :
    Machine.combineRow t l v o df os q = Machine.combineRow s l v o df os q := by
  have hh : Machine.rdChk t l v o.sp (o.a + q * os) 64 = Machine.rdChk s l v o.sp (o.a + q * os) 64 :=
    ht.rdChk hi fun y hy => mem_spBytes_sub hy le_rfl (by omega)
  unfold Machine.combineRow
  rw [hh]
  cases hb : Machine.rdChk s l v o.sp (o.a + q * os) 64 with
  | error e => rw [error_bind, error_bind]
  | ok h =>
    have hr : h = spR s l v o.sp (o.a + q * os) 64 := by
      rw [rdChk_intact hi] at hb
      split at hb
      · exact (Except.ok.inj hb).symm
      · cases hb
    have hps : ∀ dim ≤ 128, (List.range (leAt h 0 4)).mapM (fun g => Machine.rdChk t l v o.sp (o.a + q * os + 64 + g * (64 + 4 * dim)) (64 + 4 * dim)) =
        (List.range (leAt h 0 4)).mapM fun g => Machine.rdChk s l v o.sp (o.a + q * os + 64 + g * (64 + 4 * dim)) (64 + 4 * dim) := fun dim hd => by
      refine mapM_congr fun g hg => ht.rdChk hi fun y hy => mem_spBytes_sub hy (by omega) ?_
      have hg' := List.mem_range.mp hg
      rw [← hr]
      have h1 : (g + 1) * (64 + 4 * dim) ≤ leAt h 0 4 * 576 := Nat.mul_le_mul hg' (by omega)
      rw [Nat.succ_mul] at h1
      omega
    have hdim : (if byteAt h 4 = 0 then 64 else 128) ≤ 128 := by split <;> omega
    rw [ok_bind, ok_bind]
    dsimp only
    rw [hps _ hdim]

theorem vxOp_combine {x : Ctx} {h : Bytes} {dim : Nat} {A : Nat → List Nat} (hi : intact s) (hop : cwOp w = 8) (hn : bits (cwOpd w 3) 29 16 ≠ 0)
    (h1 : cwOpd w 1 = 0) (hf : cwFlags w = 4 ∨ cwFlags w = 5) (hh : rdChk s l x.img (opdAt x w 0).sp (opdAt x w 0).a 64 = .ok h)
    (hdim : (if byteAt h 4 = 0 then 64 else 128) = dim)
    (hA : ∀ q < bits (cwOpd w 3) 29 16, combineRow s l x.img (opdAt x w 0) (cwFlags w) (leAt h 12 4) q = .ok (A q) ∧ (A q).length = dim)
    (ho : inOrder (bits (cwOpd w 3) 29 16) (combineBytes s l x.img (opdAt x w 0) (leAt h 12 4))
      fun q => rowSpan s l x.img (opdAt x w 2) dim (cwFlags w) q) : VxGives s l x w (bits (cwOpd w 3) 29 16) dim (cwFlags w) A := fun hw => by
  have hbad : ¬(bits (cwOpd w 3) 29 16 = 0 ∨ ¬True ∨ ¬cwFlags w / 16 = 0 ∨ ¬cwFlags w = 4 ∧ ¬cwFlags w = 5) := by
    simp only [not_true, false_or]
    omega
  simp only [vxOp, jobOf, hop, ne_eq, h1, hbad, if_false, hh, hdim]
  exact vxRows_writes hi (fun q hq => (hA q hq).2) ho hw fun q hq t ht => (ht.combineRow hi).trans (hA q hq).1

/-! ### The obligation -/

section
variable (h : ReadsAs s u)
include h

theorem ReadsAs.rows {x : Ctx} {rs cs i fmt : Nat} {E : Nat → List Nat} (hr : HasRows s l x w rs cs i fmt E) : HasRows u l x w rs cs i fmt E := by
  rwa [HasRows, h.vxRow]

theorem ReadsAs.rowSpan : Machine.rowSpan u = Machine.rowSpan s := by
  funext l v o cols fmt r
  rw [Machine.rowSpan, h.spBytes, ← Machine.rowSpan]

theorem ReadsAs.combineRow : Machine.combineRow u = Machine.combineRow s := by
  funext l v o df os q
  rw [Machine.combineRow, h.rdChk, ← Machine.combineRow]

theorem ReadsAs.combineBytes : Machine.combineBytes u = Machine.combineBytes s := by
  funext l v o os q
  rw [Machine.combineBytes, h.spBytes, h.spaces.spR h.mem, ← Machine.combineBytes]

end

/-- What O32 says of a row operation. -/
theorem runsTo_vxRows {i : Instr} {rs cols fmt : Nat} {E : Nat → List Nat} (h : engineIssue s l 3 op c w) (hop : op < 10)
    (hx : exec i s = .next (enginesPump (issueRow 3 op l [] s) l)) (hw : canWrite s l (ctxGet s c).img (rowWrites (opdAt (ctxGet s c) w 2) cols fmt rs E))
    (hrun : ∀ u, ReadsAs s u → VxGives u l (ctxGet s c) w rs cols fmt E) : runsTo i s fun t => engineIssued s t l c w ∧
      wrote s t l (ctxGet s c).img (rowWrites (opdAt (ctxGet s c) w 2) cols fmt rs E) ∧ regsBut s t [rTIL_ISSUED (tileSite s l), rOBS_TRC_LOST] :=
  runsTo_vector h hop hx fun u hu => hrun u hu (hu.canWrite hw)

/-- Settles O32: one lemma for each operation of the vector engine. -/
theorem vectorRows : Obligations.VectorRows := by
  intro s l c w rs cs A B D x v f o has reads gives
  refine ⟨⟨fun hf hk hA hB h hs ho hw => ?_, fun hf hk hA h hs ho hw => ?_⟩, fun hf hA hB hD h hs ho hw => ?_, fun hf hA h hs ho hw => ?_,
    fun hf hA h hs ho hw => ?_, fun hf hA h hs ho hw => ?_, fun hf hA h hs ho hw => ?_, fun tab hf ht hA h hs ho hw => ?_,
    fun hf hsf hdf hA h hs ho hw => ?_, ?_⟩
  · exact runsTo_vxRows h (by omega) rfl hw fun u hu => vxOp_ew_two hu.intact hs (cwOp_of_engineIssue h) hf hk (hu.rows hA) (hu.rows hB)
      (by rw [hu.rowSpan]; exact ho)
  · exact runsTo_vxRows h (by omega) rfl hw fun u hu => vxOp_ew_one hu.intact hs (cwOp_of_engineIssue h) hf hk (hu.rows hA)
      (by rw [hu.rowSpan]; exact ho)
  · exact runsTo_vxRows h (by omega) rfl hw fun u hu => vxOp_fma hu.intact hs (cwOp_of_engineIssue h) hf (hu.rows hA) (hu.rows hB) (hu.rows hD)
      (by rw [hu.rowSpan]; exact ho)
  · exact runsTo_vxRows h (by omega) rfl hw fun u hu => vxOp_reduce hu.intact hs (cwOp_of_engineIssue h) (by omega) (if_neg (by omega)) (hu.rows hA)
      (by rw [hu.rowSpan]; exact ho)
  · exact runsTo_vxRows h (by omega) rfl hw fun u hu => vxOp_reduce hu.intact hs (cwOp_of_engineIssue h) (by omega) (if_pos hf) (hu.rows hA)
      (by rw [hu.rowSpan]; exact ho)
  · exact runsTo_vxRows h (by omega) rfl hw fun u hu => vxOp_softmax hu.intact hs (cwOp_of_engineIssue h) hf (hu.rows hA)
      (by rw [hu.rowSpan]; exact ho)
  · exact runsTo_vxRows h (by omega) rfl hw fun u hu => vxOp_norm hu.intact hs (cwOp_of_engineIssue h) hf (hu.rows hA)
      (by rw [hu.rowSpan]; exact ho)
  · exact runsTo_vxRows h (by omega) rfl hw fun u hu => vxOp_lut hu.intact hs (cwOp_of_engineIssue h) hf (by rw [hu.rdChk]; exact ht) (hu.rows hA)
      (by rw [hu.rowSpan]; exact ho)
  · exact runsTo_vxRows h (by omega) rfl hw fun u hu => vxOp_convert hu.intact hs (cwOp_of_engineIssue h) hf rfl rfl hsf hdf (hu.rows hA)
      (by rw [hu.rowSpan]; exact ho)
  · rintro hd nq dim ws h rfl hn h1 hf hh hA ho hw
    obtain ⟨t, ht, hi, hwr, -⟩ := runsTo_vxRows (i := .combine l []) h (by omega) rfl hw fun u hu => vxOp_combine hu.intact (cwOp_of_engineIssue h) hn h1 hf
      (by rw [hu.rdChk]; exact hh) rfl (by rw [hu.combineRow]; exact hA) (by rw [hu.combineBytes, hu.rowSpan]; exact ho)
    exact ⟨t, ht, hi, hwr⟩

end Sys2Proof.Machine
end
